-- ==== Sys2Proof/Word.lean ====
section
/-! DEFINITION. The word types of the VK6410: bytes, the 32-bit Ariust-2 word, the 64-bit register
value and the 128-bit lane register (00 R3, R6; 06 R199). -/
namespace Sys2Proof

/-- One byte (00 R4). -/
abbrev Byte := BitVec 8

/-- A 32-bit Ariust-2 word (06 R199). -/
abbrev Word := BitVec 32

/-- A register value or write value, 32-bit registers in the low half (00 R13). -/
abbrev Reg := BitVec 64

/-- A lane register (06 R199). -/
abbrev Lane := BitVec 128

end Sys2Proof
end

