-- ==== Sys2Proof/Syntax.lean ====
section
/-! DEFINITION. The commands the VK6410 takes, one constructor per row of the opcode table, and the
types of their operands. -/
namespace Sys2Proof

/-- The two host ports (04 R120). -/
inductive Port where
  | a
  | b
deriving DecidableEq, Repr

/-- The register BARs: BAR0 of a function, and BAR2 of function 0 (04 R123). -/
inductive Bar where
  | bar0
  | bar2
deriving DecidableEq, Repr

/-- An Ariust-2 core: one of the 1,024 Crumbs or of the four control cores (06). -/
inductive CoreSel where
  | crumb (c : Fin 1024)
  | ctrl (c : Fin 4)
deriving DecidableEq, Repr

/-- The S16 instructions that a REP prefix may repeat, OP 0x01 to 0x0D (06 R223). -/
inductive RepOp where
  | mov | add | sub | and | or | xor | cmp | tst | addq | subq | movq | neg | not
deriving DecidableEq, Repr

/-- The instruction after a REP or REPI prefix (06 R223). `other` stands for any instruction not listed
there, and for a prefix that is the last instruction of the code (06 R210). -/
inductive RepBody where
  | s16 (op : RepOp) (a b : Fin 16)
  | ldf (d a x : Fin 16) (sc mode size : Fin 4) (sgn : Bool)
  | stf (d a x : Fin 16) (sc mode size : Fin 4)
  | vld (d a : Fin 16) (bk : Fin 4) (f : Bool) (disp : BitVec 12)
  | vst (d a : Fin 16) (bk : Fin 4) (f : Bool) (disp : BitVec 12)
  | cpy (d a : Fin 16) (size : Fin 4)
  | other
deriving DecidableEq, Repr

/-- The fields of a function's PCIe configuration space that the spec gives it, and those PCIe gives the features it names
(04 R120, R123, R124; 15 R503). -/
inductive CfgReg where
  | vendorId | deviceId | classCode
  /-- The Command register: Memory Space Enable and Bus Master Enable. -/
  | command
  | bar0 | bar2 | vfBar0
  | powerState | maxPayload | deviceControl2
  /-- MSI-X Message Control, and the places of the table and of the pending bits. -/
  | msixControl | msixTable | msixPba
  | totalVfs | firstVfOffset | vfStride | sriovControl | numVfs | vfDeviceId
  | atsControl
  | linkStatus
deriving DecidableEq, Repr

/-- A PCIe configuration request: the bus number of its routing ID, the function counted from function 0, the field, and the
value that a write carries. -/
structure CfgRequest where
  bus : Nat
  fn : Nat
  reg : CfgReg
  write : Option Nat
deriving DecidableEq, Repr

/-- Who made the host memory read that completes: a ring fetch of a queue pair, or a command, by its tag. -/
inductive ReadOwner where
  | ring (port : Port) (fn qid : Nat)
  | cmd (tag : Nat)
  /-- A translation request of a function for a page of 4 KiB: its data is the translation (04 R124). -/
  | ats (port : Port) (fn page : Nat)
deriving DecidableEq, Repr

/-- How a host memory read ends (03 R118). -/
inductive HostRead where
  | data (bytes : List Byte)
  | unsupportedRequest
  | completerAbort
  | poisoned
deriving DecidableEq, Repr

/-- What the read of a Sieve slot finds (09 R329). -/
inductive EntryClass where
  | clean
  | corrected
  | uncorrectable
deriving DecidableEq, Repr

/-- The fields of an ONFI parameter page that the checks of a card use (10 R338, R339): the NV-LPDDR4 rates as MAX_RATE
codes, the plane address bits as their number. -/
structure ParamPage where
  jedec : Nat
  model : List Byte
  pageBytes : Nat
  spareBytes : Nat
  pagesPerBlock : Nat
  blocksPerLun : Nat
  lunsPerCe : Nat
  bitsPerCell : Nat
  planeBits : Nat
  maxBad : Nat
  endurance : Nat
  rates : List Nat
deriving DecidableEq, Repr

/-- A chip enable that answers Read ID (10 R338, R339): its channel and number, whether address 20h returned "ONFI", and
the copies of its parameter page in order, none for a copy whose Integrity CRC fails (R332). -/
structure ChipReport where
  chan : Nat
  ce : Nat
  onfi : Bool
  copies : List (Option ParamPage)
deriving DecidableEq, Repr

/-- What the identification of a card reads on the slot's buses (10 R336 to R341): the identity record where it was read,
the chip enables that answer, the channels whose training passes, and the blocks that carry the factory's mark, by
channel, die and ONFI block number (R362). -/
structure CardReport where
  record : Option (List Byte)
  chips : List ChipReport
  trained : List Nat
  factoryBad : List (Nat × Nat × Nat)
deriving DecidableEq, Repr

/-- A flash operation in progress (10 R334): of the channels' queues, or a Reset, Read ID, Read Parameter Page or Features
command to a die of a slot's card. -/
inductive FlashOpRef where
  | read (rid : Nat)
  | program (row : Nat) (slot : Fin 24)
  | erase (set : Nat) (slot : Fin 24)
  | command (slot : Fin 24) (chan : Fin 8) (die : Fin 32)
deriving DecidableEq, Repr

/-- The owners of the on-die SRAMs (11 R409). -/
inductive SramOwner where
  | crumb | loaf | sieve | digest | ctxCache | merge | rollerRing
deriving DecidableEq, Repr

/-- A frame received on an Ethernet port as it came off the wire (12 R411, R413): the port, whether its FCS is right, the MAC
header (from the destination address to the EtherType), the IPv6 header, the UDP header, and the UDP payload. Of a frame that
is no UDP datagram the three last parts are what stands in their places. -/
structure RxFrame where
  eth : Fin 4
  fcsOk : Bool
  mac : List Byte
  ip : List Byte
  udp : List Byte
  bytes : List Byte
deriving DecidableEq, Repr

/-- What Starter finds at the release of RESET_N: the straps as sampled (15 R489) and the results of the
fuse CRC, of the self-tests and of the SFDP check (13 R450, R452, R442). -/
structure StarterReport where
  bifPin : Bool
  mgmtSelPin : Bool
  fuseOk : Bool
  selfTestOk : Bool
  sfdpOk : Bool
deriving DecidableEq, Repr

/-- A request that reaches a memory controller (11 R388, R389): the port it enters through, whether it is a
write, the 32-byte block of the pseudo-channel's stack it names (stack address div 32), its byte mask and its
data. -/
structure MemReq where
  id : Nat
  port : Fin 8
  write : Bool
  block : Nat
  mask : BitVec 32
  data : BitVec 256
deriving DecidableEq, Repr


/-- The commands of the VK6410, one constructor per row of the opcode table. -/
inductive Instr where
  /-- A write to a management or tenant register that has no row of its own, under its access type, lock and width rules (R9). -/
  | registerWrite (port : Port) (fn : Nat) (bar : Bar) (off width : Nat) (value : Reg)
  /-- A read of an RC register returns the value and clears it, latching the upper half on a 32-bit lower-half read (R13). -/
  | rcRegisterRead (port : Port) (fn : Nat) (bar : Bar) (off width : Nat)
  /-- A write of a submission tail doorbell is checked and advances the tail, or halts the queue pair (R76). -/
  | submissionTailDoorbell (port : Port) (fn qid : Nat) (value : BitVec 32)
  /-- A write of a completion head doorbell is checked and releases reply slots, or halts the queue pair (R76). -/
  | completionHeadDoorbell (port : Port) (fn qid : Nat) (value : BitVec 32)
  /-- A change of TF_AQ_CFG.ENABLE from 0 to 1 checks the ring settings and creates QID 0 (R128). -/
  | adminQpEnable (port : Port) (fn : Nat) (cfg : BitVec 32)
  /-- A change of TF_AQ_CFG.ENABLE from 1 to 0 deletes the admin queue pair (R511). -/
  | adminQpDisable (port : Port) (fn : Nat)
  /-- The Dispatcher fetches up to 8 commands of a queue pair in one turn when room allows, and range-checks and classifies them (R79). -/
  | commandFetch (port : Port) (fn qid : Nat) (bytes : List Byte)
  /-- A fetched command that waited on an ORD or overlap rule starts once the earlier commands allow it (R100). -/
  | commandStart (tag : Nat)
  /-- A host read for a ring fetch passes the completion timeout and the queue pair halts (R116). -/
  | ringFetchTimeout (port : Port) (fn qid : Nat)
  /-- A host read for payload, page list or digest passes the completion timeout and the command fails with HOST_DMA_ERROR (R116). -/
  | hostDmaTimeout (tag : Nat)
  /-- A completion of a host memory read arrives, delivering data or an error that fails the command with HOST_DMA_ERROR (R118). -/
  | hostReadCompletion (who : ReadOwner) (result : HostRead)
  /-- IRQ_TIME passes since the first unsignalled reply and the MSI-X message is sent (R83). -/
  | irqCoalesceTimeout (port : Port) (fn qid : Nat)
  /-- NOP completes with no effect (R90). -/
  | nop (tag : Nat)
  /-- IDENTIFY with AUX 0 writes the device structure (R146). -/
  | identifyDevice (tag : Nat)
  /-- IDENTIFY with AUX 1 writes the function structure (R146). -/
  | identifyFunction (tag : Nat)
  /-- IDENTIFY with AUX 2 writes the container list (R146). -/
  | identifyContainers (tag : Nat)
  /-- IDENTIFY with AUX 3 writes the quota usage state (R146). -/
  | identifyUsage (tag : Nat)
  /-- CREATE_QP creates an I/O queue pair with the lowest free QID (R72). -/
  | createQp (tag : Nat)
  /-- DELETE_QP stops fetching, lets started commands end and removes the queue pair (R511). -/
  | deleteQp (tag : Nat)
  /-- GET_LOG with AUX 0 writes part of the function error log (R92). -/
  | getLogError (tag : Nat)
  /-- GET_LOG with AUX 1 writes the health summary (R370). -/
  | getLogHealth (tag : Nat)
  /-- ABORT removes a fetched, unstarted command and answers it with ABORTED_BY_REQUEST (R103). -/
  | abort (tag : Nat)
  /-- ASYNC_EVENT waits for an event, or is answered at once with a held event (R78). -/
  | asyncEvent (tag : Nat)
  /-- BLOCK_READ reads LBAs of a block namespace into host memory (R91). -/
  | blockRead (tag : Nat)
  /-- BLOCK_WRITE writes LBAs, acknowledged after data and parity are programmed and the map switched (R60). -/
  | blockWrite (tag : Nat)
  /-- FLUSH completes after every earlier write-type command on its ring has completed (R101). -/
  | flush (tag : Nat)
  /-- DEALLOCATE writes a trim record and completes when it is durable (R62). -/
  | deallocate (tag : Nat)
  /-- OPEN_WRITE opens a write stream and takes a stream context (R41). -/
  | openWrite (tag : Nat)
  /-- APPEND adds a byte range to an open write stream (R42). -/
  | append (tag : Nat)
  /-- COMMIT moves a stream to Committing and checks coverage, digest, version, kind and log start (R46). -/
  | commit (tag : Nat)
  /-- ABORT_STREAM aborts an open write stream and releases it (R41). -/
  | abortStream (tag : Nat)
  /-- OBJECT_READ reads bytes of one resolved object version (R53). -/
  | objectRead (tag : Nat)
  /-- OPEN_READ opens a read stream that pins one version (R54). -/
  | openRead (tag : Nat)
  /-- CLOSE_READ closes a read stream and releases its pin (R54). -/
  | closeRead (tag : Nat)
  /-- DELETE commits a tombstone under the expected version (R55). -/
  | delete (tag : Nat)
  /-- STAT reports an object's liveness, version and length (R91). -/
  | stat (tag : Nat)
  /-- STAT with STREAM_QUERY reports a stream's state, digest frontier and bytes received (R90). -/
  | statStreamQuery (tag : Nat)
  /-- LOG_TRIM releases whole extents of a log object within a range as a hint (R57). -/
  | logTrim (tag : Nat)
  /-- LIST writes object IDs and versions in ascending order from START_ID (R91). -/
  | list (tag : Nat)
  /-- PROGRAM_LOAD validates a program image and places it in its slot (R163). -/
  | programLoad (tag : Nat)
  /-- PROGRAM_UNLOAD frees the slot whose current handle is named (R165). -/
  | programUnload (tag : Nat)
  /-- JOB_SUBMIT checks a job descriptor and starts the job in Loading (R173). -/
  | jobSubmit (tag : Nat)
  /-- JOB_STATUS returns a job's state and slices done (R174). -/
  | jobStatus (tag : Nat)
  /-- JOB_CANCEL ends a job at once with END = 1 (R198). -/
  | jobCancel (tag : Nat)
  /-- DIGEST_DIRECT digests a segment of host data, opening, feeding or finalising a digest stream (R91). -/
  | digestDirect (tag : Nat)
  /-- COMPRESS_DIRECT codes host data into one Roller stream in host memory (R265). -/
  | compressDirect (tag : Nat)
  /-- DECOMPRESS_DIRECT checks and decodes one Roller stream into host memory (R266). -/
  | decompressDirect (tag : Nat)
  /-- SIEVE_INSERT places a tenant entry in the tenant's private region (R320). -/
  | sieveInsert (tag : Nat)
  /-- SIEVE_REMOVE clears a tenant's private entry (R322). -/
  | sieveRemove (tag : Nat)
  /-- SIEVE_LOOKUP searches the tenant's private entries with a key (R323). -/
  | sieveLookup (tag : Nat)
  /-- SIEVE_READ writes one tenant entry to host memory (R322). -/
  | sieveRead (tag : Nat)
  /-- FN_CONTROL ENABLE applies the shadow settings and makes a Disabled tenant Running (R131). -/
  | fnControlEnable (tag : Nat)
  /-- FN_CONTROL DISABLE resets the tenant without NOTIFY and makes it Disabled (R131). -/
  | fnControlDisable (tag : Nat)
  /-- FN_CONTROL STOP stops fetching for a Running tenant and makes it Stopped (R132). -/
  | fnControlStop (tag : Nat)
  /-- FN_CONTROL RESTART checks and applies shadow settings and resumes a Stopped tenant (R134). -/
  | fnControlRestart (tag : Nat)
  /-- FN_CONTROL RESET performs a path or tenant reset (R107). -/
  | fnControlReset (tag : Nat)
  /-- SPACE_CREATE creates an object space or modifies its quotas (R142). -/
  | spaceCreate (tag : Nat)
  /-- SPACE_DELETE deletes an object space once its delete record is durable (R144). -/
  | spaceDelete (tag : Nat)
  /-- NS_CREATE creates or grows a block namespace (R142). -/
  | nsCreate (tag : Nat)
  /-- NS_DELETE deletes a block namespace once its delete record is durable (R142). -/
  | nsDelete (tag : Nat)
  /-- FW_DOWNLOAD writes a chunk of a firmware image or configuration and checks the whole image after the last chunk (R456). -/
  | fwDownload (tag : Nat)
  /-- FW_ACTIVATE enters Quiesce, drains and switches to the pending firmware (R457). -/
  | fwActivate (tag : Nat)
  /-- The new firmware reports ready, the device leaves Quiesce and fetching resumes (R457). -/
  | firmwareReady
  /-- The new firmware has not reported ready by 650 ms and the previous firmware is restored (R457). -/
  | activationTimeout
  /-- MODE_REQUEST ENTER_MAINT sets QUIESCE and drains toward Maintenance (R455). -/
  | modeRequestEnterMaint (tag : Nat)
  /-- MODE_REQUEST EXIT_MAINT clears MAINT (R455). -/
  | modeRequestExitMaint (tag : Nat)
  /-- MODE_REQUEST ENTER_QUIESCE enters Quiesce and replies when drained (R454). -/
  | modeRequestEnterQuiesce (tag : Nat)
  /-- MODE_REQUEST QUERY returns DEV_MODE and DEV_FLAGS (R455). -/
  | modeRequestQuery (tag : Nat)
  /-- KEY_LOAD with OP LOAD unwraps and loads a key into a tenant or device slot (R291). -/
  | keyLoad (tag : Nat)
  /-- KEY_LOAD ERASE_TENANT empties a Disabled tenant's slots and deletes its containers (R293). -/
  | eraseTenant (tag : Nat)
  /-- KEY_LOAD ERASE_DEVICE empties D0 or D1 in Maintenance (R293). -/
  | eraseDevice (tag : Nat)
  /-- DIRTY_LOG START turns on dirty-page logging into a ring of function 0 (R147). -/
  | dirtyLogStart (tag : Nat)
  /-- DIRTY_LOG STOP turns dirty-page logging off (R147). -/
  | dirtyLogStop (tag : Nat)
  /-- DIRTY_LOG SYNC completes after entries exist for every earlier host write (R150). -/
  | dirtyLogSync (tag : Nat)
  /-- EVENT_CLEAR checks the token and clears event records up to the newest number (R486). -/
  | eventClear (tag : Nat)
  /-- RAW_MEDIA READ_SECTOR returns one decoded sector and its header (R376). -/
  | readSector (tag : Nat)
  /-- RAW_MEDIA READ_RAW returns an undecoded page (R376). -/
  | readRaw (tag : Nat)
  /-- RAW_MEDIA READ_PARAM returns a die's parameter page (R376). -/
  | readParam (tag : Nat)
  /-- RAW_MEDIA READ_ID returns the ID bytes of a die (R376). -/
  | readId (tag : Nat)
  /-- RAW_MEDIA PROGRAM_RAW programs a page as given on an Offline slot (R376). -/
  | programRaw (tag : Nat)
  /-- RAW_MEDIA ERASE erases a block on an Offline slot (R376). -/
  | erase (tag : Nat)
  /-- SANITIZE checks its token, empties keys and erases every good block (R377). -/
  | sanitize (tag : Nat)
  /-- DIGEST_RAW runs blocks through a compression function with no padding (R283). -/
  | digestRaw (tag : Nat)
  /-- GROUP_CONFIG SET_SELF sets this device's Group identity and addresses (R436). -/
  | setSelf (tag : Nat)
  /-- GROUP_CONFIG SET_MEMBER configures a peer member (R436). -/
  | setMember (tag : Nat)
  /-- GROUP_CONFIG REMOVE_MEMBER makes a member Absent and starts repair of its stripes (R436). -/
  | removeMember (tag : Nat)
  /-- GROUP_CONFIG ENABLE starts Firon Link with a new session (R436). -/
  | groupConfigEnable (tag : Nat)
  /-- GROUP_CONFIG DISABLE stops Firon Link sending (R436). -/
  | groupConfigDisable (tag : Nat)
  /-- GROUP_CONFIG ADOPT takes a Lost origin's index and rebuilds its Group-coded objects (R435). -/
  | adopt (tag : Nat)
  /-- SIEVE_ADMIN INSERT places an entry in a classification or admission bank (R331). -/
  | sieveAdminInsert (tag : Nat)
  /-- SIEVE_ADMIN REMOVE clears an entry of a bank (R331). -/
  | sieveAdminRemove (tag : Nat)
  /-- SIEVE_ADMIN READ writes an entry to host memory (R331). -/
  | sieveAdminRead (tag : Nat)
  /-- SIEVE_ADMIN LOOKUP searches a bank with a whole key (R331). -/
  | sieveAdminLookup (tag : Nat)
  /-- SIEVE_ADMIN CLEAR clears every valid bit of a bank (R331). -/
  | sieveAdminClear (tag : Nat)
  /-- A stream's inactivity timer expires and the stream is aborted or released (R45). -/
  | streamInactivityTimeout (handle : Nat)
  /-- The commit page interval passes with a record waiting and a commit page is programmed (R50). -/
  | commitPageProgram
  /-- A commit record becomes durable, the version becomes visible and the completion is posted (R49). -/
  | commitRecordDurable (id : Nat)
  /-- An FLR of a function on a port performs a path reset or removes function 0's admin queue pair (R125). -/
  | functionLevelReset (port : Port) (fn : Nat)
  /-- VF Enable is cleared or NumVFs lowered, resetting functions no longer enabled (R125). -/
  | vfEnableChange (port : Port) (enable : Bool) (numVfs : Nat)
  /-- A change of a virtual function's Memory Space Enable or Bus Master Enable changes its usability (R121). -/
  | vfCommandChange (port : Port) (fn : Nat) (mse bme : Bool)
  /-- A function moves between D0 and D3hot (R503). -/
  | pciePowerStateChange (port : Port) (fn : Nat) (d3 : Bool)
  /-- A hot reset of a port acts as an FLR of function 0 on that port (R125). -/
  | hotReset (port : Port)
  /-- PERST_N passes its assertion filter and acts as an FLR of function 0 on the port (R125). -/
  | perstAssert (port : Port)
  /-- PERST_N passes its release filter and link training of the port may start (R495). -/
  | perstRelease (port : Port)
  /-- A host port link leaves L0 and its replies are held (R117). -/
  | pcieLinkDown (port : Port)
  /-- A host port link returns to L0 and held replies are posted in order (R117). -/
  | pcieLinkUp (port : Port) (speed lanes : Nat) (flit : Bool)
  /-- Every started command of the reset generation reaches its safe point and the reset completes (R126). -/
  | pathResetComplete (port : Port) (fn : Nat)
  /-- Every started command of a stopping tenant has completed and the STOP reply is posted (R131). -/
  | tenantStopDrained (tenant : Nat)
  /-- A job not ended 200 ms after STOP is cancelled with QUIESCED (R132). -/
  | stopJobTimeout (job : Nat)
  /-- A job not ended 200 ms after entry to Quiesce is cancelled with QUIESCED (R109). -/
  | quiesceJobTimeout (job : Nat)
  /-- A stream context not in the cache finishes loading and the waiting command proceeds (R139). -/
  | contextCacheLoad (handle : Nat)
  /-- A job in Loading obtains job pool space and a running slot and becomes Running (R175). -/
  | jobEnterRunning (job : Nat)
  /-- A job's wall-clock limit expires and the job ends with JOB_TIMEOUT (R177). -/
  | jobTimeout (job : Nat)
  /-- The Proofer issues a slice read once a slice buffer and a deque slot are reserved (R178). -/
  | sliceReadIssue (job : Nat)
  /-- A slice's data lies decoded in its buffer and its entry is pushed onto a deque, waking idle Crumbs (R179). -/
  | slicePush (buf : Nat)
  /-- A free Crumb takes an entry from its own deque and begins the slice (R182). -/
  | sliceTake (crumb : Fin 1024)
  /-- A Crumb with nothing to take steals half of a victim's entries from TOP (R184). -/
  | steal (crumb : Fin 1024)
  /-- A Crumb has run one tenant for TENANT_MS while another tenant's entry waited (R182). -/
  | tenantTurnExpiry (crumb : Fin 1024)
  /-- A Crumb's tenant-switch scrub ends and the program is loaded (R187). -/
  | scrubDone (crumb : Fin 1024)
  /-- The Proofer places two partials on a Crumb and runs ENTRY_REDUCE (R195). -/
  | reductionStep (job : Nat) (crumb : Fin 1024)
  /-- A job enters Finishing, commits its output object, writes its summary and posts its reply (R197). -/
  | jobFinish (job : Nat)
  /-- A slice's instruction count reaches INSN_BUDGET and the slice stops at the next interruptible point (R189). -/
  | budgetExhausted (crumb : Fin 1024)
  /-- A Crumb's watchdog fires, the Crumb is held and its entries are pushed elsewhere (R192). -/
  | crumbWatchdog (crumb : Fin 1024)
  /-- A reset Crumb's self-test ends and it returns online or is retired (R192). -/
  | crumbSelfTestEnd (crumb : Fin 1024) (pass : Bool)
  /-- A write of CRB_CTRL.RETIRE moves the Crumb's entries and retires it (R192). -/
  | crumbRetire (port : Port) (crumb : Fin 1024)
  /-- A write of CRB_CTRL.RESTORE runs a retired Crumb's self-test (R192). -/
  | crumbRestore (port : Port) (crumb : Fin 1024)
  /-- ILL raises INVALID (R212). -/
  | ill (k : CoreSel)
  /-- MOV copies gB to gA (R212). -/
  | mov (k : CoreSel) (a b : Fin 16)
  /-- S16 ADD adds gB to gA (R212). -/
  | add (k : CoreSel) (a b : Fin 16)
  /-- S16 SUB subtracts gB from gA (R212). -/
  | sub (k : CoreSel) (a b : Fin 16)
  /-- S16 AND ands gB into gA (R212). -/
  | and16 (k : CoreSel) (a b : Fin 16)
  /-- S16 OR ors gB into gA (R212). -/
  | or16 (k : CoreSel) (a b : Fin 16)
  /-- S16 XOR xors gB into gA (R212). -/
  | xor16 (k : CoreSel) (a b : Fin 16)
  /-- CMP sets flags from gA minus gB (R212). -/
  | cmp (k : CoreSel) (a b : Fin 16)
  /-- TST sets flags from gA and gB (R212). -/
  | tst (k : CoreSel) (a b : Fin 16)
  /-- ADDQ adds a small constant to gA (R212). -/
  | addq (k : CoreSel) (a b : Fin 16)
  /-- SUBQ subtracts a small constant from gA (R212). -/
  | subq (k : CoreSel) (a b : Fin 16)
  /-- MOVQ loads a small constant into gA (R212). -/
  | movq (k : CoreSel) (a b : Fin 16)
  /-- NEG negates gB into gA (R212). -/
  | neg (k : CoreSel) (a b : Fin 16)
  /-- NOT inverts gB into gA (R212). -/
  | not16 (k : CoreSel) (a b : Fin 16)
  /-- PUSH stores gA below the stack pointer (R219). -/
  | push (k : CoreSel) (a : Fin 16)
  /-- POP loads gA from the stack pointer (R219). -/
  | pop (k : CoreSel) (a : Fin 16)
  /-- JR jumps to gA, ending the slice at the exit address (R206). -/
  | jr (k : CoreSel) (a : Fin 16)
  /-- RET restores a call frame and returns, ending the slice at the exit address (R221). -/
  | ret (k : CoreSel)
  /-- REP repeats the next instruction gC times as one uninterruptible unit (R224). -/
  | rep (k : CoreSel) (a : Fin 16) (body : RepBody)
  /-- REPI repeats the next instruction gC times, interruptible after each repetition (R224). -/
  | repi (k : CoreSel) (a : Fin 16) (body : RepBody)
  /-- MTB sets a bank register from gB, checked against the grant (R212). -/
  | mtb (k : CoreSel) (a b : Fin 16)
  /-- MFB reads a bank register into gA (R212). -/
  | mfb (k : CoreSel) (a b : Fin 16)
  /-- The NOP instruction has no effect (R212). -/
  | nopInstruction (k : CoreSel)
  /-- FENCE waits until earlier accesses are visible to all Crumbs (R231). -/
  | fence (k : CoreSel)
  /-- BRK raises BREAK (R212). -/
  | brk (k : CoreSel)
  /-- CLZ counts leading zero bits (R212). -/
  | clz (k : CoreSel) (a b : Fin 16)
  /-- POPC counts one bits (R212). -/
  | popc (k : CoreSel) (a b : Fin 16)
  /-- SVR takes the oldest Sieve result (R226). -/
  | svr (k : CoreSel) (a : Fin 16)
  /-- RFT returns from a trap, restoring PSW and PC (R244). -/
  | rft (k : CoreSel)
  /-- IDLE waits until an interrupt is pending (R245). -/
  | idle (k : CoreSel)
  /-- ALU ADD adds two registers (R214). -/
  | aluAdd (k : CoreSel) (d a b : Fin 16)
  /-- ALU ADC adds two registers and carry (R214). -/
  | aluAdc (k : CoreSel) (d a b : Fin 16)
  /-- ALU SUB subtracts two registers (R214). -/
  | aluSub (k : CoreSel) (d a b : Fin 16)
  /-- ALU SBC subtracts with borrow (R214). -/
  | aluSbc (k : CoreSel) (d a b : Fin 16)
  /-- ALU AND ands two registers (R214). -/
  | aluAnd (k : CoreSel) (d a b : Fin 16)
  /-- ALU OR ors two registers (R214). -/
  | aluOr (k : CoreSel) (d a b : Fin 16)
  /-- ALU XOR xors two registers (R214). -/
  | aluXor (k : CoreSel) (d a b : Fin 16)
  /-- ALU ANDN ands with the inverse of gB (R214). -/
  | aluAndn (k : CoreSel) (d a b : Fin 16)
  /-- ALU SHL shifts left (R214). -/
  | aluShl (k : CoreSel) (d a b : Fin 16)
  /-- ALU SHR shifts right logically (R214). -/
  | aluShr (k : CoreSel) (d a b : Fin 16)
  /-- ALU SAR shifts right arithmetically (R214). -/
  | aluSar (k : CoreSel) (d a b : Fin 16)
  /-- ALU ROR rotates right (R214). -/
  | aluRor (k : CoreSel) (d a b : Fin 16)
  /-- ALU MUL gives the low product (R214). -/
  | aluMul (k : CoreSel) (d a b : Fin 16)
  /-- ALU MULHU gives the high unsigned product (R214). -/
  | aluMulhu (k : CoreSel) (d a b : Fin 16)
  /-- ALU MULHS gives the high signed product (R214). -/
  | aluMulhs (k : CoreSel) (d a b : Fin 16)
  /-- ALU DIVU divides unsigned (R214). -/
  | aluDivu (k : CoreSel) (d a b : Fin 16)
  /-- ALU REMU gives the unsigned remainder (R214). -/
  | aluRemu (k : CoreSel) (d a b : Fin 16)
  /-- ALU DIVS divides signed (R214). -/
  | aluDivs (k : CoreSel) (d a b : Fin 16)
  /-- ALU REMS gives the signed remainder (R214). -/
  | aluRems (k : CoreSel) (d a b : Fin 16)
  /-- ALU MINU gives the unsigned minimum (R214). -/
  | aluMinu (k : CoreSel) (d a b : Fin 16)
  /-- ALU MAXU gives the unsigned maximum (R214). -/
  | aluMaxu (k : CoreSel) (d a b : Fin 16)
  /-- ALU MINS gives the signed minimum (R214). -/
  | aluMins (k : CoreSel) (d a b : Fin 16)
  /-- ALU MAXS gives the signed maximum (R214). -/
  | aluMaxs (k : CoreSel) (d a b : Fin 16)
  /-- ALU BSWAP reverses the bytes of gA (R214). -/
  | aluBswap (k : CoreSel) (d a : Fin 16)
  /-- ADDI adds a signed 16-bit immediate (R213). -/
  | addi (k : CoreSel) (d a : Fin 16) (imm : BitVec 16)
  /-- ANDI ands a zero-extended immediate (R213). -/
  | andi (k : CoreSel) (d a : Fin 16) (imm : BitVec 16)
  /-- ORI ors a zero-extended immediate (R213). -/
  | ori (k : CoreSel) (d a : Fin 16) (imm : BitVec 16)
  /-- XORI xors a zero-extended immediate (R213). -/
  | xori (k : CoreSel) (d a : Fin 16) (imm : BitVec 16)
  /-- CMPI compares with a signed immediate (R213). -/
  | cmpi (k : CoreSel) (a : Fin 16) (imm : BitVec 16)
  /-- SHI shifts or rotates by an immediate amount (R213). -/
  | shi (k : CoreSel) (d a : Fin 16) (sh : Fin 32) (kind : Fin 4)
  /-- BFX extracts a bit field (R213). -/
  | bfx (k : CoreSel) (d a : Fin 16) (p l1 : Fin 32) (sgn : Bool)
  /-- BFI inserts a bit field (R213). -/
  | bfi (k : CoreSel) (d a : Fin 16) (p l1 : Fin 32)
  /-- PERM permutes bytes by selectors (R213). -/
  | perm (k : CoreSel) (d a : Fin 16) (sel : BitVec 16)
  /-- SETcc writes 1 or 0 by a condition (R213). -/
  | setcc (k : CoreSel) (d cond : Fin 16)
  /-- CSEL selects one of two registers by a condition (R213). -/
  | csel (k : CoreSel) (d a b cond : Fin 16)
  /-- FLAT forms a flat address from a bank register and offset (R213). -/
  | flat (k : CoreSel) (d a : Fin 16) (bk : Fin 4)
  /-- MTBI sets a bank register from an immediate, checked against the grant (R213). -/
  | mtbi (k : CoreSel) (bk : Fin 4) (imm : BitVec 16)
  /-- B.cc branches relative when its condition holds (R213). -/
  | bcc (k : CoreSel) (cond : Fin 16) (off : BitVec 20)
  /-- CALLR saves a frame and branches to gA (R220). -/
  | callr (k : CoreSel) (a : Fin 16) (mask : BitVec 16)
  /-- CALL saves a frame and branches relative (R220). -/
  | call (k : CoreSel) (mask off : BitVec 16)
  /-- LD loads from a banked address (R215). -/
  | ld (k : CoreSel) (d a : Fin 16) (bk size : Fin 4) (sgn : Bool) (disp : BitVec 11)
  /-- ST stores to a banked address (R215). -/
  | st (k : CoreSel) (d a : Fin 16) (bk size : Fin 4) (disp : BitVec 11)
  /-- LDF loads from a flat address with its addressing mode (R215). -/
  | ldf (k : CoreSel) (d a x : Fin 16) (sc mode size : Fin 4) (sgn : Bool)
  /-- STF stores to a flat address with its addressing mode (R215). -/
  | stf (k : CoreSel) (d a x : Fin 16) (sc mode size : Fin 4)
  /-- LDX loads from a banked address with a 16-bit offset (R215). -/
  | ldx (k : CoreSel) (d a : Fin 16) (bk size : Fin 4) (sgn nb : Bool) (off : BitVec 16)
  /-- STX stores to a banked address with a 16-bit offset (R215). -/
  | stx (k : CoreSel) (d a : Fin 16) (bk size : Fin 4) (nb : Bool) (off : BitVec 16)
  /-- VLD loads 16 bytes into a lane register (R215). -/
  | vld (k : CoreSel) (d a : Fin 16) (bk : Fin 4) (f : Bool) (disp : BitVec 12)
  /-- VST stores 16 bytes of a lane register (R215). -/
  | vst (k : CoreSel) (d a : Fin 16) (bk : Fin 4) (f : Bool) (disp : BitVec 12)
  /-- CPY copies bytes between flat addresses and advances both pointers (R215). -/
  | cpy (k : CoreSel) (d a : Fin 16) (size : Fin 4)
  /-- AMO AADD atomically adds to a word (R232). -/
  | aadd (k : CoreSel) (d a src : Fin 16) (bk : Fin 4)
  /-- AMO ASWP atomically swaps a word (R232). -/
  | aswp (k : CoreSel) (d a src : Fin 16) (bk : Fin 4)
  /-- AMO ACAS atomically compares and swaps a word (R232). -/
  | acas (k : CoreSel) (d a src : Fin 16) (bk : Fin 4)
  /-- AMO AAND atomically ands into a word (R232). -/
  | aand (k : CoreSel) (d a src : Fin 16) (bk : Fin 4)
  /-- AMO AOR atomically ors into a word (R232). -/
  | aor (k : CoreSel) (d a src : Fin 16) (bk : Fin 4)
  /-- AMO AMAXU atomically takes the unsigned maximum (R232). -/
  | amaxu (k : CoreSel) (d a src : Fin 16) (bk : Fin 4)
  /-- VADD adds lanes (R216). -/
  | vadd (k : CoreSel) (d a b : Fin 16) (lz : Fin 4)
  /-- VSUB subtracts lanes (R216). -/
  | vsub (k : CoreSel) (d a b : Fin 16) (lz : Fin 4)
  /-- VAND ands 128 bits (R216). -/
  | vand (k : CoreSel) (d a b : Fin 16) (lz : Fin 4)
  /-- VOR ors 128 bits (R216). -/
  | vor (k : CoreSel) (d a b : Fin 16) (lz : Fin 4)
  /-- VXOR xors 128 bits (R216). -/
  | vxor (k : CoreSel) (d a b : Fin 16) (lz : Fin 4)
  /-- VANDN ands with the inverse (R216). -/
  | vandn (k : CoreSel) (d a b : Fin 16) (lz : Fin 4)
  /-- VCMPEQ compares lanes for equality (R216). -/
  | vcmpeq (k : CoreSel) (d a b : Fin 16) (lz : Fin 4)
  /-- VCMPGTU compares lanes unsigned (R216). -/
  | vcmpgtu (k : CoreSel) (d a b : Fin 16) (lz : Fin 4)
  /-- VCMPGTS compares lanes signed (R216). -/
  | vcmpgts (k : CoreSel) (d a b : Fin 16) (lz : Fin 4)
  /-- VMINU takes lane minimums (R216). -/
  | vminu (k : CoreSel) (d a b : Fin 16) (lz : Fin 4)
  /-- VMAXU takes lane maximums (R216). -/
  | vmaxu (k : CoreSel) (d a b : Fin 16) (lz : Fin 4)
  /-- VSHL shifts lanes left (R216). -/
  | vshl (k : CoreSel) (d a b : Fin 16) (lz : Fin 4)
  /-- VSHR shifts lanes right logically (R216). -/
  | vshr (k : CoreSel) (d a b : Fin 16) (lz : Fin 4)
  /-- VSAR shifts lanes right arithmetically (R216). -/
  | vsar (k : CoreSel) (d a b : Fin 16) (lz : Fin 4)
  /-- VPERM permutes bytes of two registers (R216). -/
  | vperm (k : CoreSel) (d a b : Fin 16) (lz : Fin 4)
  /-- VMOV copies a lane register (R216). -/
  | vmov (k : CoreSel) (d a : Fin 16) (lz : Fin 4)
  /-- VSPLAT fills every lane from gA (R217). -/
  | vsplat (k : CoreSel) (d a : Fin 16) (li : Fin 4)
  /-- VEXT extracts a 32-bit lane (R217). -/
  | vext (k : CoreSel) (d a : Fin 16) (li : Fin 4)
  /-- VINS inserts a 32-bit lane (R217). -/
  | vins (k : CoreSel) (d a : Fin 16) (li : Fin 4)
  /-- VMASK gathers the top bit of each byte (R217). -/
  | vmask (k : CoreSel) (d a : Fin 16) (li : Fin 4)
  /-- MOVI loads a 32-bit immediate (R218). -/
  | movi (k : CoreSel) (d : Fin 16) (imm : Word)
  /-- ADDIW adds a 32-bit immediate (R218). -/
  | addiw (k : CoreSel) (d a : Fin 16) (imm : Word)
  /-- ANDIW ands a 32-bit immediate (R218). -/
  | andiw (k : CoreSel) (d a : Fin 16) (imm : Word)
  /-- CMPIW compares with a 32-bit immediate (R218). -/
  | cmpiw (k : CoreSel) (a : Fin 16) (imm : Word)
  /-- SVS submits a key to the Sieve (R226). -/
  | svs (k : CoreSel) (a : Fin 16) (bk : Fin 4) (len1 : Fin 64)
  /-- A Sieve result for a submitted key arrives in the Crumb's result queue (R226). -/
  | svsResult (k : CoreSel)
  /-- DGO opens a digest context (R227). -/
  | dgo (k : CoreSel) (d : Fin 16) (alg : Fin 8)
  /-- DGF feeds bytes into an open digest (R227). -/
  | dgf (k : CoreSel) (d a b : Fin 16) (bk : Fin 4)
  /-- DGE finalises a digest and writes it (R227). -/
  | dge (k : CoreSel) (d a : Fin 16) (bk : Fin 4)
  /-- MFC reads a control register (R242). -/
  | mfc (k : CoreSel) (d : Fin 16) (cr : BitVec 16)
  /-- MTC writes a control register (R242). -/
  | mtc (k : CoreSel) (a : Fin 16) (cr : BitVec 16)
  /-- A control core takes an enabled interrupt at an interruptible point (R245). -/
  | controlCoreInterrupt (core : Fin 4) (irq : Fin 256)
  /-- User code on a control core reaches IBUDGET and the core traps (R243). -/
  | ibudgetTrap (core : Fin 4)
  /-- A submitter places a Roller job descriptor in a Loaf's job ring (R262). -/
  | rollerJobSubmit (loaf : Fin 64) (desc : List Byte)
  /-- A compressor or decompressor finishes one block, writing its bucket or output and, at the last block, the done record (R256). -/
  | rollerBlockCode (pair : Fin 64) (comp : Bool)
  /-- An idle compressor steals unstarted blocks of a SLOT compress job (R263). -/
  | rollerSteal (pair : Fin 64)
  /-- A job in OUT_WAIT passes OUT_WAIT_US and fails with INVALID_BUFFER (R261). -/
  | outWaitTimeout (slot : Nat)
  /-- A write of RLR_RESUME resumes a job in OUT_WAIT (R261). -/
  | rlrResume (port : Port) (slot : Nat)
  /-- A Roller half's watchdog fires and its work moves to other halves (R269). -/
  | rollerWatchdog (pair : Fin 64) (comp : Bool)
  /-- A reset Roller half's self-test ends and it returns online or is retired (R269). -/
  | rollerSelfTestEnd (pair : Fin 64) (comp pass : Bool)
  /-- A write of RLR_CTRL.RETIRE_C retires a compressor (R269). -/
  | retireC (port : Port) (pair : Fin 64)
  /-- A write of RLR_CTRL.RESTORE_C self-tests a retired compressor (R269). -/
  | restoreC (port : Port) (pair : Fin 64)
  /-- A write of RLR_CTRL.RETIRE_D retires a decompressor (R269). -/
  | retireD (port : Port) (pair : Fin 64)
  /-- A write of RLR_CTRL.RESTORE_D self-tests a retired decompressor (R269). -/
  | restoreD (port : Port) (pair : Fin 64)
  /-- A digest context becomes free or idle and is spilled or granted to a waiting requester (R276). -/
  | digestContextGrant (eng : Fin 4)
  /-- A context consumes its quantum while another requester waits and becomes idle (R275). -/
  | digestQuantumExpiry (eng : Fin 4) (msg : Nat)
  /-- A requester's digest wait limit passes and it fails with DIGEST_BUSY (R277). -/
  | digestWaitTimeout (msg : Nat)
  /-- A context consumes 256 KiB and writes a checkpoint to its stream context (R279). -/
  | digestCheckpoint (msg : Nat)
  /-- An alarm clears a Digest engine and moves its resident messages (R285). -/
  | digestAlarm (eng cause : Fin 4)
  /-- A reset Digest engine's self-test ends and it resumes or is retired (R285). -/
  | digestSelfTestEnd (eng : Fin 4) (pass : Bool)
  /-- A write of DG_CTRL.RETIRE moves an engine's messages and retires it (R285). -/
  | digestRetire (port : Port) (eng : Fin 4)
  /-- A write of DG_CTRL.RESTORE self-tests a retired engine (R285). -/
  | digestRestore (port : Port) (eng : Fin 4)
  /-- The periodic read of a Sieve slot finds and mends or holds on an entry error (R329). -/
  | sieveEntryScrub (bank : Fin 4) (slot : Nat) (cls : EntryClass)
  /-- The firmware rewrites an uncorrectable Sieve entry and the bank hold ends (R329). -/
  | sieveEntryRewritten (bank : Fin 4) (slot : Nat)
  /-- The firmware moves a tenant's private region one entry at a time through the shadow entry (R321). -/
  | sieveRegionMove (tenant base : Nat)
  /-- CARD_PRESENT_N passes its 50 ms filter and identification of the card starts (R341). -/
  | cardInserted (slot : Fin 24)
  /-- A card's identification and training end and it becomes Online or Rebuilding, or is rejected (R341). -/
  | cardIdentified (slot : Fin 24) (report : CardReport)
  /-- CARD_PRESENT_N passes its removal filter and the card's units are lost (R342). -/
  | cardRemoved (slot : Fin 24)
  /-- A write of FCH_CARD_CTRL.OFFLINE takes a card out of service (R342). -/
  | cardOffline (port : Port) (slot : Fin 24)
  /-- A write of FCH_CARD_CTRL.RESTORE starts identification of a present card (R342). -/
  | cardRestore (port : Port) (slot : Fin 24)
  /-- A Rebuilding slot has received every lost unit and becomes Online (R364). -/
  | cardRebuildComplete (slot : Fin 24)
  /-- An I2C transaction is not acknowledged or does not end within 2 ms and is tried again (R336). -/
  | i2cTimeout (slot : Fin 24)
  /-- A flash read ends and its sector is decoded, retried or rebuilt (R359). -/
  | flashReadDone (rid : Nat) (ok : Bool)
  /-- A flash program ends with success or failure; a failure rewrites the row's groups elsewhere (R357). -/
  | flashProgramDone (row : Nat) (slot : Fin 24) (ok : Bool)
  /-- A flash erase ends; a failure retires the block (R367). -/
  | flashEraseDone (set : Nat) (slot : Fin 24) (ok : Bool)
  /-- A flash operation passes its timeout, the die is reset and the operation is treated as failed (R334). -/
  | flashOpTimeout (op : FlashOpRef)
  /-- A channel operation has waited 4 ms and is served as QOS 7 (R335). -/
  | flashOpAging (op : FlashOpRef)
  /-- A program runs past its die's mean plus 200 µs and the row's groups are written again (R464). -/
  | programEarlyReissue (row : Nat) (slot : Fin 24)
  /-- FILL_US passes since a row's first sector and the row is filled and programmed (R356). -/
  | rowFillTimeout (row : Nat)
  /-- All program operations of a row succeed, the row is durable and dependent completions proceed (R355). -/
  | rowDurable (row : Nat)
  /-- A Batch holds fewer than 8 free stripe sets and garbage collection of a victim set starts (R365). -/
  | gcStart (batch : Fin 4)
  /-- A patrol read of a programmed block runs within its period (R360). -/
  | patrolRead (set : Nat) (slot : Fin 24) (step : Nat)
  /-- The 256 ms calibration period passes and ZQ calibration runs (R332). -/
  | zqCalibration (slot : Fin 24)
  /-- A controller serves a memory request chosen by level and turn (R389). -/
  | memoryAccess (ctrl : Fin 256) (arrivals : List MemReq)
  /-- A memory request waits AGE_US and is raised to level 7 (R389). -/
  | requestAgeRaise (ctrl : Fin 256) (req : Nat)
  /-- A refresh falls due and is issued or postponed (R391). -/
  | refreshDue (ctrl : Fin 256)
  /-- A merge-buffer entry reaches its age limit and retires by read-modify-write (R401). -/
  | mergeEntryRetire (ctrl : Fin 256) (block : Nat)
  /-- A scrub read of a block corrects, rewrites or poisons it (R399). -/
  | memoryScrub (block : Nat)
  /-- The 10 ms period passes and an on-die SRAM is read in full (R409). -/
  | sramScrub (owner : SramOwner) (unit : Nat) (ok : Bool)
  /-- A memory read returns no data within 1 µs, failing its pseudo-channel (R404). -/
  | memoryReadTimeout (ctrl : Fin 256)
  /-- A command/address parity error is retried and fails the pseudo-channel if it persists (R404). -/
  | caParityError (ctrl : Fin 256) (persists : Bool)
  /-- A write of MEM_STACK_CTRL.APPLY loads shadow delays into the stack's controllers (R386). -/
  | delayApply (port : Port) (stack : Fin 8) (band : Nat)
  /-- A write of STATE 1 to a free MEM_REMAP entry starts the copy of a page (R407). -/
  | pageRetireStart (port : Port) (stack : Fin 8) (idx old new : Nat)
  /-- A page copy ends and the remap entry becomes active (R407). -/
  | pageCopyDone (stack : Fin 8) (idx : Nat)
  /-- A received HEARTBEAT updates the peer's state, votes and session (R422). -/
  | heartbeat (f : RxFrame)
  /-- A received ACK frame releases acknowledged frames and triggers retransmission by SACK (R420). -/
  | ack (f : RxFrame)
  /-- A received SHARD_PUT chunk is stored for its shard (R429). -/
  | shardPut (f : RxFrame)
  /-- A received SHARD_DURABLE marks a shard durable toward the commit quorum (R429). -/
  | shardDurable (f : RxFrame)
  /-- A received SHARD_GET is answered with SHARD_DATA chunks (R431). -/
  | shardGet (f : RxFrame)
  /-- A received SHARD_DATA delivers shard chunks for a read or repair (R431). -/
  | shardData (f : RxFrame)
  /-- A received SHARD_RELEASE releases every shard of a version and is answered with RELEASE_DONE (R430). -/
  | shardRelease (f : RxFrame)
  /-- A received RELEASE_DONE ends the resending of a release (R430). -/
  | releaseDone (f : RxFrame)
  /-- A received REPAIR_REQ makes this device rebuild a missing shard (R433). -/
  | repairReq (f : RxFrame)
  /-- A received REPAIR_DONE is recorded as an override (R434). -/
  | repairDone (f : RxFrame)
  /-- A received VREC_PULL is answered with version records of an origin (R435). -/
  | vrecPull (f : RxFrame)
  /-- A received VREC_LIST delivers version records for adoption or override learning (R435). -/
  | vrecList (f : RxFrame)
  /-- The heartbeat period passes and a HEARTBEAT is sent to every member (R422). -/
  | heartbeatSend
  /-- 20 µs pass with an accepted frame unacknowledged and an ACK is sent (R420). -/
  | ackTimer (member : Fin 32)
  /-- A frame's retransmission timeout passes and it is sent again, becoming late after RETRIES (R420). -/
  | retransmitTimeout (member : Fin 32) (seq : Nat)
  /-- No frame from a member passes for SUSPECT_MS and it becomes Suspect (R421). -/
  | peerSuspect (member : Fin 32)
  /-- No valid frame from a member arrives for LOSS_MS and this device votes it lost (R422). -/
  | lossVote (member : Fin 32)
  /-- ACK_MS passes for a Group commit and it commits at quorum or aborts with GROUP_QUORUM (R429). -/
  | quorumTimeout (id : Nat)
  /-- READ_MS passes without a shard and the origin fetches further shards (R431). -/
  | shardReadTimeout (id : Nat)
  /-- ACK_MS passes with fewer than K shards of a stripe and the read fails with PEER_UNREACHABLE (R431). -/
  | readGatherTimeout (id : Nat)
  /-- KEY_OVERLAP_S passes after a D1 load and the previous key is destroyed (R417). -/
  | keyOverlapExpiry
  /-- An Ethernet link goes down and its queued frames move to other ports (R412). -/
  | ethLinkDown (eth : Fin 4)
  /-- An Ethernet link comes up and carries traffic again (R412). -/
  | ethLinkUp (eth : Fin 4)
  /-- The root PLL loses lock and the device is held in reset (R22). -/
  | rootLol
  /-- The root PLL regains lock and the device starts again in Starter (R22). -/
  | rootLockRegained
  /-- A SerDes PLL loses lock and its port's link goes down (R22). -/
  | serdesLol (pll : Fin 6)
  /-- Auxiliary rails come into range and the device enters Standby (R438). -/
  | auxPowerOn
  /-- Auxiliary power is lost and the device is Off (R438). -/
  | auxPowerLoss
  /-- RESET_N is asserted and the device runs Power-Fail to the park or stays in Standby (R494). -/
  | resetNAssert
  /-- RESET_N is released with main rails in range and Starter runs its checks and loads (R450). -/
  | resetNRelease (report : StarterReport)
  /-- The firmware starts at ENTRY, applies the base configuration and Discovery runs (R450). -/
  | discoveryStart (ms : Nat)
  /-- Discovery ends, the SIEVE block is loaded, RWL fields lock and Rebuild starts (R450). -/
  | discoveryComplete (ms : Nat)
  /-- Rebuild ends and the first applicable mode is shown with the GROUP block applied (R372). -/
  | rebuildComplete (ms : Nat)
  /-- PWR_FAIL_N passes its filter and the device enters Power-Fail (R459). -/
  | pwrFailAssert
  /-- The park record finishes programming in the boot flash (R459). -/
  | parkRecordProgrammed
  /-- All channels are idle and the device parks in Standby or Off (R459). -/
  | park (aux : Bool)
  /-- PWR_FAIL_N has been high 10 ms after the park and the device starts again (R460). -/
  | powerRestart
  /-- A main rail stays below its brown-out level for 1 µs and Power-Fail begins (R493). -/
  | brownOut (rail : Fin 12)
  /-- A write of DEV_CTRL.QUIESCE_ENTER enters Quiesce (R454). -/
  | quiesceEnter (port : Port)
  /-- A write of DEV_CTRL.QUIESCE_EXIT ends a Quiesce entered by request (R454). -/
  | quiesceExit (port : Port)
  /-- Every started command has completed and DRAINED is set, completing any waiting request (R454). -/
  | quiesceDrained
  /-- LIMIT_S passes since entry to Quiesce and the Quiesce ends (R454). -/
  | quiesceLimit
  /-- The housekeeping round reads one sensor channel and acts on temperature, rail and presence readings (R473). -/
  | housekeepingVisit (chan : Fin 128) (reading : Option Int)
  /-- At the end of a round TJ is evaluated and the throttle step changes (R476). -/
  | throttleEvaluation
  /-- A control core's watchdog fires and the core is reset and its work taken over (R469). -/
  | ccoreWatchdog (core : Fin 4)
  /-- A reset control core's self-test ends and it returns to service or fails (R469). -/
  | ccoreSelfTestEnd (core : Fin 4) (pass : Bool)
  /-- An erasure-code unit's self-check mismatches and its work moves to the next Batch's unit (R463). -/
  | ecuFault (batch : Fin 4)
  /-- A boot flash operation passes its timeout and the write is abandoned (R472). -/
  | spiTimeout (off : Nat)
  /-- A one-second suppression window ends and EVENTS_SUPPRESSED is recorded when records were dropped (R484). -/
  | suppressionWindowEnd (code source : Nat)
  /-- Event records are written to the circulating area on flash (R482). -/
  | eventRecordFlush
  /-- A write of EVR_FETCH starts loading 128 records into EVR_BUF (R485). -/
  | evrFetch (port : Port) (value : Reg)
  /-- A fetch fills EVR_BUF and sets DONE (R485). -/
  | evrFetchDone
  /-- The MCTP Set Endpoint ID message is answered (R501). -/
  | setEndpointId (op : Fin 4) (eid : Byte)
  /-- The MCTP Get Endpoint ID message is answered (R501). -/
  | getEndpointId
  /-- The MCTP Get MCTP Version Support message is answered (R501). -/
  | getMctpVersionSupport (msgType : Byte)
  /-- The MCTP Get Message Type Support message is answered (R501). -/
  | getMessageTypeSupport
  /-- The PLDM GetTID message is answered (R501). -/
  | getTid
  /-- The PLDM GetPLDMVersion message is answered (R501). -/
  | getPldmVersion (pldmType : Byte)
  /-- The PLDM GetPLDMTypes message is answered (R501). -/
  | getPldmTypes
  /-- The PLDM GetPLDMCommands message is answered (R501). -/
  | getPldmCommands (pldmType : Byte)
  /-- The PLDM GetSensorReading message returns a numeric sensor (R502). -/
  | getSensorReading (id : Nat)
  /-- The PLDM GetStateSensorReadings message returns a state sensor (R502). -/
  | getStateSensorReadings (id : Nat)
  /-- The PLDM GetPDRRepositoryInfo message is answered (R502). -/
  | getPdrRepositoryInfo
  /-- The PLDM GetPDR message returns a PDR of the repository (R502). -/
  | getPdr (handle : Nat)
  /-- A register read that latches the upper half of a 64-bit RO register, drops a read latch or a held write half, or has an unsupported width and records REG_ACCESS (R13). -/
  | registerRead (port : Port) (fn : Nat) (bar : Bar) (off width : Nat)
  /-- A SerDes PLL regains lock, its CLK_STATUS lock bit returns to 1 and its port's link can train again (R22). -/
  | serdesLockRegained (pll : Fin 6)
  /-- A received Ethernet frame fails a MAC, IPv6, UDP, admission, header, tag or session check, or is not Firon Link, and is dropped and counted in FL_CNT or SV_CNT (R415). -/
  | frameDropped (f : RxFrame)
  /-- A PCIe configuration request that arrives before Discovery ends is answered with Request Retry Status (R450). -/
  | configurationRequest (port : Port) (req : CfgRequest)
  /-- The host sends an ATS invalidation request and the function's translation cache on that port drops the named translations (R124). -/
  | atsInvalidateRequest (port : Port) (fn addr len : Nat)
  /-- A malformed TLP or a receiver overflow on a host port is reported as a fatal AER error and counted in HP_CNT (R504). -/
  | malformedTlp (port : Port) (fn : Nat) (overflow : Bool)
  /-- A FLIT CRC or FEC retry or a replay on a host port is reported as a correctable AER error and counted (R504). -/
  | flitRetry (port : Port)
  /-- A card's XTS engine or the LDPC codec of one of its channels fails its self-check, and the card is declared Failed with cause 2 (R364). -/
  | xtsSelfCheckFailure (slot : Fin 24)
  /-- An erase has run for T_BERS_US ÷ 2 with a read queued behind it, and the read starts its rebuild from parity at once (R465). -/
  | erasePastHalfTime (set : Nat) (slot : Fin 24)
  /-- A message block leaves a Digest engine's pipeline, letting a context become idle, be spilled or finish its message (R275). -/
  | digestBlockDone (eng : Fin 4) (msg : Nat)
  /-- A program or erase command on the boot flash ends, letting a configuration copy, key record, boot selector or permanent event write continue or complete its reply (R456). -/
  | spiOperationDone
  /-- The I3C controller assigns the sideband endpoint its dynamic address (R501). -/
  | dynamicAddressAssignment (addr : BitVec 7)
deriving DecidableEq, Repr

end Sys2Proof
end

