-- ==== Sys2Proof/Decode.lean ====
section
/-! DEFINITION. The command a word spells by the table's bits: the table gives no row any bits, so no word spells
a command. -/
namespace Sys2Proof

/-- The command that a word of `nbits` bits spells by the opcode table: none, as no row of the table has bits. -/
def decodeTableWord (nbits w : Nat) : Option Instr :=
  let _ := nbits
  let _ := w
  none

end Sys2Proof
end

