-- ==== Sys2Proof/Machine/Bytes.lean ====
section
/-! DEFINITION. Byte strings: little-endian and big-endian fields (00 R4 to R6), slices, padding, and the
CRC-32C that the formats of the spec end in. -/
namespace Sys2Proof.Machine

/-- A number as `n` little-endian bytes (00 R4). -/
def leBytes : Nat → Nat → List Byte
  | 0, _ => []
  | n + 1, v => BitVec.ofNat 8 v :: leBytes n (v / 256)

/-- Little-endian bytes as a number (00 R4). -/
def leNat : List Byte → Nat
  | [] => 0
  | b :: r => b.toNat + 256 * leNat r

/-- A number as `n` big-endian bytes (00 R5). -/
def beBytes (n v : Nat) : List Byte := (leBytes n v).reverse

/-- Big-endian bytes as a number (00 R5). -/
def beNat (b : List Byte) : Nat := leNat b.reverse

/-- `n` zero bytes. -/
def zeros (n : Nat) : List Byte := List.replicate n 0

/-- `len` bytes of a string from an offset; what lies beyond its end reads as zero. -/
def sliceB (b : List Byte) (off len : Nat) : List Byte :=
  let x := (b.drop off).take len
  x ++ zeros (len - x.length)

/-- The little-endian field of `len` bytes at an offset. -/
def fieldLe (b : List Byte) (off len : Nat) : Nat := leNat ((b.drop off).take len)

/-- The big-endian field of `len` bytes at an offset. -/
def fieldBe (b : List Byte) (off len : Nat) : Nat := beNat (sliceB b off len)

/-- Are all bytes zero? -/
def allZero (b : List Byte) : Bool := b.all (· == 0)

/-- Are `len` bytes at an offset all zero? -/
def zeroAt (b : List Byte) (off len : Nat) : Bool := allZero ((b.drop off).take len)

/-- Pads with zeros to a length. -/
def padTo (b : List Byte) (n : Nat) : List Byte := b ++ zeros (n - b.length)

/-- Writes bytes into a string at an offset, extending it with zeros where needed. -/
def overlay (b : List Byte) (off : Nat) (d : List Byte) : List Byte :=
  padTo (b.take off) off ++ d ++ b.drop (off + d.length)

/-- Bits [hi:lo] of a number (00 R3, R6). -/
def bitsOf (v hi lo : Nat) : Nat := v / 2 ^ lo % 2 ^ (hi + 1 - lo)

/-- Bit `n` of a number, as a Bool. -/
def bitOf (v n : Nat) : Bool := v / 2 ^ n % 2 == 1

/-- A Bool as a number. -/
def b2n (b : Bool) : Nat := if b then 1 else 0

/-- Rounds up to a multiple. -/
def roundUp (v m : Nat) : Nat := (v + m - 1) / m * m

/-- One byte through the reflected CRC-32C register (polynomial 0x1EDC_6F41). -/
def crcByte (c : BitVec 32) (b : Byte) : BitVec 32 :=
  (List.range 8).foldl (fun c _ => if c.getLsbD 0 then (c >>> 1) ^^^ 0x82F63B78#32 else c >>> 1) (c ^^^ b.setWidth 32)

/-- CRC-32C of a byte string. -/
def crc32c (b : List Byte) : BitVec 32 := ~~~ (b.foldl crcByte 0xFFFFFFFF#32)

/-- The CRC-32C as four little-endian bytes. -/
def crcBytes (b : List Byte) : List Byte := leBytes 4 (crc32c b).toNat

/-- Does the four-byte field at `off` hold the CRC-32C of the bytes before it? -/
def crcOk (b : List Byte) (off : Nat) : Bool := fieldLe b off 4 == (crc32c (b.take off)).toNat

/-- Cuts a byte string into pieces of `n` bytes; the last may be shorter. -/
def chunks (n : Nat) (b : List Byte) : List (List Byte) :=
  (List.range ((b.length + n - 1) / n)).map fun i => (b.drop (i * n)).take n

end Sys2Proof.Machine
end

