-- ==== Sys2Proof/Machine/Sha.lean ====
section
/-! DEFINITION. The digest algorithms of 08 R271: SHA-256, SHA-512 and SHA-512/256 (FIPS 180-4), SHA3-256
(FIPS 202), and HMAC (FIPS 198-1). The round constants are the fractional parts of the roots that FIPS 180-4
names, computed as it defines them. -/
namespace Sys2Proof.Machine

/-- Integer root: the greatest `r` below `2^n` with `r^k ≤ v`, bit by bit from the top. -/
def iroot (k v : Nat) : Nat → Nat → Nat
  | 0, r => r
  | n + 1, r => let r' := r + 2 ^ n; iroot k v n (if r' ^ k ≤ v then r' else r)

/-- The first 80 primes. -/
def primes80 : List Nat :=
  [2, 3, 5, 7, 11, 13, 17, 19, 23, 29, 31, 37, 41, 43, 47, 53, 59, 61, 67, 71, 73, 79, 83, 89, 97, 101, 103, 107,
   109, 113, 127, 131, 137, 139, 149, 151, 157, 163, 167, 173, 179, 181, 191, 193, 197, 199, 211, 223, 227, 229]
  ++ [233, 239, 241, 251, 257, 263, 269, 271, 277, 281, 283, 293, 307, 311, 313, 317, 331, 337, 347, 349, 353,
   359, 367, 373, 379, 383, 389, 397, 401, 409]

/-- The first `w` bits of the fractional part of the cube root of a prime. -/
def cubeFrac (w p : Nat) : Nat := iroot 3 (p * 2 ^ (3 * w)) (w + 4) 0 % 2 ^ w

/-- The first `w` bits of the fractional part of the square root of a prime. -/
def sqrtFrac (w p : Nat) : Nat := iroot 2 (p * 2 ^ (2 * w)) (w + 5) 0 % 2 ^ w

/-- The shape of a SHA-2 member: word width, rounds, and the rotation amounts of its four functions. -/
structure Sha2 (w : Nat) where
  rounds : Nat
  big0 : Nat × Nat × Nat
  big1 : Nat × Nat × Nat
  small0 : Nat × Nat × Nat
  small1 : Nat × Nat × Nat

/-- SHA-256's functions. -/
def sha256Shape : Sha2 32 := ⟨64, (2, 13, 22), (6, 11, 25), (7, 18, 3), (17, 19, 10)⟩

/-- SHA-512's functions. -/
def sha512Shape : Sha2 64 := ⟨80, (28, 34, 39), (14, 18, 41), (1, 8, 7), (19, 61, 6)⟩

variable {w : Nat}

/-- Three rotations, xored. -/
def rot3 (r : Nat × Nat × Nat) (x : BitVec w) : BitVec w :=
  x.rotateRight r.1 ^^^ x.rotateRight r.2.1 ^^^ x.rotateRight r.2.2

/-- Two rotations and a shift, xored. -/
def rot2s (r : Nat × Nat × Nat) (x : BitVec w) : BitVec w :=
  x.rotateRight r.1 ^^^ x.rotateRight r.2.1 ^^^ (x >>> r.2.2)

/-- The message schedule, newest word first, `n` more words to make. -/
def shaSchedule (p : Sha2 w) : Nat → List (BitVec w) → List (BitVec w)
  | 0, ws => ws
  | n + 1, ws => shaSchedule p n
      ((rot2s p.small1 (ws.getD 1 0) + ws.getD 6 0 + rot2s p.small0 (ws.getD 14 0) + ws.getD 15 0) :: ws)

/-- One round on the eight working variables. -/
def shaRound (p : Sha2 w) (v : List (BitVec w)) (kw : BitVec w × BitVec w) : List (BitVec w) :=
  match v with
  | [a, b, c, d, e, f, g, h] =>
    let t1 := h + rot3 p.big1 e + ((e &&& f) ^^^ (~~~e &&& g)) + kw.1 + kw.2
    let t2 := rot3 p.big0 a + ((a &&& b) ^^^ (a &&& c) ^^^ (b &&& c))
    [t1 + t2, a, b, c, d + t1, e, f, g]
  | _ => v

/-- One block of 16 words into the hash value. -/
def shaBlock (p : Sha2 w) (hv : List (BitVec w)) (blk : List (BitVec w)) : List (BitVec w) :=
  let ws := (shaSchedule p (p.rounds - 16) blk.reverse).reverse
  let ks := (primes80.take p.rounds).map fun q => BitVec.ofNat w (cubeFrac w q)
  let v := (ks.zip ws).foldl (shaRound p) hv
  (hv.zip v).map fun x => x.1 + x.2

/-- The padded message: a one bit, zeros, and the bit length in two words. -/
def shaPad (blkLen lenLen : Nat) (m : List Byte) : List Byte :=
  let z := (blkLen - (m.length + 1 + lenLen) % blkLen) % blkLen
  m ++ [0x80#8] ++ zeros z ++ beBytes lenLen (8 * m.length)

/-- A SHA-2 hash from an initial hash value. -/
def sha2 (p : Sha2 w) (h0 : List (BitVec w)) (m : List Byte) : List Byte :=
  let blkLen := 2 * w
  let hv := (chunks blkLen (shaPad blkLen (w / 4) m)).foldl
    (fun hv blk => shaBlock p hv ((chunks (w / 8) blk).map fun b => BitVec.ofNat w (beNat b))) h0
  hv.flatMap fun x => beBytes (w / 8) x.toNat

/-- SHA-256. -/
def sha256 (m : List Byte) : List Byte :=
  sha2 sha256Shape ((primes80.take 8).map fun q => BitVec.ofNat 32 (sqrtFrac 32 q)) m

/-- The initial hash value of SHA-512. -/
def sha512Init : List (BitVec 64) := (primes80.take 8).map fun q => BitVec.ofNat 64 (sqrtFrac 64 q)

/-- SHA-512. -/
def sha512 (m : List Byte) : List Byte := sha2 sha512Shape sha512Init m

/-- The initial hash value of SHA-512/256: SHA-512 of its name from the masked initial value (FIPS 180-4 5.3.6). -/
def sha512t256Init : List (BitVec 64) :=
  let name : List Byte := [0x53#8, 0x48#8, 0x41#8, 0x2D#8, 0x35#8, 0x31#8, 0x32#8, 0x2F#8, 0x32#8, 0x35#8, 0x36#8]
  (chunks 8 (sha2 sha512Shape (sha512Init.map fun x => x ^^^ 0xA5A5A5A5A5A5A5A5#64) name)).map
    fun b => BitVec.ofNat 64 (beNat b)

/-- SHA-512/256. -/
def sha512t256 (m : List Byte) : List Byte := (sha2 sha512Shape sha512t256Init m).take 32

/-! ## Keccak -/

/-- Lane (x, y) of the Keccak state, held as 25 lanes, x fastest. -/
def kLane (a : List (BitVec 64)) (x y : Nat) : BitVec 64 := a.getD (x % 5 + 5 * (y % 5)) 0

/-- The rotation offsets of rho, by lane. -/
def kRot : List Nat :=
  [0, 1, 62, 28, 27, 36, 44, 6, 55, 20, 3, 10, 43, 25, 39, 41, 45, 15, 21, 8, 18, 2, 61, 56, 14]

/-- The round constants of iota. -/
def kRc : List (BitVec 64) :=
  [0x0000000000000001#64, 0x0000000000008082#64, 0x800000000000808A#64, 0x8000000080008000#64, 0x000000000000808B#64,
   0x0000000080000001#64, 0x8000000080008081#64, 0x8000000000008009#64, 0x000000000000008A#64, 0x0000000000000088#64,
   0x0000000080008009#64, 0x000000008000000A#64, 0x000000008000808B#64, 0x800000000000008B#64, 0x8000000000008089#64,
   0x8000000000008003#64, 0x8000000000008002#64, 0x8000000000000080#64, 0x000000000000800A#64, 0x800000008000000A#64,
   0x8000000080008081#64, 0x8000000000008080#64, 0x0000000080000001#64, 0x8000000080008008#64]

/-- One Keccak round: theta, rho, pi, chi, iota. -/
def kRound (a : List (BitVec 64)) (rc : BitVec 64) : List (BitVec 64) :=
  let c := (List.range 5).map fun x => kLane a x 0 ^^^ kLane a x 1 ^^^ kLane a x 2 ^^^ kLane a x 3 ^^^ kLane a x 4
  let t := (List.range 25).map fun i =>
    a.getD i 0 ^^^ c.getD ((i % 5 + 4) % 5) 0 ^^^ (c.getD ((i % 5 + 1) % 5) 0).rotateLeft 1
  let r := (List.range 25).map fun i => (t.getD i 0).rotateLeft (kRot.getD i 0)
  -- pi moves lane (x, y) to (y, 2x + 3y): lane (x, y) of the result comes from (x + 3y, x).
  let b := (List.range 25).map fun i => kLane r (i % 5 + 3 * (i / 5)) (i % 5)
  let d := (List.range 25).map fun i =>
    kLane b (i % 5) (i / 5) ^^^ (~~~ kLane b (i % 5 + 1) (i / 5) &&& kLane b (i % 5 + 2) (i / 5))
  (d.getD 0 0 ^^^ rc) :: d.drop 1

/-- One block of 136 bytes into the state. -/
def kAbsorb (a : List (BitVec 64)) (blk : List Byte) : List (BitVec 64) :=
  let ws := (chunks 8 blk).map fun b => BitVec.ofNat 64 (leNat b)
  kRc.foldl kRound ((List.range 25).map fun i => a.getD i 0 ^^^ ws.getD i 0)

/-- SHA3-256. -/
def sha3 (m : List Byte) : List Byte :=
  let z := 135 - m.length % 136
  let pad : List Byte := if z = 0 then [0x86#8] else [0x06#8] ++ zeros (z - 1) ++ [0x80#8]
  let a := (chunks 136 (m ++ pad)).foldl kAbsorb (List.replicate 25 0)
  (a.take 4).flatMap fun x => leBytes 8 x.toNat

/-! ## HMAC -/

/-- HMAC over a hash with a block of `blk` bytes. -/
def hmac (hash : List Byte → List Byte) (blk : Nat) (key m : List Byte) : List Byte :=
  let k := padTo (if key.length ≤ blk then key else hash key) blk
  hash (k.map (· ^^^ 0x5C#8) ++ hash (k.map (· ^^^ 0x36#8) ++ m))

/-- HMAC-SHA-256. -/
def hmacSha256 (key m : List Byte) : List Byte := hmac sha256 64 key m

end Sys2Proof.Machine
end

