-- ==== Sys2Proof/Machine/Ecdsa.lean ====
section
/-! DEFINITION. ECDSA over P-384 with SHA-512 (13 R445; FIPS 186-5): the signature check of a firmware image. -/
namespace Sys2Proof.Machine

/-- The prime of P-384. -/
def p384 : Nat := 2 ^ 384 - 2 ^ 128 - 2 ^ 96 + 2 ^ 32 - 1

/-- The order of the base point. -/
def n384 : Nat := 0xFFFFFFFFFFFFFFFFFFFFFFFFFFFFFFFFFFFFFFFFFFFFFFFFC7634D81F4372DDF581A0DB248B0A77AECEC196ACCC52973

/-- The coefficient *b* of the curve. -/
def b384 : Nat := 0xB3312FA7E23EE7E4988E056BE3F82D19181D9C6EFE8141120314088F5013875AC656398D8A2ED19D2A85C8EDD3EC2AEF

/-- The base point. -/
def g384 : Nat × Nat :=
  (0xAA87CA22BE8B05378EB1C71EF320AD746E1D3B628BA79B9859F741E082542A385502F25DBF55296C3A545E3872760AB7,
   0x3617DE4A96262C6F5D9E98BF9292DC29F8F41DBD289A147CE9DA3113B5F0B8C00A60B1CE1D7E819D7A431D7C90EA0E5F)

/-- *a* to the power whose low `k` bits are those of *e*, modulo *m*. -/
def powMod (a e m : Nat) : Nat → Nat
  | 0 => 1 % m
  | k + 1 =>
    let h := powMod a (e / 2) m k
    if e % 2 = 1 then h * h % m * a % m else h * h % m

/-- The inverse modulo a prime of 384 bits. -/
def invMod (a m : Nat) : Nat := powMod (a % m) (m - 2) m 384

/-- The difference modulo *m* of two residues. -/
def subMod (a b m : Nat) : Nat := (a + m - b % m) % m

/-- The third point of the chord with a slope. -/
def chord (l x1 y1 x2 : Nat) : Nat × Nat :=
  let x := subMod (subMod (l * l) x1 p384) x2 p384
  (x, subMod (l * subMod x1 x p384) y1 p384)

/-- The sum of two points; none is the point at infinity. -/
def addPoint : Option (Nat × Nat) → Option (Nat × Nat) → Option (Nat × Nat)
  | none, q => q
  | p, none => p
  | some (x1, y1), some (x2, y2) =>
    if x1 = x2 then
      if (y1 + y2) % p384 = 0 then none
      else some (chord (subMod (3 * x1 * x1) 3 p384 * invMod (2 * y1) p384) x1 y1 x2)
    else some (chord (subMod y2 y1 p384 * invMod (subMod x2 x1 p384) p384) x1 y1 x2)

/-- The multiple of a point by the low `k` bits of a number. -/
def mulPoint (e : Nat) (q : Option (Nat × Nat)) : Nat → Option (Nat × Nat)
  | 0 => none
  | k + 1 =>
    let h := mulPoint (e / 2) q k
    let d := addPoint h h
    if e % 2 = 1 then addPoint d q else d

/-- Does a public key of 97 bytes, uncompressed, name a point of the curve? -/
def keyPoint (b : List Byte) : Option (Nat × Nat) :=
  let x := fieldBe b 1 48
  let y := fieldBe b 49 48
  if fieldLe b 0 1 = 4 ∧ x < p384 ∧ y < p384 ∧ y * y % p384 = (x * x * x + (p384 - 3) * x + b384) % p384 then some (x, y) else none

/-- Does a signature verify over a message, with SHA-512 cut to its leftmost 384 bits? -/
def ecdsaVerify (key msg : List Byte) (r s : Nat) : Bool :=
  match keyPoint key with
  | none => false
  | some q =>
    if r = 0 ∨ n384 ≤ r ∨ s = 0 ∨ n384 ≤ s then false
    else
      let z := beNat ((sha512 msg).take 48)
      let w := invMod s n384
      match addPoint (mulPoint (z * w % n384) (some g384) 384) (mulPoint (r * w % n384) (some q) 384) with
      | none => false
      | some v => v.1 % n384 == r

end Sys2Proof.Machine
end

