-- ==== Sys2Proof/Config.lean ====
section
/-! DEFINITION. What one part fixes and what the spec leaves open: constants with no value. Nothing in the model
evaluates them and no proof can use a value of them. -/
namespace Sys2Proof.Config

/-- A 64-bit free value: the model applies it to the count of free values taken so far. It stands for random
numbers (nonces, session numbers), for times the spec gives no clock for, and for values the spec leaves open. -/
opaque freeReg : Nat → BitVec 64

/-- A free choice of one of `n` things, by the count of free values taken so far; used modulo `n`. -/
opaque freeChoice : Nat → Nat

/-- Free bytes: what a command leaves in a buffer whose content the spec does not fix. -/
opaque freeByte : Nat → Nat → BitVec 8

/-- DEV_ID.GRADE: true for a VK6410-AX (13). -/
opaque gradeAx : Bool

/-- The SERIAL of IDENTIFY AUX 0, 16 ASCII bytes (04 R146). -/
opaque serial : Nat → BitVec 8

/-- The delay words 0 to 1,279 of MEM_FUSE (11 R385). -/
opaque memFuse : Nat → BitVec 32

/-- How far the CRC word of a stack and band of MEM_FUSE, by stack × 5 + band, is from the CRC-32C of its words: zero
where the part's fuses are good (11 R385, R387). -/
opaque memFuseBad : Nat → BitVec 32

/-- The byte by which an event record names a class of R395, by its row in that table (11 R399; 14 R487). -/
opaque eccClassCode : Nat → BitVec 8

/-- The fuses of HK_CAL (14 R474). -/
opaque hkCal : Nat → BitVec 64

/-- Does a reading that lies between two quarter degrees, and whose rounding the spec does not give, go up (14 R474)? -/
opaque roundUp : Int → Bool

/-- The version entry the sideband reports for an MCTP message type, and the version with its CRC for a PLDM type, by byte
(15 R501 gives neither). -/
opaque sidebandVersion : Nat → Nat → BitVec 8

/-- The PLDM terminus ID (15 R501). -/
opaque terminusId : BitVec 8

/-- SHA-256 of firmware public key `i`, by byte (13 R445). -/
opaque fwKeyHash : Nat → Nat → BitVec 8

/-- The fuse root key, by byte (08 R289). -/
opaque fuseRootKey : Nat → BitVec 8

/-- D3 MEDIA, by byte, as Starter derives it from the fuse root key: the derivation is not given (08 R289). -/
opaque mediaKey : Nat → BitVec 8

/-- The trim value of the boot ROM and fuse area: the fused minimum SVN and the revoked key indexes at the first
start (13, CFG_SVN). -/
opaque fusedSvn : Nat

/-- The three strap pins of a slot's I2C bus (10 R336). -/
opaque cardStrap : Nat → BitVec 3

/-- DATA_SEQ in the header of a parity, filler or block summary sector, by its media address: the spec gives none (10
R347). -/
opaque headerSeq : Nat → BitVec 64

/-- The bytes of a root record, by its DATA_SEQ: the places of its fields are not given (10 R363). -/
opaque rootByte : Nat → Nat → BitVec 8

/-- What a Roller's compressor chooses for a block: tokens, by block content, target and position. The spec fixes
what a coded block decodes to, not which of its codings is made (07 R254). -/
opaque rollerCode : List (BitVec 8) → Nat → List (BitVec 8)

/-- The MAC address of an Ethernet port: the spec gives none (12 R411). -/
opaque ethAddress : Nat → BitVec 48

/-- The priority and DEI bits of the tag on a sent frame: the spec gives none (12 R411). -/
opaque vlanPriority : BitVec 4

end Sys2Proof.Config
end

