-- ==== Sys2Proof/Machine/State.lean ====
section
/-! DEFINITION. The state of the VK6410: every register, queue, buffer, counter, mode and pin the spec gives
it, as plain data, and the machine right after reset. -/
namespace Sys2Proof.Machine

/-- Why a command stops the model. -/
inductive Fault where
  /-- Raised by the register-access commands when the offset lies outside the BAR: no such address exists, and
  no access to it reaches the VK6410 (01 R24, 04 R123). Safe. -/
  | outsideBar
deriving DecidableEq, Repr

/-- Why a command is refused. -/
inductive Refusal where
  /-- The command has no meaning yet. Safe. -/
  | notModelled (mnemonic : String)
deriving DecidableEq, Repr

/-- A sparse table by number: an unlisted number holds the table's default. -/
abbrev AMap (α : Type) := List (Nat × α)

/-- A byte memory: sorted by address, no entry equal to the zero an unlisted address reads as. -/
abbrev Memory := List Host.Cell

/-! ## Modes -/

/-- The twelve modes M0 to M11 (13 R438). -/
inductive Mode where
  | off | standby | starter | discovery | rebuild | service | degraded | thermal | quiesce | maintenance
  | readOnly | powerFail
deriving DecidableEq, Repr

/-- One entry of a REGS block of a configuration image (13 R447). -/
structure RegEntry where
  off : Nat
  width : Nat
  mask : Reg
  value : Reg
deriving DecidableEq, Repr

/-- The mode, the conditions of R440 that have no other home, and the start-up flags (13). -/
structure Modes where
  mode : Mode
  last : Mode
  halt : Bool
  haltCode : Nat
  /-- Start-up is complete: the mode follows the conditions (R439). -/
  running : Bool
  powerFail : Bool
  /-- QUIESCE held by a request (R454), by ENTER_MAINT, by FW_ACTIVATE. -/
  quiesceReq : Bool
  quiesceMaint : Bool
  quiesceFw : Bool
  maint : Bool
  drained : Bool
  /-- Commands that wait for DRAINED: MODE_REQUEST ENTER_QUIESCE, ENTER_MAINT and FW_ACTIVATE. -/
  quiesceWait : List Nat
  maintWait : List Nat
  fwWait : Option Nat
  /-- The new firmware runs or is being started: step 3 of R110 has begun. -/
  fwSwitched : Bool
  /-- LIMIT_S as it stood at the entry (CFG_QUIESCE). -/
  limit : Nat
  cfgDefaulted : Bool
  cfgCopyB : Bool
  fwFallback : Bool
  unclean : Bool
  sanitizeResumed : Bool
  locked : Bool
  qlimit : Bool
  actFailed : Bool
  timeMs : AMap Nat
  /-- The overlay in force: the bits it set and the values it saved (R449). -/
  overlay : List RegEntry
  /-- Auxiliary rails in range; RESET_N released; main rails in range; parked after a power failure, so that R460 gives
  the restart; PWR_FAIL_N high. -/
  auxOn : Bool
  resetN : Bool
  mainOk : Bool
  parked : Bool
  pwrFailN : Bool
  /-- Device held in reset while the root PLL is unlocked (01 R22). -/
  rootLock : Bool
  /-- Lock has been lost and not regained. -/
  rootLost : Bool
  rootLol : Bool
  lolCount : Nat
  serdesLock : AMap Bool
  serdesLol : Bool
  /-- CLK_RESET (15). -/
  cause : Nat
  nextCause : Nat
  starts : Nat
deriving DecidableEq, Repr

/-! ## Boot flash, firmware and configuration (13 R442 to R457) -/

structure BootSel where
  seq : Nat
  active : Nat
deriving DecidableEq, Repr

/-- The key record: the sanitize flag and the keys D0 to D2, wrapped under the fuse root key (08 R289). -/
structure KeyRecord where
  seq : Nat
  sanitize : Bool
  keys : AMap (List Byte)
deriving DecidableEq, Repr

structure ParkRecord where
  powerCycle : Nat
  poweredOnS : Nat
deriving DecidableEq, Repr

/-- An event record (14 R480), without its CRC. -/
structure EvRec where
  number : Nat
  code : Nat
  source : Nat
  severity : Nat
  data : List Byte
  powerCycle : Nat
  poweredOnS : Nat
deriving DecidableEq, Repr

/-- What the boot flash is writing, and what follows when it ends (13 R456, R443). -/
inductive SpiOp where
  | cfgB (image : List Byte) (tag : Nat)
  | cfgA (image : List Byte) (tag : Nat)
  | keyRecord (rec : KeyRecord) (tag : Option Nat)
  | bootSel (sel : BootSel)
  | perm (rec : EvRec)
  | parkRecord (rec : ParkRecord)
deriving DecidableEq, Repr

structure Boot where
  selA : Option BootSel
  selB : Option BootSel
  keyA : Option KeyRecord
  keyB : Option KeyRecord
  parks : List ParkRecord
  cfgA : Option (List Byte)
  cfgB : Option (List Byte)
  /-- Retired pages: stack, old page, new page (R408, R443). -/
  retired : List (Nat × Nat × Nat)
  fwA : Option (List Byte)
  fwB : Option (List Byte)
  ops : List SpiOp
  /-- The power-cycle count and seconds kept for the next start. -/
  powerCycle : Nat
  poweredOnS : Nat
deriving DecidableEq, Repr

structure Download where
  active : Bool
  target : Nat
  total : Nat
  bytes : List Byte
  fail : Nat
deriving DecidableEq, Repr

/-- The header fields of a firmware image that stay after it has been checked (R444). -/
structure FwInfo where
  version : Nat
  svn : Nat
  keyIndex : Nat
  entry : Nat
deriving DecidableEq, Repr

/-- A GROUP_CONFIG SET_SELF setting (12 R436). -/
structure GroupSelf where
  groupId : Nat
  udpPort : Nat
  vlan : Nat
  trafficClass : Nat
  addrs : List (BitVec 128)
deriving DecidableEq, Repr

structure GroupMember where
  addr : BitVec 128
  macs : List Nat
deriving DecidableEq, Repr

/-- One entry of the Sieve (09 R303). -/
structure SieveEntry where
  value : BitVec 320
  care : BitVec 320
  priority : Nat
  result : Reg
deriving DecidableEq, Repr

/-- The parts of the configuration image in use (13 R446, R447). -/
structure CfgImage where
  imageId : Nat
  base : List RegEntry
  overlays : List (Nat × List RegEntry)
  sieve : List (Nat × SieveEntry)
  group : Option (Nat × Bool × GroupSelf × List (Nat × GroupMember))
deriving DecidableEq, Repr

structure Cfg where
  source : Nat
  failA : Nat
  failB : Nat
  image : CfgImage
  fwSlot : Nat
  fwActive : FwInfo
  fwPending : Option FwInfo
  download : Download
  svnFused : Nat
  revoked : BitVec 4
deriving DecidableEq, Repr

/-! ## Event recorder (14 R480 to R486) -/

/-- A suppression window of one code and source (R484). -/
structure EvWindow where
  code : Nat
  source : Nat
  made : Nat
  dropped : Nat
deriving DecidableEq, Repr

structure EvRecorder where
  next : Nat
  /-- Live ring: the records it holds, newest first. -/
  ring : List EvRec
  /-- Records created and not yet on flash, newest first (R482). -/
  queued : List EvRec
  /-- Circulating area on flash, newest first. -/
  circ : List EvRec
  /-- Highest run of 4,096 numbers made durable, counted from 0 for none (R483). -/
  durableRun : Nat
  perm : List EvRec
  windows : List EvWindow
  fetch : Option (Nat × Bool)
  done : Bool
  buf : List (Option EvRec)
  nonce : Reg
  /-- EVENT_CLEAR commands that wait for the durability of EVENTS_CLEARED: tag, record number, last cleared. -/
  clearWait : List (Nat × Nat × Nat)
deriving DecidableEq, Repr

/-! ## Command packets, queue pairs, replies (03) -/

/-- The status values of R94. -/
inductive Status where
  | ok | invalidOpcode | invalidField | invalidQueue | invalidBuffer | lengthShort | lengthOver | lbaRange
  | containerUnknown | appendOverlap | notLogObject | wrongStreamKind
  | quotaBytes | quotaObjects | ctxExhausted | digestBusy | outOfWindow | objectLimit | namespaceLimit
  | queueLimit | sieveQuota | noSpace
  | unrecoveredRead | writeFailed
  | poisoned | digestMismatch | hostDmaError | rollBadCode | rollBadDistance | rollOverrun
  | windowDenied | notPermitted
  | readOnly | abortedReset | quiesced | commitConflict | streamUnknown | streamCommitting | versionGone
  | notFound | abortedByRequest | wrongMode
  | budgetExhausted | jobTimeout | programInvalid | programFault
  | peerUnreachable | groupQuorum
deriving DecidableEq, Repr

/-- The command packet (R84); `body` is bytes 24 to 63. -/
structure Packet where
  opcode : Nat
  flags : Nat
  cid : Nat
  container : Nat
  aux : Nat
  reserved : Nat
  dataAddr : Nat
  dataLen : Nat
  stream : Nat
  body : List Byte
deriving DecidableEq, Repr

structure QueuePair where
  fn : Nat
  port : Port
  qid : Nat
  sqBase : Nat
  cqBase : Nat
  sqLog2 : Nat
  cqLog2 : Nat
  vector : Nat
  irqCount : Nat
  irqTime : Nat
  weight : Nat
  /-- Fetch head and tail of the submission ring. -/
  sqHead : Nat
  sqTail : Nat
  /-- Next slot of the completion ring to write, its phase, the released head and `U` of R79. -/
  cqTail : Nat
  phase : Bool
  cqHead : Nat
  unreleased : Nat
  halted : Bool
  /-- A delete runs: the DELETE_QP command that waits for it, or none for TF_AQ_CFG.ENABLE (R511). -/
  deleting : Option (Option Nat)
  /-- Unsignalled replies counted toward IRQ_COUNT, and whether the IRQ_TIME interval runs (R83). -/
  unsignalled : Nat
  timing : Bool
  /-- The turns it still has in its function's round (R80). -/
  turns : Nat
deriving DecidableEq, Repr

/-- A map entry of a block namespace: the sector its bucket starts in, the bucket's place in KiB and code, and
its DATA_SEQ (10 R346, R358). -/
structure MapEntry where
  sector : Nat
  kib : Nat
  bucket : Nat
  seq : Nat
deriving DecidableEq, Repr

/-- What host data a started command still reads. -/
inductive Want where
  | nothing
  | pageList
  | payload
deriving DecidableEq, Repr

/-- Coded blocks on their way to a decompressor (01 R18, R19): the piece of a read that they belong to, the Loaf nearest their
channel, the sectors of each block, and the blocks rebuilt from parity after an error (07 R268). -/
structure CodedPiece where
  idx : Nat
  loaf : Nat
  blocks : List (List Nat)
  again : List Nat
deriving DecidableEq, Repr

/-- A command fetched and not yet answered or discarded (R79). -/
structure Cmd where
  tag : Nat
  fn : Nat
  port : Port
  qid : Nat
  pkt : Packet
  started : Bool
  /-- Started before a reset of its function and port: it runs to its safe point and posts no reply (R105). -/
  doomed : Bool
  want : Want
  pages : List Nat
  payload : Option (List Byte)
  /-- The opcode's row has been carried out; what remains is waiting. -/
  launched : Bool
  dataSeq : Nat
  pclass : Nat
  qos : Nat
  /-- Parts (sectors, groups, records) still outstanding and the parts read so far, by index. -/
  left : Nat
  got : AMap (List Byte)
  /-- BLOCK_WRITE: the map entries of its durable groups (10 R358). -/
  placed : List (Nat × MapEntry)
  /-- Groups placed and not yet durable. -/
  groups : List Nat
  verdict : Option Status
  /-- RESULT1 and RESULT2 of a read that is on its way. -/
  results : Nat × Nat
  /-- The handle, job or record number the command works on. -/
  ref : Nat
  /-- Read data that has landed in staging: the Batch of the card it came from, and bytes (01 R18). -/
  staged : List (Nat × Nat) := []
  /-- The coded pieces of a read that are not decoded yet. -/
  coded : List CodedPiece := []
deriving DecidableEq, Repr

/-- A status reply (R93). -/
structure Reply where
  cid : Nat
  status : Status
  sqHead : Nat
  qid : Nat
  generation : Nat
  result0 : Nat
  result1 : Nat
  result2 : Nat
  phase : Bool
  port : Port
deriving DecidableEq, Repr

/-- One entry of a function error log (R92). -/
structure ErrEntry where
  number : Nat
  timeUs : Reg
  status : Status
  cid : Nat
  opcode : Nat
  qid : Nat
  port : Port
  generation : Nat
  container : Nat
  check : Nat
  field : Nat
  object : Nat
  result1 : Nat
deriving DecidableEq, Repr

/-- What the block sends out, in the order it sends it. -/
inductive Tx where
  /-- A host memory read request of a command or of a ring fetch (03 R80, R116). -/
  | hostRead (port : Port) (fn : Nat) (who : ReadOwner) (addr len : Nat)
  /-- A posted memory write to the host. -/
  | hostWrite (port : Port) (fn : Nat) (addr : Nat) (bytes : List Byte)
  | reply (port : Port) (fn : Nat) (addr : Nat) (r : Reply)
  /-- An MSI-X message: the address and data of its table entry (04 R124). -/
  | msix (port : Port) (fn vector : Nat) (addr : Reg) (data : Word)
  | aer (port : Port) (fn : Nat) (error : String)
  | registerData (port : Port) (fn : Nat) (value : Reg)
  | retryStatus (port : Port) (fn : Nat)
  /-- The completion of a configuration request: the value read, or none for a write; or Unsupported Request. -/
  | configData (port : Port) (fn : Nat) (value : Option Nat)
  | configUnsupported (port : Port) (bus fn : Nat)
  /-- A translation request for a page; the access that follows goes to the translation of its page (04 R124, R151). -/
  | atsRequest (port : Port) (fn page : Nat)
  | atsAccess (port : Port) (fn page dst : Nat)
  | atsInvalidated (port : Port) (fn : Nat)
  /-- An Ethernet frame from a port, from its destination MAC address to the byte before its FCS (12 R411). -/
  | frame (eth : Nat) (bytes : List Byte)
  /-- A command sequence on a flash channel of a slot: the die, or for a command of a whole CE its first die, and the
  command codes in order (10 R333). -/
  | onfi (slot chan die : Nat) (codes : List Nat)
  /-- A sequential read of a slot's identity EEPROM: bus address, word address, bytes (10 R336). -/
  | i2cRead (slot bus word len : Nat)
  /-- Bytes written to the boot flash at an offset (13 R442, R443, R456; 14 R482). -/
  | spiWrite (off : Nat) (bytes : List Byte)
  | sideband (bytes : List Byte)
  | pin (name : String) (index : Nat) (level : Bool)
deriving DecidableEq, Repr

/-- A host write or a reply that waits because its link is down or its function is not usable (03 R117,
04 R121); for a reply that is signalled, its vector. -/
structure Held where
  fn : Nat
  port : Port
  out : Tx
  vector : Option Nat
deriving DecidableEq, Repr

/-! ## Functions, tenants, contexts (04) -/

inductive TenantState where
  | disabled | running | stopped
deriving DecidableEq, Repr

/-- The five settings of a tenant: LIMITS, CTX, RESV, INACT and SIEVE (R133). -/
structure Settings where
  limits : Reg
  ctx : Reg
  resv : Reg
  inact : Reg
  sieve : Reg
deriving DecidableEq, Repr

structure DirtyLog where
  on : Bool
  port : Port
  base : Nat
  log2 : Nat
  /-- Entries written since START; the ring index and PHASE follow from it. -/
  written : Nat
  /-- Entries since the last START or SYNC, and whether one was dropped since then. -/
  since : Nat
  dropped : Bool
  overflow : Bool
  head : Nat
deriving DecidableEq, Repr

/-- An object space (02 R37, 04 R142): its counter stays after a delete (R144). -/
structure Space where
  live : Bool
  byteQuota : Nat
  objectQuota : Nat
  counter : Nat
  /-- A SPACE_DELETE of it has been accepted: no commit of it becomes visible any more. -/
  deleting : Bool := false
deriving DecidableEq, Repr

/-- A trim record in force: first LBA, LBAs, DATA_SEQ (02 R62, 10 R362). -/
structure Trim where
  lba : Nat
  count : Nat
  seq : Nat
deriving DecidableEq, Repr

/-- A block namespace (02 R58): its size, its map, and the trims that cover older entries. -/
structure Namespace where
  size : Nat
  map : AMap MapEntry
  trims : List Trim
deriving DecidableEq, Repr

/-- A loaded program (05 R162, R164). -/
structure Program where
  handle : Nat
  codeLen : Nat
  bssLen : Nat
  stackLen : Nat
  entrySlice : Nat
  entryReduce : Option Nat
  code : List Byte
  data : List Byte
deriving DecidableEq, Repr

/-- A tenant, or function 0 under number 0 (it holds only an error log). -/
structure Tenant where
  state : TenantState
  shadow : Settings
  active : Settings
  /-- The tenant has been enabled since device start: its active reserve counts (R137). -/
  enabled : Bool
  reject : Nat
  dlog : DirtyLog
  spaces : AMap Space
  nss : AMap Namespace
  errCount : Nat
  errors : List ErrEntry
  programs : AMap Program
  loads : Nat
  /-- The private Sieve region: base among the private slots, and length (09 R321). -/
  region : Nat × Nat
  /-- The FN_CONTROL STOP that waits for the drain; the FN_CONTROL that waits for a reset. -/
  stopWait : Option Nat
  resetWait : Option Nat
deriving DecidableEq, Repr

structure MsixEntry where
  addr : Reg
  data : Word
  masked : Bool
deriving DecidableEq, Repr

/-- A digest result slot (08 R286). -/
structure ResultSlot where
  digest : List Byte
  cid : Nat
  alg : Nat
  hmac : Bool
  seq : Nat
deriving DecidableEq, Repr

/-- The rest of the writable configuration space of a function on a port (04 R122 to R124; 03 R116): its BARs, MSI-X Enable
and Function Mask, the enable of ATS, and the Completion Timeout Value. -/
structure PciFn where
  bar0 : Nat := 0
  bar2 : Nat := 0
  msixOn : Bool := false
  msixMask : Bool := false
  atsOn : Bool := false
  timeout : Nat := 0
deriving DecidableEq, Repr

/-- What one function holds on one port (04 R122). -/
structure FnPort where
  generation : BitVec 16
  late : Nat
  lateMgmt : Nat
  stray : Nat
  asqBase : Reg
  acqBase : Reg
  aqCfg : Reg
  aqError : Bool
  resetting : Bool
  mse : Bool
  bme : Bool
  d3hot : Bool
  msix : AMap MsixEntry
  pba : BitVec 64
  ats : AMap Nat
  results : AMap ResultSlot
  /-- Held asynchronous events, oldest first: code and RESULT1 (03 R78). -/
  events : List (Nat × Nat)
  lost : Bool
  pci : PciFn
deriving DecidableEq, Repr

structure HostPort where
  up : Bool
  speed : Nat
  lanes : Nat
  flit : Bool
  downSeen : Bool
  vfEnable : Bool
  numVfs : Nat
  perst : Bool
  /-- The bus number that function 0 has captured, and the VF BAR0 of its SR-IOV capability (04 R120, R123). -/
  bus : Nat
  vfBar0 : Nat
deriving DecidableEq, Repr

/-- The access latches of one function, port and BAR (00 R13): the offset of the register and the half held. -/
structure Latch where
  read : Option (Nat × Reg)
  write : Option (Nat × Reg)
deriving DecidableEq, Repr

/-! ## Objects and streams (02) -/

inductive StreamState where
  | opened | committing | committed | aborted | released
deriving DecidableEq, Repr

/-- A run of an object's content: its first offset, its bytes, the sectors that hold it, and the place in KiB of its
bucket in the first of them with its bucket code (10 R350). -/
structure Extent where
  off : Nat
  data : List Byte
  sectors : List Nat
  kib : Nat
  bucket : Nat
deriving DecidableEq, Repr

/-- A received append (02 R42, R43): its range's first offset, its bytes, its command, what of it lies on flash,
durable or not. -/
structure Part where
  off : Nat
  data : List Byte
  tag : Nat
  extents : List Extent
  durable : Bool
deriving DecidableEq, Repr

structure WriteStream where
  space : Nat
  oid : Nat
  declLen : Nat
  start : Nat
  alg : Nat
  log : Bool
  expect : Option (List Byte)
  state : StreamState
  parts : List Part
  pclass : Nat
  batch : Nat
  /-- Bytes the Digest engine has consumed up to the last checkpoint (08 R279). -/
  checkpoint : Nat
  /-- The appends that were in flight when the COMMIT was accepted (02 R46). -/
  inFlight : List Nat := []
  /-- Committed: queue pair and command number of the COMMIT whose completion is not yet posted (02 R41). -/
  unposted : Option (Nat × Nat) := none
deriving DecidableEq, Repr

structure DigestStream where
  alg : Nat
  hmac : Bool
  key : Nat
  engine : Nat
  /-- The message bytes consumed at the end of the last segment, which stand for the midstate record. -/
  consumed : List Byte
deriving DecidableEq, Repr

inductive CtxKind where
  | write (w : WriteStream)
  | read (space oid version : Nat)
  | digest (d : DigestStream)
  | job (job : Nat)
  | transient (tag : Nat)
deriving DecidableEq, Repr

/-- A stream context in use (04 R137). -/
structure Ctx where
  handle : Nat
  slot : Nat
  tenant : Nat
  port : Port
  kind : CtxKind
  cached : Bool
  /-- The stacks whose stored copies are up to date (04 R139). A context of which none is left is not loaded again (DEDUCED, log
  entry 137). -/
  copies : List Nat
deriving DecidableEq, Repr

/-- How a version is Group-coded (12 R426 to R428): K, M, BASE, MASK, STRIPES and GDATA_SEQ. -/
structure GroupInfo where
  k : Nat
  m : Nat
  base : Nat
  origin : Nat
  mask : BitVec 32
  stripes : Nat
  gseq : Nat
deriving DecidableEq, Repr

/-- An extent list being written (10 R350, R352): its DATA_SEQ, the groups it is written as, and the sectors of those
that are durable, by group. -/
structure ListWrite where
  seq : Nat
  parts : Nat
  done : AMap (List Nat)
deriving DecidableEq, Repr

/-- One committed version of an object (02 R34, R51). -/
structure Version where
  tenant : Nat
  space : Nat
  oid : Nat
  version : Nat
  live : Bool
  log : Bool
  length : Nat
  segStart : Nat
  alg : Nat
  digest : List Byte
  /-- Content by first offset. -/
  parts : List Extent
  trimmed : List (Nat × Nat)
  pclass : Nat
  seq : Nat
  /-- Set for a Group-coded version (12 R428). -/
  group : Option GroupInfo
  /-- Its commit is a log extension (02 R56). -/
  ext : Bool := false
  /-- The extent list in force, by its sectors in chain order, and the one being written (10 R350, R352). -/
  list : List Nat := []
  fresh : Option ListWrite := none
deriving DecidableEq, Repr

/-- What ends when a commit record becomes durable. -/
inductive CommitOwner where
  | cmd (tag : Nat)
  | job (job : Nat)
deriving DecidableEq, Repr

inductive CommitPhase where
  /-- Group-coded: shards are being placed (12 R429). -/
  | shards
  /-- The record waits for a commit page. -/
  | waiting
  /-- Its commit page is being programmed. -/
  | paged
  /-- Its commit page is durable. -/
  | durable
deriving DecidableEq, Repr

/-- An accepted commit whose record is not yet durable, in commit order (02 R48). -/
structure Commit where
  id : Nat
  owner : CommitOwner
  handle : Nat
  /-- The version of the Committing predecessor it was checked against, or none. -/
  pred : Option Nat
  phase : CommitPhase
  ver : Version
  /-- Its commit page is durable; its extent list may not be. -/
  pageDone : Bool := false
deriving DecidableEq, Repr

/-- A trim or delete record (10 R362). -/
inductive RecordKind where
  | trim (lba count : Nat)
  | nsDelete
  | spaceDelete
deriving DecidableEq, Repr

structure Record where
  id : Nat
  tag : Nat
  tenant : Nat
  container : Nat
  kind : RecordKind
  seq : Nat
  durable : Bool
deriving DecidableEq, Repr

/-! ## Flash (10) -/

/-- The fields of a card identity record that the model uses (R337). -/
structure CardInfo where
  serial : List Byte
  part : List Byte
  jedec : Nat
  bitsPerCell : Nat
  planes : Nat
  maxRate : Nat
  model : List Byte
  pageBytes : Nat
  spareBytes : Nat
  pagesPerBlock : Nat
  blocksPerLun : Nat
  maxBad : Nat
  endurance : Nat
  ceMap : List Nat
  dies : Nat
  tReadUs : Nat
  tProgUs : Nat
  tErsUs : Nat
  tempWarn : Nat
  tempMax : Nat
  rrFeature : Nat
  rrSteps : Nat
deriving DecidableEq, Repr

/-- A card slot (R340). -/
structure Card where
  state : Nat
  rate : Nat
  reject : Nat
  info : Option CardInfo
  present : Bool
  powered : Bool
  tries : Nat
  errRemoved : Bool
  errTimeout : Bool
  errI2c : Bool
  errTemp : Bool
  /-- SERIAL recorded for the slot in the stripe-set table (R343). -/
  known : List Byte
  /-- The blocks marked bad at the factory, as ONFI numbers them, and the erase blocks they make unusable (R362). -/
  factoryBad : Nat
  factory : List Nat
  /-- The data interface (0 SDR timing mode 0, 1 NV-LPDDR4), ODT set, trained (R332). -/
  iface : Nat
  odt : Bool
  trained : Bool
  grownBad : Nat
  programs : Nat
  erases : Nat
  uncorrectable : Nat
deriving DecidableEq, Repr

/-- A die (R364): failures in a row, timeouts in the window, failed, retry step in force, hard-decode failures. -/
structure Die where
  fails : Nat
  timeouts : Nat
  failed : Bool
  retry : Nat
  hardFails : Nat
deriving DecidableEq, Repr

/-- The sector header (R347). -/
structure Header where
  kind : Nat
  copy : Bool
  keySel : Bool
  devKey : Bool
  tenant : Nat
  container : Nat
  layout : Nat
  cont : Nat
  pclass : Nat
  seq : Nat
  logicalLo : Nat
  logicalHi : Nat
  unitSectors : Nat
  unitIndex : Nat
deriving DecidableEq, Repr

/-- A sector written to flash: its stripe set, row, member slot, place in the member's program unit, header, 4,096
bytes before encryption, and the tenant key they are encrypted under, empty for the device's own (10 R345 to R351). -/
structure Sector where
  id : Nat
  set : Nat
  row : Nat
  slot : Nat
  pos : Nat
  header : Header
  data : List Byte
  key : List Byte
deriving DecidableEq, Repr

/-- What a group of sectors belongs to. -/
inductive GroupOwner where
  | write (tag : Nat)
  | append (tag : Nat)
  | commits (ids : List Nat)
  | record (id : Nat)
  | jobOut (slot : Nat)
  | shard (key : List Byte)
  | copy (sources : List Nat)
  | metadata (tag : Nat)
  /-- A part of the extent list of a version. -/
  | extents (tenant space oid version part : Nat)
deriving DecidableEq, Repr

/-- Sectors placed together (R349, R371): for block data, where each LBA's bucket lies (LBA, sector of the
group, KiB, bucket code); how often a row that held them has failed (R357); the tenant key of their data; and the QOS their
programs are served at (R335). -/
structure Group where
  id : Nat
  owner : GroupOwner
  sectors : List (Header × List Byte)
  blocks : List (Nat × Nat × Nat × Nat)
  fails : Nat
  key : List Byte
  qos : Nat := 7
deriving DecidableEq, Repr

inductive RowKind where
  | host | copies | metadata
deriving DecidableEq, Repr

/-- A program operation of a row: outstanding, succeeded, failed. -/
inductive ProgState where
  | outstanding | done | failed
deriving DecidableEq, Repr

/-- A row that is open or being programmed (R355, R356), or a member's share of one that is written again onto a
replacement card (R364): that member's slot. -/
structure Row where
  id : Nat
  set : Nat
  index : Nat
  batch : Nat
  kind : RowKind
  prot : Bool
  issued : Bool
  groups : List Group
  progs : AMap ProgState
  /-- The number of its first sector; the others follow in the order of R351, then those of the parity members. -/
  base : Nat := 0
  /-- To be programmed once the blocks of its set are erased (R343). -/
  due : Bool := false
  /-- One of its programs has failed: its groups are written again elsewhere. -/
  dead : Bool := false
  repair : Option Nat := none
deriving DecidableEq, Repr

structure Member where
  slot : Nat
  chan : Nat
  die : Nat
  block : Nat
  lost : Bool
  /-- Erase of the block: none, running, done. -/
  erase : Nat
  /-- A program of the block has failed: it is retired when the set is reclaimed (R357). -/
  retire : Bool
  /-- A fresh block on a replacement card, whose lost units are being written (R364). -/
  repair : Bool := false
deriving DecidableEq, Repr

structure StripeSet where
  no : Nat
  batch : Nat
  kind : RowKind
  prot : Bool
  members : List Member
  nextRow : Nat
  closed : Bool
  gcMark : Bool
  /-- Being reclaimed: its valid sectors are being copied, then its blocks are erased. -/
  victim : Bool
  /-- Its block summaries are programmed (R361); without them its blocks are open. -/
  summary : Bool := false
  /-- A program of it has failed: it is reclaimed at QOS 7 (R357). -/
  urgent : Bool := false
deriving DecidableEq, Repr

/-- What a flash read is for. -/
inductive ReadFor where
  | cmd (tag idx : Nat)
  | slice (buf : Nat)
  | copy (set : Nat)
deriving DecidableEq, Repr

/-- A flash read in progress (R359): the step of the ladder it is at, whether the rebuild from parity runs beside it,
the die's retry step at its start, and its QOS. -/
structure FlashRead where
  id : Nat
  owner : ReadFor
  sector : Nat
  step : Nat
  parity : Bool
  base : Nat
  qos : Nat := 0
deriving DecidableEq, Repr

/-- An operation of a channel (R335): what it does, its die, its QOS, the step of its read, and whether it has been
issued to the die. -/
structure FlashOp where
  ref : FlashOpRef
  die : Nat
  qos : Nat
  step : Nat
  run : Bool
deriving DecidableEq, Repr

/-- A group that waits for a free stripe set (R365), with where it is to be placed. -/
structure Stalled where
  batch : Nat
  kind : RowKind
  prot : Bool
  group : Group
deriving DecidableEq, Repr

/-- Health counters since manufacture (R370). -/
structure Health where
  hostWritten : Nat
  hostRead : Nat
  programmed : Nat
  gcProgrammed : Nat
  unrecovered : Nat
  rebuilds : Nat
  retries : Nat
  grownBad : Nat
  lastRebuildMs : Nat
deriving DecidableEq, Repr

structure Flash where
  cards : AMap Card
  dies : AMap Die
  chanRetry : AMap Nat
  sectors : List Sector
  rows : List Row
  sets : List StripeSet
  reads : List FlashRead
  nextSector : Nat
  nextRow : Nat
  nextSet : Nat
  nextRead : Nat
  nextGroup : Nat
  /-- Erase counts by (slot, channel, die, block) key, and retired blocks. -/
  wear : AMap Nat
  bad : List Nat
  /-- Good blocks that are erased and not in a set. -/
  clean : List Nat
  /-- The operations of the channels, oldest first (R335). -/
  ops : List FlashOp
  stalled : List Stalled
  /-- The DATA_SEQ of the newest root record on each card (R363). -/
  roots : AMap Nat
  /-- The DATA_SEQs of block writes that ended with WRITE_FAILED: nothing of them is mapped (R512; 03 R94). -/
  void : List Nat
  seq : Nat
  usable : Nat
  roWear : Bool
  fullScan : Bool
  nonce : Reg
  health : Health
deriving DecidableEq, Repr

/-! ## Ariust-2 cores, Crumbs, jobs (05, 06) -/

/-- An open digest of a core (06 R227). -/
structure CoreDigest where
  handle : Nat
  alg : Nat
  bytes : List Byte
deriving DecidableEq, Repr

/-- The architectural state of one Ariust-2 core (06 R199, R242). -/
structure Core where
  g : Vector Word 16
  v : Vector Lane 8
  b : Vector (BitVec 16) 4
  pc : Word
  n : Bool
  z : Bool
  c : Bool
  vf : Bool
  slimit : Word
  icount : Word
  /-- A Crumb's count has passed 2^32 in this slice (05 R189). -/
  wrapped : Bool
  /-- Inside a REP unit, between two repetitions (06 R224). -/
  inUnit : Bool
  priv : Bool
  /-- Keys submitted and not yet answered (KIND and the key), oldest first; answers not yet read: index and
  result, none on a miss. -/
  sieveWait : List (BitVec 320)
  sieveQ : List (Option (Nat × Reg))
  digests : List CoreDigest
  ie : Bool
  exl : Bool
  epc : Word
  ecause : Word
  einfo : Word
  evec : Word
  epsw : Word
  ibudget : Word
  wtb : Word
deriving DecidableEq, Repr

/-- A deque entry (05 R181). `job` is the model's number of its job and `jobSlot` its JOB_SLOT; `passes` counts the Crumbs
that failed on it and then passed their self-test. -/
structure Entry where
  buf : Nat
  length : Nat
  tenant : Nat
  job : Nat
  input : Nat
  offset : Nat
  slice : Nat
  attempt : Nat
  batch : Nat
  passes : Nat
  jobSlot : Nat
deriving DecidableEq, Repr

/-- CRB_STATE.STATE (05). -/
inductive CrumbState where
  | offline | idle | running | scrubbing | recovering | retired
deriving DecidableEq, Repr

/-- A PATTERN program at work on a slice (05 R169; 09 R326): the slice, STRIDE and KEYLEN, the number of the next key to
submit, those submitted and not answered, and the hits so far. -/
structure Scan where
  data : List Byte
  step : Nat
  len : Nat
  next : Nat
  waiting : List Nat
  out : List Byte
deriving DecidableEq, Repr

structure Crumb where
  st : CrumbState
  deque : List Entry
  lastTenant : Nat
  /-- The slice in hand, or the reduction of two partials. -/
  run : Option Entry
  reducing : Bool
  /-- The job whose program the local store holds, and the length of its code. -/
  loaded : Option Nat
  codeLen : Nat
  core : Core
  store : Memory
  retiring : Bool
  /-- Gone idle for want of a victim, until the Proofer wakes it (R186). -/
  asleep : Bool
  /-- Job and slice of the entry of another tenant that has waited for a whole tenant turn (R182). -/
  turnOver : Option (Nat × Nat)
  /-- The window descriptor cache (R187). -/
  wins : List Reg
  /-- The read buffer of 16 KiB (06 R233): address and bytes of what it holds, newest first. -/
  readBuf : List (Nat × List Byte)
  /-- The PATTERN program that it runs, if it does. -/
  scan : Option Scan
  /-- Job and slice that the Crumb held when its watchdog fired, until its self-test ends (R192). -/
  failedOn : Option (Nat × Nat)
deriving DecidableEq, Repr

structure CtrlCore where
  core : Core
  irqs : List Nat
  halted : Bool
  idle : Bool
  /-- HK_CCORE: state and resets. -/
  st : Nat
  resets : Nat
deriving DecidableEq, Repr

inductive JobState where
  | loading | running | reducing | finishing
deriving DecidableEq, Repr

/-- An input of a job (05 R171) with what Loading resolved for it. -/
structure JobInput where
  container : Nat
  oid : Nat
  versionSel : Nat
  lba : Nat
  nlb : Nat
  /-- Object inputs: the pinned version and its length. -/
  version : Nat
  length : Nat
  /-- The pinned version itself (R176). -/
  pin : Option Version
deriving DecidableEq, Repr

/-- The job descriptor (05 R170). -/
structure JobDesc where
  jobId : Nat
  program : Nat
  flags : Nat
  inputKind : Nat
  reduceOp : Nat
  sliceKib : Nat
  maxCrumbs : Nat
  budget : Nat
  wallMs : Nat
  paramLen : Nat
  scratchPages : Nat
  outAddr : Nat
  outLen : Nat
  outSpace : Nat
  outOid : Nat
  outExpected : Nat
  summaryAddr : Nat
  reduceAddr : Nat
  tableSpace : Nat
  tableOid : Nat
  tableSel : Nat
  params : List Byte
  windows : List Reg
  inputs : List JobInput
deriving DecidableEq, Repr

/-- A slice buffer in use (05 R178). -/
structure SliceBuf where
  id : Nat
  entry : Entry
  loaf : Nat
  data : List Byte
  /-- Sectors still being read, or loaded and pushed. -/
  left : Nat
  failed : Bool
  pushed : Bool
  /-- What of it is still to be decoded (01 R19). -/
  coded : Option CodedPiece
deriving DecidableEq, Repr

/-- A compute job (05 R174): `slot` is the model's number of it, `runSlot` its device job slot while it is Running (R181). -/
structure Job where
  slot : Nat
  runSlot : Nat
  tenant : Nat
  port : Port
  tag : Nat
  handle : Nat
  desc : JobDesc
  prog : Program
  st : JobState
  batch : Nat
  pclass : Nat
  /-- Object inputs: the slices not yet issued, as input, offset and length. LBA inputs: next input and byte offset to
  cut. The slices known so far, and those issued. -/
  slices : List (Nat × Nat × Nat)
  nextInput : Nat
  nextOff : Nat
  total : Nat
  issued : Nat
  done : Nat
  skipped : Nat
  bytesIn : Nat
  bytesOut : Nat
  outVersion : Nat
  failSlice : Option Nat
  faultPc : Nat
  faultCode : Nat
  scrubs : Nat
  /-- Where its scratch and table copy begin in the job memory of the home Batch (R161, R175). -/
  pool : Nat
  table : List Byte
  tableVersion : Nat
  records : List Byte
  /-- The output object on flash: its extents, the groups not yet durable, and how far its commit is: 0 not begun,
  4 being coded, 1 being programmed, 2 accepted, 3 done. -/
  outExtents : List Extent
  outGroups : List Nat
  outPhase : Nat
  partials : List (List Byte)
  /-- The end the job runs to: END and status; none while it runs. -/
  ending : Option (Nat × Status)
  cancelWait : List Nat
deriving DecidableEq, Repr

/-! ## Rollers (07) -/

/-- STATE_C and STATE_D of RLR_PAIR. -/
inductive HalfState where
  | offline | idle | running | recovering | retired
deriving DecidableEq, Repr

structure RollerDesc where
  kind : Nat
  target : Nat
  layout : Nat
  blocks : Nat
  tenant : Nat
  inAddr : Nat
  outAddr : Nat
  outLen : Nat
  chain : Nat
  mapAddr : Nat
  doneAddr : Nat
  jobTag : Nat
deriving DecidableEq, Repr

/-- Who a Roller job works for (07 R262): the firmware, which gave a descriptor; a BLOCK_WRITE or APPEND; a direct service; the
output object of a job; a coded piece of a read command; or a slice buffer. -/
inductive RollerOwner where
  | firmware
  | write (tag : Nat)
  | direct (tag : Nat)
  | jobOut (slot : Nat)
  | read (tag idx : Nat)
  | slice (buf : Nat)
deriving DecidableEq, Repr

/-- A Roller job in a ring slot. -/
structure RollerJob where
  desc : RollerDesc
  order : Nat
  owner : RollerOwner
  /-- The staged input of a job that is not the firmware's: bucket code and bytes of each block. -/
  input : List (Nat × List Byte)
  /-- The blocks that nobody has started, in index order. -/
  todo : List Nat
  /-- Blocks finished, by anyone. -/
  finished : Nat
  /-- The staged output of a DECOMPRESS_DIRECT (01 R19). -/
  out : List (List Byte)
  /-- PACKED: the current buffer, its length and use, and the link it came from (0 for the first). -/
  buf : Nat
  bufLen : Nat
  used : Nat
  link : Nat
  links : Nat
  outBytes : Nat
  waiting : Bool
deriving DecidableEq, Repr

/-- Blocks of another pair's SLOT job that a thief codes: the job's slot, and the blocks. -/
structure StolenRange where
  job : Nat
  blocks : List Nat
deriving DecidableEq, Repr

/-- Job slots in the order they were filled, and the jobs that wait for a slot, each with the Loaf it is for (07 R262). -/
structure RollerQueue where
  order : Nat
  waits : List (Nat × RollerJob)
deriving DecidableEq, Repr

structure RollerPair where
  stC : HalfState
  stD : HalfState
  ring : AMap RollerJob
  stolen : List StolenRange
  errSlot : Nat
  errCode : Nat
  errNew : Bool
  errBlock : Nat
deriving DecidableEq, Repr

/-! ## Digest engines and keys (08) -/

/-- Who owns a message (08 R274). -/
inductive MsgOwner where
  | direct (tag : Nat)
  | raw (tag : Nat)
  | stream (handle : Nat)
  | crumb (k : CoreSel) (handle : Nat)
deriving DecidableEq, Repr

/-- A midstate record (08 R276): algorithm, byte count, state, partial block, HMAC flag and key slot number. -/
structure Midstate where
  alg : Nat
  count : Nat
  state : List Byte
  rest : List Byte
  hmac : Bool
  key : Nat
deriving DecidableEq, Repr

/-- A message: resident or waiting; bytes still to feed, bytes fed since the grant, busy or idle. -/
structure DigestMsg where
  id : Nat
  owner : MsgOwner
  engine : Nat
  resident : Bool
  busy : Bool
  idleSince : Nat
  fed : Nat
  total : Nat
  sinceGrant : Nat
  sinceCheck : Nat
  /-- It waits for a context although it has no bytes to feed: an empty message, or DGO, DGF or DGE of a core (R276). -/
  asks : Bool := false
  /-- The wait of a DGO has passed its limit (R277). -/
  expired : Bool := false
  /-- Bytes fed at the last checkpoint, and the midstate records in the owning stream context: of the last spill, and of the
  last checkpoint (R276, R279). -/
  check : Nat := 0
  record : Option Midstate := none
  checkRec : Option Midstate := none
deriving DecidableEq, Repr

/-- A Digest engine (DG_ENG, DG_ALARM). -/
structure DigestEngine where
  /-- 0 offline, 1 online, 2 recovering, 3 retired. -/
  st : Nat
  alarm : BitVec 4
deriving DecidableEq, Repr

structure Digests where
  engines : AMap DigestEngine
  msgs : List DigestMsg
  nextMsg : Nat
  clock : Nat
deriving DecidableEq, Repr

/-- A tenant or device key slot (08 R288). -/
structure Key where
  usage : BitVec 4
  key : List Byte
deriving DecidableEq, Repr

structure KeyStore where
  tenant : AMap Key
  fingerprints : AMap (List Byte)
  /-- D0 to D2. -/
  device : AMap Key
  d3Loaded : Bool
  /-- The previous D1, accepted during the overlap (12 R417). -/
  prevD1 : Option (List Byte)
deriving DecidableEq, Repr

/-! ## Sieve (09) -/

structure Bank where
  use : BitVec 2
  longest : Bool
  entries : AMap SieveEntry
  shadow : Option (Nat × SieveEntry)
  held : Bool
  /-- The firmware's copy of every entry (R329). -/
  copy : AMap SieveEntry
deriving DecidableEq, Repr

/-! ## In-package memory (11) -/

structure MergeEntry where
  block : Nat
  mask : BitVec 32
  data : BitVec 256
deriving DecidableEq, Repr

/-- How a memory request was answered: the block read, poisoned or not. -/
structure MemAnswer where
  id : Nat
  data : BitVec 256
  poison : Bool
deriving DecidableEq, Repr

/-- A pseudo-channel controller (MEM_PC). -/
structure MemCtrl where
  /-- 0 offline, 1 online, 2 failed. -/
  st : Nat
  double : Bool
  debt : Nat
  cause : Nat
  merge : List MergeEntry
  queue : List MemReq
  aged : List Nat
  lastPort : Nat
  uncorrectable : Nat
  answers : List MemAnswer
  /-- Requests held by a throttle pause before their row activate (R390). -/
  held : List Nat
deriving DecidableEq, Repr

/-- A stack (MEM_STACK). -/
structure MemStack where
  /-- 0 offline, 1 online, 2 lost. -/
  st : Nat
  /-- The band of the active delays, and the band of the temperature (R386). -/
  band : Nat
  tband : Nat
  temp : Int
  double : Bool
deriving DecidableEq, Repr

/-- A remap entry of MEM_REMAP. -/
structure Remap where
  st : Nat
  old : Nat
  new : Nat
deriving DecidableEq, Repr

structure PkgMem where
  /-- Data bytes by stack × 2^40 + stack address. -/
  bytes : Memory
  /-- Check word xor correct check word, by block (stack × 2^35 + stack address div 32); unlisted: clean. -/
  err : AMap (BitVec 32)
  ctrls : AMap MemCtrl
  memStacks : AMap MemStack
  remap : AMap Remap
  /-- Areas of 64 KiB of job memory, by Batch × 2^20 + offset div 2^16, that the allocator has put on lines that are not lost
  (R405). -/
  moved : List Nat
deriving DecidableEq, Repr

/-! ## Firon Link (12) -/

/-- A reliable frame sent and not acknowledged. -/
structure SentFrame where
  seq : Nat
  type : Nat
  payload : List Byte
  sends : Nat
deriving DecidableEq, Repr

structure Peer where
  /-- 0 Absent, 1 Up, 2 Suspect, 3 Lost. -/
  st : Nat
  vote : Bool
  late : Bool
  addr : BitVec 128
  macs : List Nat
  /-- The Ethernet port from which the next frame's port is looked for, in turn (R420). -/
  nextEth : Nat
  session : Reg
  nextSeq : Nat
  unacked : List SentFrame
  waiting : List (Nat × List Byte)
  ackRcv : Nat
  rcvd : List Nat
  sinceAck : Nat
  upMask : BitVec 32
  lostVote : BitVec 32
deriving DecidableEq, Repr

/-- What follows when a shard is durable: nothing, SHARD_DURABLE to its origin, or REPAIR_DONE with the lead that
asked for it (12 R429, R433). -/
inductive ShardAfter where
  | nothing
  | tellOrigin
  | repaired (lead : Nat)
deriving DecidableEq, Repr

/-- A shard this device holds: its 32-byte key, its chunks, the version record, and where it lies on flash. -/
structure Shard where
  key : List Byte
  chunks : AMap (List Byte)
  vrec : List Byte
  placed : Bool
  durable : Bool
  sectors : List Nat
  after : ShardAfter
deriving DecidableEq, Repr

/-- An override: a shard key and its new holder (R434). -/
structure Override where
  key : List Byte
  holder : Nat
deriving DecidableEq, Repr

/-- What shards are gathered for (R431, R433): a part of a command's read, a part of a slice, or a repair. -/
inductive GatherFor where
  | cmd (tag idx : Nat)
  | slice (buf off : Nat)
  | repair (lead : Nat)
deriving DecidableEq, Repr

/-- Shards of one stripe being gathered: the shards that would do by themselves, those asked for, those that came,
and, for a read, the byte range of the stripe it wants. -/
structure Gather where
  id : Nat
  owner : GatherFor
  key : List Byte
  vrec : List Byte
  info : GroupInfo
  need : List Nat
  asked : List Nat
  got : AMap (AMap (List Byte))
  lo : Nat
  hi : Nat
deriving DecidableEq, Repr

structure Firon where
  member : Nat
  enabled : Bool
  selfCfg : GroupSelf
  session : Reg
  peers : AMap Peer
  links : AMap Bool
  linkDown : AMap Bool
  shards : List Shard
  /-- This origin's shards sent or placed and not yet durable, and its versions in the Group, by key. -/
  pendingShards : List (List Byte)
  shipped : List (List Byte × GroupInfo)
  overrides : List Override
  /-- Releases not yet answered: holder and key (R430). -/
  releases : List (Nat × List Byte)
  gathers : List Gather
  nextGather : Nat
  /-- Stripes awaiting repair: shard keys (R434), and version records collected for adoption. -/
  repairs : List (List Byte)
  adopting : Option Nat
  vrecs : List (List Byte)
  /-- Members whose lists have not ended yet. -/
  vrecFrom : List Nat
  selfLost : Bool
deriving DecidableEq, Repr

/-! ## Housekeeping (14) -/

structure Sensor where
  temp : Int
  failed : Bool
  count : Nat
  read : Bool
deriving DecidableEq, Repr

/-- A card's sensor: its last reading in 1/16 °C. -/
structure CardTemp where
  temp : Int
  valid : Bool
  misses : Nat
deriving DecidableEq, Repr

structure Rail where
  mv : Nat
  current : Nat
  vBad : Bool
  cBad : Bool
  alarm : Bool
  vRead : Bool
  cRead : Bool
deriving DecidableEq, Repr

structure Housekeeping where
  /-- The channel to visit next; 128: the round has ended. -/
  next : Nat
  sensors : AMap Sensor
  cardTemps : AMap CardTemp
  stackRead : AMap Bool
  rails : AMap Rail
  tj : Int
  tjSensor : Nat
  step : Nat
  warn : Bool
  warnArmed : Bool
  trip : Bool
  coolRounds : Nat
  hotRounds : Nat
  evWarn : Bool
  evThrottle : Bool
  evSensor : Bool
  evRail : Bool
  evCcore : Bool
deriving DecidableEq, Repr

/-! ## The Dispatcher's turns -/

/-- The shares of fetching between functions (04 R136): what each function has been served, in fetches divided by weight
and times the common unit, and the level that a function without waiting commands has at least. -/
structure Dispatcher where
  level : Nat
  served : AMap Nat
deriving DecidableEq, Repr

/-- The memory of a Loaf (05 R158) but for deques and Roller ring, which stand with their Crumbs and Rollers: the program
images of its cache, oldest first, each with its tenant, and the descriptor cache's jobs with their window descriptors. -/
structure Loaf where
  images : List (Nat × Program)
  descs : List (Nat × List Reg)
deriving DecidableEq, Repr

/-- The Proofer: the job slot that issued the last slice read (05 R178), and the Loaf memories. -/
structure Proofer where
  turn : Nat
  loafs : AMap Loaf
deriving DecidableEq, Repr

/-! ## The whole device -/

/-- The state of the VK6410. -/
structure State where
  /-- The commands that are waiting, first in, first out. -/
  pending : List Instr
  modes : Modes
  boot : Boot
  cfg : Cfg
  evr : EvRecorder
  /-- Management registers that have no other home, by offset; unlisted: their reset value. -/
  regs : AMap Reg
  latches : AMap Latch
  /-- PCIE_BIF and MGMT_SEL as sampled. -/
  bifHigh : Bool
  mgmtSel : Bool
  hostA : HostPort
  hostB : HostPort
  fns : AMap FnPort
  tenants : AMap Tenant
  qps : List QueuePair
  cmds : List Cmd
  nextTag : Nat
  held : List Held
  disp : Dispatcher
  ctxs : List Ctx
  slotAllocs : AMap Nat
  versions : List Version
  commits : List Commit
  nextCommit : Nat
  records : List Record
  flash : Flash
  crumbs : AMap Crumb
  ctrls : AMap CtrlCore
  jobs : List Job
  bufs : List SliceBuf
  prf : Proofer
  rollers : AMap RollerPair
  rolls : RollerQueue
  ecuFailed : List Nat
  digests : Digests
  keys : KeyStore
  banks : AMap Bank
  mem : PkgMem
  firon : Firon
  hk : Housekeeping
  /-- The sideband's endpoint ID and dynamic address (15 R501). -/
  eid : Byte
  dynAddr : Option (BitVec 7)
  /-- What the block has sent, oldest first. -/
  tx : List Tx
  /-- How many free values have been taken: the model's own field. -/
  fresh : Nat
deriving DecidableEq, Repr

/-- A host port with its link down (15, HP_LINK). -/
def HostPort.reset : HostPort := ⟨false, 0, 0, false, false, false, 0, false, 0, 0⟩

/-- No setting of SET_SELF: UDP port 47,300 (12, FL_SELF). -/
def GroupSelf.reset : GroupSelf := ⟨0, 47300, 0, 0, []⟩

/-- A configuration image with nothing in it. -/
def CfgImage.reset : CfgImage := ⟨0, [], [], [], none⟩

/-- The machine right after the device reset is released: Starter (M2) has begun, as the reset value of DEV_MODE
says, and RESET_N_RELEASE carries out what Starter does. Every register holds the reset value the spec gives;
where it gives none, the value is a design choice (log entry 1). -/
def State.reset : State where
  pending := []
  modes := {
    mode := .starter, last := .starter, halt := false, haltCode := 0, running := false, powerFail := false
    quiesceReq := false, quiesceMaint := false, quiesceFw := false, maint := false, drained := false
    quiesceWait := [], maintWait := [], fwWait := none, fwSwitched := false, limit := 10
    cfgDefaulted := false, cfgCopyB := false, fwFallback := false, unclean := false, sanitizeResumed := false
    locked := false, qlimit := false, actFailed := false, timeMs := [], overlay := []
    auxOn := true, resetN := false, mainOk := true, parked := false, pwrFailN := true
    rootLock := false, rootLost := false, rootLol := false, lolCount := 0, serdesLock := [], serdesLol := false
    cause := 0, nextCause := 0, starts := 0 }
  boot := {
    selA := none, selB := none, keyA := none, keyB := none, parks := [], cfgA := none, cfgB := none
    retired := [], fwA := none, fwB := none, ops := [], powerCycle := 0, poweredOnS := 0 }
  cfg := {
    source := 0, failA := 0, failB := 0, image := CfgImage.reset, fwSlot := 0, fwActive := ⟨0, 0, 0, 0⟩
    fwPending := none, download := ⟨false, 0, 0, [], 0⟩, svnFused := 0, revoked := 0 }
  evr := {
    next := 1, ring := [], queued := [], circ := [], durableRun := 0, perm := [], windows := [], fetch := none
    done := false, buf := List.replicate 128 none, nonce := 0, clearWait := [] }
  regs := []
  latches := []
  bifHigh := false
  mgmtSel := false
  hostA := HostPort.reset
  hostB := HostPort.reset
  fns := []
  tenants := []
  qps := []
  cmds := []
  nextTag := 0
  held := []
  disp := { level := 0, served := [] }
  ctxs := []
  slotAllocs := []
  versions := []
  commits := []
  nextCommit := 0
  records := []
  flash := {
    cards := [], dies := [], chanRetry := [], sectors := [], rows := [], sets := [], reads := []
    nextSector := 0, nextRow := 0, nextSet := 0, nextRead := 0, nextGroup := 0, wear := [], bad := []
    clean := [], ops := [], stalled := [], roots := [], void := [], seq := 0, usable := 0, roWear := false, fullScan := false, nonce := 0
    health := ⟨0, 0, 0, 0, 0, 0, 0, 0, 0⟩ }
  crumbs := []
  ctrls := []
  jobs := []
  bufs := []
  prf := { turn := 0, loafs := [] }
  rollers := []
  rolls := { order := 0, waits := [] }
  ecuFailed := []
  digests := { engines := [], msgs := [], nextMsg := 0, clock := 0 }
  keys := { tenant := [], fingerprints := [], device := [], d3Loaded := false, prevD1 := none }
  banks := []
  mem := { bytes := [], err := [], ctrls := [], memStacks := [], remap := [], moved := [] }
  firon := {
    member := 0, enabled := false, selfCfg := GroupSelf.reset, session := 0, peers := [], links := []
    linkDown := [], shards := [], pendingShards := [], shipped := [], overrides := [], releases := [], gathers := [], nextGather := 0
    repairs := [], adopting := none, vrecs := [], vrecFrom := [], selfLost := false }
  hk := {
    next := 0, sensors := [], cardTemps := [], stackRead := [], rails := [], tj := 0, tjSensor := 0, step := 0
    warn := false, warnArmed := true, trip := false, coolRounds := 0, hotRounds := 0, evWarn := false
    evThrottle := false, evSensor := false, evRail := false, evCcore := false }
  eid := 0
  dynAddr := none
  tx := []
  fresh := 0

end Sys2Proof.Machine
end

