-- ==== Sys2Proof/Machine/Maps.lean ====
section
/-! DEFINITION. The operations on sparse tables (`AMap`): a table is a list of numbered entries with rising
numbers; an unlisted number holds the table's default. -/
namespace Sys2Proof.Machine

variable {α β : Type}

/-- The entry of a number, if the table lists it. -/
def AMap.look : AMap α → Nat → Option α
  | [], _ => none
  | (k, v) :: m, n => if k = n then some v else AMap.look m n

/-- The entry of a number, or the default. -/
def AMap.lookD (m : AMap α) (n : Nat) (d : α) : α := (AMap.look m n).getD d

/-- Is the number listed? -/
def AMap.has (m : AMap α) (n : Nat) : Bool := (AMap.look m n).isSome

/-- Lists a number with an entry, in the place its number has. -/
def AMap.put : AMap α → Nat → α → AMap α
  | [], n, a => [(n, a)]
  | (k, v) :: m, n, a => if k < n then (k, v) :: AMap.put m n a else if k = n then (n, a) :: m else (n, a) :: (k, v) :: m

/-- Takes a number out of the table. -/
def AMap.del : AMap α → Nat → AMap α
  | [], _ => []
  | (k, v) :: m, n => if k = n then AMap.del m n else (k, v) :: AMap.del m n

/-- Changes the entry of a number, starting from the default when it is not listed. -/
def AMap.upd (m : AMap α) (n : Nat) (d : α) (f : α → α) : AMap α := AMap.put m n (f (AMap.lookD m n d))

/-- Changes the entry of a number the table lists. -/
def AMap.adj (m : AMap α) (n : Nat) (f : α → α) : AMap α := m.map fun e => if e.1 = n then (e.1, f e.2) else e

/-- Changes every entry. -/
def AMap.mapVal (m : AMap α) (f : Nat → α → α) : AMap α := List.map (fun e => (e.1, f e.1 e.2)) m

/-- The listed entries. -/
def AMap.vals (m : AMap α) : List α := List.map Prod.snd m

/-- The least of `n` numbers from `k` on that a test passes. -/
def firstFrom (p : Nat → Bool) : Nat → Nat → Option Nat
  | 0, _ => none
  | n + 1, k => if p k then some k else firstFrom p n (k + 1)

/-- The least number from 0 below the bound that a test passes. -/
def firstBelow (n : Nat) (p : Nat → Bool) : Option Nat := firstFrom p n 0

/-- Changes the elements that pass a test. -/
def adjWhere (l : List α) (p : α → Bool) (f : α → α) : List α := l.map fun a => if p a then f a else a

/-- The element with the least measure, the first of several. -/
def leastBy (l : List α) (f : α → Nat) : Option α :=
  l.foldl (fun best a => match best with
    | none => some a
    | some b => if f a < f b then some a else best) none

/-- The element with the greatest measure, the first of several. -/
def greatestBy (l : List α) (f : α → Nat) : Option α :=
  l.foldl (fun best a => match best with
    | none => some a
    | some b => if f b < f a then some a else best) none

/-- Puts an element into a list sorted by a measure, behind those with an equal one. -/
def insertBy (f : α → Nat) (a : α) : List α → List α
  | [] => [a]
  | b :: l => if f a < f b then a :: b :: l else b :: insertBy f a l

/-- Sorts by a measure, keeping the order of equals. -/
def sortBy (f : α → Nat) (l : List α) : List α := l.foldl (fun out a => insertBy f a out) []

end Sys2Proof.Machine
end

