-- ==== Sys2Proof/Machine/RegTable.lean ====
section
/-! DEFINITION. The register table of the management space, as the chapters give it: names, offsets, access
types and ranges (00 R9 to R13, and the register tables of 01, 04, 05, 07 to 15). -/
namespace Sys2Proof.Machine

/-- The access types of 00 R9. -/
inductive Access where
  | ro | rw | w1c | wo | rwl | rc
deriving DecidableEq, Repr

/-- A register field: its bits, access type and the range of values it takes (reserved bits have no field). -/
structure FieldDef where
  hi : Nat
  lo : Nat
  acc : Access
  min : Nat
  max : Nat
deriving DecidableEq, Repr

/-- The registers of the management space. -/
inductive RegName where
  | devId | devMode | devFlags | devStatus | devCtrl | devTime | devModeCnt | cfgStatus | cfgImageId
  | cfgFwActive | cfgFwPending | cfgSvn | cfgQuiesce | cfgDlBytes | clkStatus | clkReset | hkStatus | hkEvents
  | hkTemp | hkCal | hkCardTemp | hkRail | hkCcore | evrNext | evrOldest | evrPerm | evrFetch | evrFetchStatus
  | evrNonce | evrCnt | fnCtxFree | fnCtxUnusedResv | fnCtxExhausted | fnState | fnGen | fnLateA | fnLateB
  | fnCtxHeld | fnShLimits | fnShCtx | fnShResv | fnShInact | fnShSieve | fnDlogHead | fnActLimits | fnActCtx
  | fnActResv | fnActInact | fnActSieve | prfCfg | prfStatus | prfCnt | crbState | crbCtrl | svBankCfg
  | svBankStat | svPrivCap | svCnt | svFwtop | svPclass | dgCfg | dgCnt | dgEng | dgAlarm | dgCtrl | ksStatus
  | ksFail | ksSlot | rlrCfg | rlrStatus | rlrResume | rlrCnt | rlrPair | rlrErr | rlrCtrl | ftCfg | ftStatus
  | ftSpare | ftSeq | ftNonce | ftCnt | fchCard | fchCardCtrl | fchCardErr | fchChan | memCfg | memStatus
  | memRef | memQos | memHash | memCnt | memStack | memStackCtrl | memFuse | memPc | memDly | memDlyAct
  | memRemap | flTimers | flCfg | flSelf | flGroup | flView | flLost | flRepair | flCnt | flPeer | flPort
  | hpLink | hpCnt | hpStrap
deriving DecidableEq, Repr

/-- A register, or an array of registers: the first offset, the distance between elements, their number, the
width in bytes, the reset value of element 0 where it is a constant, and the fields that are not reserved. -/
structure RegDef where
  name : RegName
  base : Nat
  stride : Nat
  count : Nat
  width : Nat
  reset : Nat
  fields : List FieldDef
deriving DecidableEq, Repr

/-- Registers 1 to 12 of the table, in offset order. -/
def regDefs0 : List RegDef := [
  ⟨.devId, 0x0, 0, 1, 4, 0x0, [⟨15, 0, .ro, 0, 65535⟩, ⟨23, 16, .ro, 0, 255⟩, ⟨24, 24, .ro, 0, 1⟩]⟩,
  ⟨.devMode, 0x4, 0, 1, 4, 0x202, [⟨3, 0, .ro, 0, 15⟩, ⟨11, 8, .ro, 0, 15⟩, ⟨16, 16, .ro, 0, 1⟩, ⟨23, 20, .ro, 0, 15⟩]⟩,
  ⟨.devFlags, 0x8, 0, 1, 4, 0x0, [⟨0, 0, .ro, 0, 1⟩, ⟨1, 1, .ro, 0, 1⟩, ⟨2, 2, .ro, 0, 1⟩, ⟨3, 3, .ro, 0, 1⟩, ⟨4, 4, .ro, 0, 1⟩, ⟨5, 5, .ro, 0, 1⟩, ⟨6, 6, .ro, 0, 1⟩, ⟨8, 8, .ro, 0, 1⟩, ⟨9, 9, .ro, 0, 1⟩, ⟨12, 12, .ro, 0, 1⟩, ⟨13, 13, .ro, 0, 1⟩, ⟨14, 14, .ro, 0, 1⟩, ⟨15, 15, .ro, 0, 1⟩]⟩,
  ⟨.devStatus, 0xC, 0, 1, 4, 0x0, [⟨0, 0, .ro, 0, 1⟩, ⟨1, 1, .ro, 0, 1⟩, ⟨2, 2, .ro, 0, 1⟩, ⟨3, 3, .ro, 0, 1⟩, ⟨4, 4, .ro, 0, 1⟩, ⟨5, 5, .ro, 0, 1⟩, ⟨6, 6, .w1c, 0, 1⟩, ⟨7, 7, .w1c, 0, 1⟩]⟩,
  ⟨.devCtrl, 0x10, 0, 1, 4, 0x0, [⟨0, 0, .wo, 0, 1⟩, ⟨1, 1, .wo, 0, 1⟩]⟩,
  ⟨.devTime, 0x20, 4, 3, 4, 0x0, [⟨31, 0, .ro, 0, 4294967295⟩]⟩,
  ⟨.devModeCnt, 0x30, 0, 1, 4, 0x0, [⟨31, 0, .rc, 0, 4294967295⟩]⟩,
  ⟨.cfgStatus, 0x100000, 0, 1, 4, 0x0, [⟨1, 0, .ro, 0, 3⟩, ⟨7, 4, .ro, 0, 15⟩, ⟨11, 8, .ro, 0, 15⟩, ⟨12, 12, .ro, 0, 1⟩, ⟨13, 13, .ro, 0, 1⟩, ⟨14, 14, .ro, 0, 1⟩, ⟨15, 15, .ro, 0, 1⟩, ⟨19, 16, .ro, 0, 15⟩]⟩,
  ⟨.cfgImageId, 0x100004, 0, 1, 4, 0x0, [⟨31, 0, .ro, 0, 4294967295⟩]⟩,
  ⟨.cfgFwActive, 0x100008, 0, 1, 8, 0x0, [⟨63, 0, .ro, 0, 18446744073709551615⟩]⟩,
  ⟨.cfgFwPending, 0x100010, 0, 1, 8, 0x0, [⟨63, 0, .ro, 0, 18446744073709551615⟩]⟩,
  ⟨.cfgSvn, 0x100018, 0, 1, 4, 0x0, [⟨5, 0, .ro, 0, 63⟩, ⟨13, 8, .ro, 0, 63⟩, ⟨19, 16, .ro, 0, 15⟩]⟩]

/-- Registers 13 to 24 of the table, in offset order. -/
def regDefs1 : List RegDef := [
  ⟨.cfgQuiesce, 0x10001C, 0, 1, 4, 0xA, [⟨11, 0, .rw, 1, 3600⟩]⟩,
  ⟨.cfgDlBytes, 0x100020, 0, 1, 4, 0x0, [⟨31, 0, .ro, 0, 4294967295⟩]⟩,
  ⟨.clkStatus, 0x200000, 0, 1, 4, 0x0, [⟨0, 0, .ro, 0, 1⟩, ⟨1, 1, .ro, 0, 1⟩, ⟨2, 2, .ro, 0, 1⟩, ⟨6, 3, .ro, 0, 15⟩, ⟨8, 8, .w1c, 0, 1⟩, ⟨9, 9, .w1c, 0, 1⟩, ⟨23, 16, .ro, 0, 255⟩]⟩,
  ⟨.clkReset, 0x200004, 0, 1, 4, 0x0, [⟨3, 0, .ro, 0, 15⟩, ⟨15, 8, .ro, 0, 255⟩]⟩,
  ⟨.hkStatus, 0x300000, 0, 1, 4, 0x0, [⟨10, 0, .ro, 0, 2047⟩, ⟨15, 12, .ro, 0, 15⟩, ⟨16, 16, .ro, 0, 1⟩, ⟨17, 17, .ro, 0, 1⟩, ⟨29, 24, .ro, 0, 63⟩]⟩,
  ⟨.hkEvents, 0x300004, 0, 1, 4, 0x0, [⟨0, 0, .w1c, 0, 1⟩, ⟨1, 1, .w1c, 0, 1⟩, ⟨2, 2, .w1c, 0, 1⟩, ⟨3, 3, .w1c, 0, 1⟩, ⟨4, 4, .w1c, 0, 1⟩]⟩,
  ⟨.hkTemp, 0x300100, 4, 48, 4, 0x0, [⟨10, 0, .ro, 0, 2047⟩, ⟨15, 15, .ro, 0, 1⟩, ⟨31, 16, .ro, 0, 65535⟩]⟩,
  ⟨.hkCal, 0x300200, 8, 48, 8, 0x0, [⟨15, 0, .ro, 0, 65535⟩, ⟨31, 16, .ro, 0, 65535⟩, ⟨39, 32, .ro, 0, 255⟩, ⟨47, 40, .ro, 0, 255⟩]⟩,
  ⟨.hkCardTemp, 0x300400, 4, 24, 4, 0x0, [⟨10, 0, .ro, 0, 2047⟩, ⟨15, 15, .ro, 0, 1⟩]⟩,
  ⟨.hkRail, 0x300500, 4, 12, 4, 0x0, [⟨15, 0, .ro, 0, 65535⟩, ⟨31, 16, .ro, 0, 65535⟩]⟩,
  ⟨.hkCcore, 0x300600, 4, 4, 4, 0x0, [⟨1, 0, .ro, 0, 3⟩, ⟨15, 8, .ro, 0, 255⟩]⟩,
  ⟨.evrNext, 0x400000, 0, 1, 8, 0x0, [⟨47, 0, .ro, 0, 281474976710655⟩]⟩]

/-- Registers 25 to 36 of the table, in offset order. -/
def regDefs2 : List RegDef := [
  ⟨.evrOldest, 0x400008, 0, 1, 8, 0x0, [⟨47, 0, .ro, 0, 281474976710655⟩]⟩,
  ⟨.evrPerm, 0x400010, 0, 1, 4, 0x0, [⟨12, 0, .ro, 0, 8191⟩]⟩,
  ⟨.evrFetch, 0x400018, 0, 1, 8, 0x0, [⟨47, 0, .wo, 0, 281474976710655⟩, ⟨63, 63, .wo, 0, 1⟩]⟩,
  ⟨.evrFetchStatus, 0x400020, 0, 1, 4, 0x0, [⟨0, 0, .ro, 0, 1⟩, ⟨1, 1, .w1c, 0, 1⟩]⟩,
  ⟨.evrNonce, 0x400028, 0, 1, 8, 0x0, [⟨63, 0, .ro, 0, 18446744073709551615⟩]⟩,
  ⟨.evrCnt, 0x400040, 4, 4, 4, 0x0, [⟨31, 0, .rc, 0, 4294967295⟩]⟩,
  ⟨.fnCtxFree, 0x800000, 0, 1, 4, 0x40000, [⟨18, 0, .ro, 0, 524287⟩]⟩,
  ⟨.fnCtxUnusedResv, 0x800004, 0, 1, 4, 0x0, [⟨18, 0, .ro, 0, 524287⟩]⟩,
  ⟨.fnCtxExhausted, 0x800008, 0, 1, 4, 0x0, [⟨31, 0, .rc, 0, 4294967295⟩]⟩,
  ⟨.fnState, 0x840000, 1024, 4096, 4, 0x0, [⟨1, 0, .ro, 0, 3⟩, ⟨2, 2, .ro, 0, 1⟩, ⟨3, 3, .ro, 0, 1⟩, ⟨4, 4, .ro, 0, 1⟩, ⟨5, 5, .w1c, 0, 1⟩, ⟨15, 8, .ro, 0, 255⟩]⟩,
  ⟨.fnGen, 0x840004, 1024, 4096, 4, 0x0, [⟨15, 0, .ro, 0, 65535⟩, ⟨31, 16, .ro, 0, 65535⟩]⟩,
  ⟨.fnLateA, 0x840008, 1024, 4096, 4, 0x0, [⟨31, 0, .rc, 0, 4294967295⟩]⟩]

/-- Registers 37 to 48 of the table, in offset order. -/
def regDefs3 : List RegDef := [
  ⟨.fnLateB, 0x84000C, 1024, 4096, 4, 0x0, [⟨31, 0, .rc, 0, 4294967295⟩]⟩,
  ⟨.fnCtxHeld, 0x840010, 1024, 4096, 4, 0x0, [⟨18, 0, .ro, 0, 524287⟩]⟩,
  ⟨.fnShLimits, 0x840020, 1024, 4096, 4, 0x1010, [⟨6, 0, .rw, 0, 127⟩, ⟨15, 8, .rw, 0, 255⟩]⟩,
  ⟨.fnShCtx, 0x840024, 1024, 4096, 4, 0x40, [⟨18, 0, .rw, 0, 524287⟩]⟩,
  ⟨.fnShResv, 0x840028, 1024, 4096, 4, 0x0, [⟨18, 0, .rw, 0, 524287⟩]⟩,
  ⟨.fnShInact, 0x84002C, 1024, 4096, 4, 0x7530, [⟨21, 0, .rw, 0, 4194303⟩]⟩,
  ⟨.fnShSieve, 0x840030, 1024, 4096, 4, 0x0, [⟨16, 0, .rw, 0, 131071⟩]⟩,
  ⟨.fnDlogHead, 0x840040, 1024, 4096, 4, 0x0, [⟨19, 0, .rw, 0, 1048575⟩]⟩,
  ⟨.fnActLimits, 0x8400A0, 1024, 4096, 4, 0x1010, [⟨6, 0, .ro, 0, 127⟩, ⟨15, 8, .ro, 0, 255⟩]⟩,
  ⟨.fnActCtx, 0x8400A4, 1024, 4096, 4, 0x40, [⟨18, 0, .ro, 0, 524287⟩]⟩,
  ⟨.fnActResv, 0x8400A8, 1024, 4096, 4, 0x0, [⟨18, 0, .ro, 0, 524287⟩]⟩,
  ⟨.fnActInact, 0x8400AC, 1024, 4096, 4, 0x7530, [⟨21, 0, .ro, 0, 4194303⟩]⟩]

/-- Registers 49 to 60 of the table, in offset order. -/
def regDefs4 : List RegDef := [
  ⟨.fnActSieve, 0x8400B0, 1024, 4096, 4, 0x0, [⟨16, 0, .ro, 0, 131071⟩]⟩,
  ⟨.prfCfg, 0x1000000, 0, 1, 4, 0x40432, [⟨7, 0, .rw, 20, 200⟩, ⟨15, 8, .rw, 1, 64⟩, ⟨21, 16, .rw, 2, 32⟩]⟩,
  ⟨.prfStatus, 0x1000004, 0, 1, 4, 0x0, [⟨10, 0, .ro, 0, 2047⟩, ⟨28, 16, .ro, 0, 8191⟩]⟩,
  ⟨.prfCnt, 0x1000010, 4, 6, 4, 0x0, [⟨31, 0, .rc, 0, 4294967295⟩]⟩,
  ⟨.crbState, 0x1100000, 8, 1024, 4, 0x0, [⟨2, 0, .ro, 0, 7⟩, ⟨9, 4, .ro, 0, 63⟩, ⟨28, 16, .ro, 0, 8191⟩]⟩,
  ⟨.crbCtrl, 0x1100004, 8, 1024, 4, 0x0, [⟨0, 0, .wo, 0, 1⟩, ⟨1, 1, .wo, 0, 1⟩]⟩,
  ⟨.svBankCfg, 0x1800000, 16, 4, 4, 0x0, [⟨1, 0, .rw, 0, 3⟩, ⟨4, 4, .rw, 0, 1⟩]⟩,
  ⟨.svBankStat, 0x1800004, 16, 4, 4, 0x0, [⟨16, 0, .ro, 0, 131071⟩, ⟨31, 31, .ro, 0, 1⟩]⟩,
  ⟨.svPrivCap, 0x1800040, 0, 1, 4, 0x20000, [⟨17, 0, .ro, 0, 262143⟩]⟩,
  ⟨.svCnt, 0x1800100, 4, 8, 4, 0x0, [⟨31, 0, .rc, 0, 4294967295⟩]⟩,
  ⟨.svFwtop, 0x1800200, 4, 4, 4, 0x0, [⟨15, 0, .rw, 0, 65535⟩]⟩,
  ⟨.svPclass, 0x1801000, 4, 64, 4, 0x4, [⟨2, 0, .rw, 0, 7⟩, ⟨3, 3, .rw, 0, 1⟩, ⟨6, 4, .rw, 0, 4⟩, ⟨9, 8, .rw, 0, 3⟩, ⟨14, 10, .rw, 0, 31⟩, ⟨18, 16, .rw, 0, 7⟩]⟩]

/-- Registers 61 to 72 of the table, in offset order. -/
def regDefs5 : List RegDef := [
  ⟨.dgCfg, 0x1C00000, 0, 1, 4, 0x400064, [⟨15, 0, .rw, 10, 10000⟩, ⟨23, 16, .rw, 16, 255⟩]⟩,
  ⟨.dgCnt, 0x1C00010, 4, 6, 4, 0x0, [⟨31, 0, .rc, 0, 4294967295⟩]⟩,
  ⟨.dgEng, 0x1C00100, 16, 4, 4, 0x0, [⟨2, 0, .ro, 0, 7⟩, ⟨10, 4, .ro, 0, 127⟩, ⟨23, 12, .ro, 0, 4095⟩]⟩,
  ⟨.dgAlarm, 0x1C00104, 16, 4, 4, 0x0, [⟨0, 0, .w1c, 0, 1⟩, ⟨1, 1, .w1c, 0, 1⟩, ⟨2, 2, .w1c, 0, 1⟩, ⟨3, 3, .w1c, 0, 1⟩]⟩,
  ⟨.dgCtrl, 0x1C00108, 16, 4, 4, 0x0, [⟨0, 0, .wo, 0, 1⟩, ⟨1, 1, .wo, 0, 1⟩]⟩,
  ⟨.ksStatus, 0x1D00000, 0, 1, 4, 0x0, [⟨3, 0, .ro, 0, 15⟩, ⟨29, 16, .ro, 0, 16383⟩]⟩,
  ⟨.ksFail, 0x1D00004, 0, 1, 4, 0x0, [⟨31, 0, .rc, 0, 4294967295⟩]⟩,
  ⟨.ksSlot, 0x1D01000, 4, 8192, 4, 0x0, [⟨0, 0, .ro, 0, 1⟩, ⟨1, 1, .ro, 0, 1⟩, ⟨3, 2, .ro, 0, 3⟩, ⟨11, 8, .ro, 0, 15⟩]⟩,
  ⟨.rlrCfg, 0x1E00000, 0, 1, 4, 0x141003E8, [⟨15, 0, .rw, 100, 65535⟩, ⟨23, 16, .rw, 2, 255⟩, ⟨31, 24, .rw, 5, 200⟩]⟩,
  ⟨.rlrStatus, 0x1E00004, 0, 1, 4, 0x0, [⟨6, 0, .ro, 0, 127⟩, ⟨14, 8, .ro, 0, 127⟩, ⟨28, 16, .ro, 0, 8191⟩]⟩,
  ⟨.rlrResume, 0x1E00008, 0, 1, 4, 0x0, [⟨11, 0, .wo, 0, 4095⟩]⟩,
  ⟨.rlrCnt, 0x1E00010, 4, 11, 4, 0x0, [⟨31, 0, .rc, 0, 4294967295⟩]⟩]

/-- Registers 73 to 84 of the table, in offset order. -/
def regDefs6 : List RegDef := [
  ⟨.rlrPair, 0x1E01000, 16, 64, 4, 0x0, [⟨2, 0, .ro, 0, 7⟩, ⟨6, 4, .ro, 0, 7⟩, ⟨14, 8, .ro, 0, 127⟩]⟩,
  ⟨.rlrErr, 0x1E01004, 16, 64, 4, 0x0, [⟨11, 0, .ro, 0, 4095⟩, ⟨13, 12, .ro, 0, 3⟩, ⟨15, 15, .w1c, 0, 1⟩, ⟨27, 16, .ro, 0, 4095⟩]⟩,
  ⟨.rlrCtrl, 0x1E01008, 16, 64, 4, 0x0, [⟨0, 0, .wo, 0, 1⟩, ⟨1, 1, .wo, 0, 1⟩, ⟨2, 2, .wo, 0, 1⟩, ⟨3, 3, .wo, 0, 1⟩]⟩,
  ⟨.ftCfg, 0x2000000, 0, 1, 4, 0x641E5214, [⟨7, 0, .rw, 5, 200⟩, ⟨10, 8, .rw, 0, 7⟩, ⟨14, 12, .rw, 0, 7⟩, ⟨23, 16, .rw, 1, 255⟩, ⟨31, 24, .rw, 100, 200⟩]⟩,
  ⟨.ftStatus, 0x2000004, 0, 1, 4, 0x0, [⟨4, 0, .ro, 0, 31⟩, ⟨8, 8, .ro, 0, 1⟩, ⟨9, 9, .ro, 0, 1⟩, ⟨10, 10, .ro, 0, 1⟩, ⟨11, 11, .ro, 0, 1⟩, ⟨12, 12, .ro, 0, 1⟩]⟩,
  ⟨.ftSpare, 0x2000008, 0, 1, 4, 0x0, [⟨7, 0, .ro, 0, 255⟩, ⟨15, 8, .ro, 0, 255⟩]⟩,
  ⟨.ftSeq, 0x2000010, 0, 1, 8, 0x0, [⟨63, 0, .ro, 0, 18446744073709551615⟩]⟩,
  ⟨.ftNonce, 0x2000018, 0, 1, 8, 0x0, [⟨63, 0, .ro, 0, 18446744073709551615⟩]⟩,
  ⟨.ftCnt, 0x2000100, 4, 10, 4, 0x0, [⟨31, 0, .rc, 0, 4294967295⟩]⟩,
  ⟨.fchCard, 0x2800000, 16, 24, 4, 0x0, [⟨3, 0, .ro, 0, 15⟩, ⟨5, 4, .ro, 0, 3⟩, ⟨13, 8, .ro, 0, 63⟩, ⟨23, 16, .ro, 0, 255⟩]⟩,
  ⟨.fchCardCtrl, 0x2800004, 16, 24, 4, 0x0, [⟨0, 0, .wo, 0, 1⟩, ⟨1, 1, .wo, 0, 1⟩]⟩,
  ⟨.fchCardErr, 0x2800008, 16, 24, 4, 0x0, [⟨0, 0, .w1c, 0, 1⟩, ⟨1, 1, .w1c, 0, 1⟩, ⟨2, 2, .w1c, 0, 1⟩, ⟨3, 3, .w1c, 0, 1⟩]⟩]

/-- Registers 85 to 96 of the table, in offset order. -/
def regDefs7 : List RegDef := [
  ⟨.fchChan, 0x2810000, 8, 192, 4, 0x0, [⟨1, 0, .ro, 0, 3⟩, ⟨13, 8, .ro, 0, 63⟩, ⟨19, 16, .ro, 0, 15⟩]⟩,
  ⟨.memCfg, 0x3000000, 0, 1, 4, 0x4300A18, [⟨7, 0, .rw, 1, 255⟩, ⟨15, 8, .rw, 1, 255⟩, ⟨21, 16, .rw, 16, 63⟩, ⟨27, 24, .rw, 1, 15⟩]⟩,
  ⟨.memStatus, 0x3000004, 0, 1, 4, 0x0, [⟨3, 0, .ro, 0, 15⟩, ⟨12, 4, .ro, 0, 511⟩, ⟨13, 13, .ro, 0, 1⟩, ⟨23, 16, .ro, 0, 255⟩]⟩,
  ⟨.memRef, 0x3000008, 0, 1, 4, 0x53558F3C, [⟨11, 0, .rw, 1000, 3900⟩, ⟨15, 12, .rw, 1, 8⟩, ⟨23, 16, .rw, 70, 95⟩, ⟨27, 24, .rw, 1, 10⟩, ⟨30, 28, .rw, 0, 7⟩]⟩,
  ⟨.memQos, 0x300000C, 0, 1, 4, 0x84BDAA, [⟨2, 0, .rw, 0, 7⟩, ⟨5, 3, .rw, 0, 7⟩, ⟨8, 6, .rw, 0, 7⟩, ⟨11, 9, .rw, 0, 7⟩, ⟨14, 12, .rw, 0, 7⟩, ⟨17, 15, .rw, 0, 7⟩, ⟨20, 18, .rw, 0, 7⟩, ⟨23, 21, .rw, 0, 7⟩]⟩,
  ⟨.memHash, 0x3000010, 8, 6, 8, 0x8208000, [⟨35, 0, .rwl, 0, 68719476735⟩]⟩,
  ⟨.memCnt, 0x3000080, 4, 10, 4, 0x0, [⟨31, 0, .rc, 0, 4294967295⟩]⟩,
  ⟨.memStack, 0x3000100, 16, 8, 4, 0x0, [⟨1, 0, .ro, 0, 3⟩, ⟨6, 4, .ro, 0, 7⟩, ⟨15, 8, .ro, 0, 255⟩, ⟨16, 16, .ro, 0, 1⟩, ⟨22, 17, .ro, 0, 63⟩]⟩,
  ⟨.memStackCtrl, 0x3000104, 16, 8, 4, 0x0, [⟨0, 0, .wo, 0, 1⟩, ⟨6, 4, .wo, 0, 7⟩]⟩,
  ⟨.memFuse, 0x3010000, 4, 1320, 4, 0x0, [⟨31, 0, .ro, 0, 4294967295⟩]⟩,
  ⟨.memPc, 0x3020000, 16, 256, 4, 0x0, [⟨1, 0, .ro, 0, 3⟩, ⟨2, 2, .ro, 0, 1⟩, ⟨8, 4, .ro, 0, 31⟩, ⟨15, 9, .ro, 0, 127⟩, ⟨17, 16, .ro, 0, 3⟩]⟩,
  ⟨.memDly, 0x3020004, 16, 256, 4, 0x0, [⟨5, 0, .rw, 0, 63⟩, ⟨13, 8, .rw, 0, 63⟩, ⟨21, 16, .rw, 0, 63⟩, ⟨26, 24, .rw, 0, 7⟩]⟩]

/-- Registers 97 to 108 of the table, in offset order. -/
def regDefs8 : List RegDef := [
  ⟨.memDlyAct, 0x3020008, 16, 256, 4, 0x0, [⟨31, 0, .ro, 0, 4294967295⟩]⟩,
  ⟨.memRemap, 0x3040000, 8, 32768, 8, 0x0, [⟨1, 0, .rw, 0, 3⟩, ⟨31, 8, .rw, 0, 16777215⟩, ⟨55, 32, .rw, 0, 16777215⟩]⟩,
  ⟨.flTimers, 0x3800000, 0, 1, 4, 0xA32020A, [⟨7, 0, .rw, 1, 255⟩, ⟨15, 8, .rw, 1, 255⟩, ⟨23, 16, .rw, 5, 255⟩, ⟨31, 24, .rw, 1, 255⟩]⟩,
  ⟨.flCfg, 0x3800004, 0, 1, 4, 0x3C81020A, [⟨7, 0, .rw, 1, 255⟩, ⟨15, 8, .rw, 1, 255⟩, ⟨18, 16, .rw, 1, 4⟩, ⟨23, 20, .rw, 1, 15⟩, ⟨31, 24, .rw, 0, 255⟩]⟩,
  ⟨.flSelf, 0x3800008, 0, 1, 4, 0xB8C40000, [⟨4, 0, .ro, 0, 31⟩, ⟨8, 8, .ro, 0, 1⟩, ⟨31, 16, .ro, 0, 65535⟩]⟩,
  ⟨.flGroup, 0x380000C, 0, 1, 4, 0x0, [⟨31, 0, .ro, 0, 4294967295⟩]⟩,
  ⟨.flView, 0x3800010, 0, 1, 4, 0x0, [⟨31, 0, .ro, 0, 4294967295⟩]⟩,
  ⟨.flLost, 0x3800014, 0, 1, 4, 0x0, [⟨31, 0, .ro, 0, 4294967295⟩]⟩,
  ⟨.flRepair, 0x3800018, 0, 1, 4, 0x0, [⟨31, 0, .ro, 0, 4294967295⟩]⟩,
  ⟨.flCnt, 0x3800100, 4, 13, 4, 0x0, [⟨31, 0, .rc, 0, 4294967295⟩]⟩,
  ⟨.flPeer, 0x3801000, 16, 32, 4, 0x0, [⟨1, 0, .ro, 0, 3⟩, ⟨2, 2, .ro, 0, 1⟩, ⟨3, 3, .ro, 0, 1⟩, ⟨13, 8, .ro, 0, 63⟩, ⟨19, 16, .ro, 0, 15⟩]⟩,
  ⟨.flPort, 0x3802000, 16, 4, 4, 0x0, [⟨0, 0, .ro, 0, 1⟩, ⟨1, 1, .w1c, 0, 1⟩]⟩]

/-- Registers 109 to 111 of the table, in offset order. -/
def regDefs9 : List RegDef := [
  ⟨.hpLink, 0x3C00000, 16, 2, 4, 0x0, [⟨0, 0, .ro, 0, 1⟩, ⟨3, 1, .ro, 0, 7⟩, ⟨4, 4, .ro, 0, 1⟩, ⟨9, 5, .ro, 0, 31⟩, ⟨10, 10, .ro, 0, 1⟩, ⟨16, 16, .w1c, 0, 1⟩]⟩,
  ⟨.hpCnt, 0x3C00100, 4, 12, 4, 0x0, [⟨31, 0, .rc, 0, 4294967295⟩]⟩,
  ⟨.hpStrap, 0x3C00200, 0, 1, 4, 0x0, [⟨0, 0, .ro, 0, 1⟩, ⟨1, 1, .ro, 0, 1⟩]⟩]

/-- The whole table. -/
def regDefs : List RegDef := regDefs0 ++ regDefs1 ++ regDefs2 ++ regDefs3 ++ regDefs4 ++ regDefs5 ++ regDefs6 ++ regDefs7 ++ regDefs8 ++ regDefs9

/-- Does the offset name an element of this register? -/
def RegDef.holds (d : RegDef) (off : Nat) : Bool :=
  d.base ≤ off && (if d.stride = 0 then off < d.base + d.width
    else (off - d.base) / d.stride < d.count && (off - d.base) % d.stride < d.width)

/-- The register an offset lies in (00 R13: an access names the register that holds its bytes). -/
def regAt (off : Nat) : Option RegDef := regDefs.find? fun d => d.holds off

/-- The index of the element an offset lies in. -/
def RegDef.idx (d : RegDef) (off : Nat) : Nat := if d.stride = 0 then 0 else (off - d.base) / d.stride

/-- The offset of an element. -/
def RegDef.offset (d : RegDef) (i : Nat) : Nat := d.base + d.stride * i

/-- The register of a name. -/
def regDef (n : RegName) : RegDef :=
  ((regDefs.find? fun d => d.name == n)).getD ⟨n, 0, 0, 1, 4, 0, []⟩

/-- The reset value of an element: MEM_HASH's is shifted left by its number (11), every other array's is one value. -/
def RegDef.resetOf (d : RegDef) (i : Nat) : Reg :=
  if d.name = .memHash then BitVec.ofNat 64 (d.reset <<< i) else BitVec.ofNat 64 d.reset

/-- The mask of a field. -/
def FieldDef.mask (f : FieldDef) : Reg := BitVec.ofNat 64 ((2 ^ (f.hi + 1 - f.lo) - 1) <<< f.lo)

/-- The mask of a register's fields of given access types. -/
def RegDef.maskOf (d : RegDef) (p : Access → Bool) : Reg :=
  d.fields.foldl (fun m f => if p f.acc then m ||| f.mask else m) 0

/-- The value a field has in a register value. -/
def FieldDef.get (f : FieldDef) (v : Reg) : Nat := bitsIn v.toNat f.hi f.lo
where
  bitsIn (v hi lo : Nat) : Nat := v / 2 ^ lo % 2 ^ (hi + 1 - lo)

/-- Does every RW and RWL field of the value lie within its range? -/
def RegDef.inRange (d : RegDef) (v : Reg) : Bool :=
  d.fields.all fun f => f.acc != .rw && f.acc != .rwl || (f.min ≤ f.get v && f.get v ≤ f.max)

end Sys2Proof.Machine
end

