-- ==== Sys2Proof/Machine/Ops.lean ====
section
/-! DEFINITION. The named operations on the state that every family uses: the functions' and tenants' places,
free values, counters, event records (14), host writes and dirty-page entries (04), status replies and
asynchronous events (03). -/
namespace Sys2Proof.Machine

/-! ## Places -/

/-- Port A is 0 and Port B is 1 (03 R93). -/
def portNum : Port → Nat
  | .a => 0
  | .b => 1

/-- The port of a number. -/
def portOf (n : Nat) : Port := if n = 0 then .a else .b

/-- The key of a function on a port. -/
def fpKey (port : Port) (fn : Nat) : Nat := 2 * fn + portNum port

/-- A function on a port as no event has touched it. -/
def FnPort.init : FnPort where
  generation := 0
  late := 0
  lateMgmt := 0
  stray := 0
  asqBase := 0
  acqBase := 0
  aqCfg := 0
  aqError := false
  resetting := false
  mse := false
  bme := false
  d3hot := false
  msix := []
  pba := 0
  ats := []
  results := []
  events := []
  lost := false
  pci := {}

/-- What function `fn` holds on a port (04 R122). -/
def State.fp (s : State) (port : Port) (fn : Nat) : FnPort := s.fns.lookD (fpKey port fn) FnPort.init

/-- Changes what a function holds on a port. -/
def State.modFp (s : State) (port : Port) (fn : Nat) (f : FnPort → FnPort) : State :=
  { s with fns := s.fns.upd (fpKey port fn) FnPort.init f }

/-- The reset values of a tenant's settings (04 R133). -/
def Settings.init : Settings := ⟨0x1010, 0x40, 0, 0x7530, 0⟩

/-- A tenant that has never been enabled and owns nothing (04 R129). -/
def Tenant.init : Tenant where
  state := .disabled
  shadow := Settings.init
  active := Settings.init
  enabled := false
  reject := 0
  dlog := ⟨false, .a, 0, 0, 0, 0, false, false, 0⟩
  spaces := []
  nss := []
  errCount := 0
  errors := []
  programs := []
  loads := 0
  region := (0, 0)
  stopWait := none
  resetWait := none

/-- Tenant `n`; number 0 stands for function 0 and holds only its error log. -/
def State.tenant (s : State) (n : Nat) : Tenant := s.tenants.lookD n Tenant.init

/-- Changes a tenant. -/
def State.modTenant (s : State) (n : Nat) (f : Tenant → Tenant) : State :=
  { s with tenants := s.tenants.upd n Tenant.init f }

/-- A host port. -/
def State.hp (s : State) : Port → HostPort
  | .a => s.hostA
  | .b => s.hostB

/-- Changes a host port. -/
def State.modHp (s : State) (port : Port) (f : HostPort → HostPort) : State :=
  match port with
  | .a => { s with hostA := f s.hostA }
  | .b => { s with hostB := f s.hostB }

/-- Sends something out. -/
def State.emit (s : State) (t : Tx) : State := { s with tx := s.tx ++ [t] }

/-- The free value at hand; `State.tick` goes on to the next one. -/
def State.free (s : State) : Reg := Config.freeReg s.fresh

/-- A free choice below `n` at hand. -/
def State.choice (s : State) (n : Nat) : Nat := Config.freeChoice s.fresh % n

/-- The next free value. -/
def State.tick (s : State) : State := { s with fresh := s.fresh + 1 }

/-! ## Stored registers and counters -/

/-- The stored value of an element of a register, or its reset value (00 R9). -/
def State.reg (s : State) (n : RegName) (i : Nat) : Reg :=
  let d := regDef n
  s.regs.lookD (d.offset i) (d.resetOf i)

/-- Bits [hi:lo] of a stored register. -/
def State.regBits (s : State) (n : RegName) (i hi lo : Nat) : Nat := bitsOf (s.reg n i).toNat hi lo

/-- Stores an element of a register. -/
def State.setReg (s : State) (n : RegName) (i : Nat) (v : Reg) : State :=
  { s with regs := s.regs.put ((regDef n).offset i) v }

/-- Adds to a 32-bit RC counter, which saturates at 0xFFFF_FFFF (00 R9, R12). -/
def State.count (s : State) (n : RegName) (i k : Nat) : State :=
  s.setReg n i (BitVec.ofNat 64 (min ((s.reg n i).toNat + k) 0xFFFFFFFF))

/-- One more on a 32-bit RC counter. -/
def State.bump (s : State) (n : RegName) (i : Nat) : State := s.count n i 1

/-! ## Tenant keys (08 R288, R294) -/

/-- The slot of a tenant's KEY 0 or 1. -/
def keySlot (tenant k : Nat) : Nat := 2 * (tenant - 1) + k

/-- A tenant's key, if the slot is loaded with the usage bit (0 XTS, 1 HMAC). -/
def State.tenantKey (s : State) (tenant k usage : Nat) : Option (List Byte) :=
  match s.keys.tenant.look (keySlot tenant k) with
  | some x => if x.usage.getLsbD usage then some x.key else none
  | none => none

/-! ## Event records (14 R480 to R487) -/

/-- The severity of an event code (14 R487): 0 info, 1 notice, 2 warning, 3 error, 4 critical. -/
def severityOf (code : Nat) : Nat :=
  if code ∈ [0x0107, 0x0401, 0x0702] then 0
  else if code ∈ [0x0101, 0x010B, 0x0302, 0x030A, 0x0406, 0x0701, 0x0703] then 1
  else if code ∈ [0x0105, 0x0106, 0x0109, 0x010A, 0x010D, 0x010F, 0x0112, 0x0202, 0x0205, 0x0206, 0x0207, 0x0208,
    0x0304, 0x0307, 0x0308, 0x030B, 0x0403, 0x0404, 0x0503, 0x0506, 0x0605] then 3
  else if code ∈ [0x0504, 0x0603] then 4
  else 2

/-- Creates a record under the next number: the live ring takes it, the flush and the permanent region will
(14 R481, R482), and the first number of a run of 4,096 first makes the run durable with every record before
it (R483). The seconds powered on advance by a free amount. -/
def State.pushRecord (s : State) (code source : Nat) (data : List Byte) : State :=
  let n := s.evr.next
  let secs := (s.boot.poweredOnS + s.free.toNat) % 2 ^ 40
  let rec' : EvRec := ⟨n, code, source % 65536, severityOf code, (padTo data 8).take 8, s.boot.powerCycle, secs⟩
  let runStart := (n - 1) % 4096 = 0
  let evr := s.evr
  let evr := { evr with
    next := n + 1
    ring := (rec' :: evr.ring).take 2048
    durableRun := if runStart then max evr.durableRun ((n - 1) / 4096 + 1) else evr.durableRun
    circ := if runStart then (evr.queued ++ evr.circ).take 262144 else evr.circ
    queued := (if s.modes.mode = .powerFail then [] else [rec']) ++ (if runStart then [] else evr.queued) }
  let s := { s with evr := evr }
  let s := { s with boot := { s.boot with
    poweredOnS := secs, ops := s.boot.ops ++ (if n ≤ 4096 then [SpiOp.perm rec'] else []) } }
  (s.tick).bump .evrCnt 0

/-- The open suppression window of a code and source (14 R484). -/
def EvRecorder.window (e : EvRecorder) (code source : Nat) : Option EvWindow :=
  e.windows.find? fun w => w.code == code && w.source == source

/-- Records an event under the suppression rule (14 R484): in one window of one code and source the first 64
records are created and further ones counted; severity 3 and above and EVENTS_SUPPRESSED are never
suppressed. -/
def State.record (s : State) (code source : Nat) (data : List Byte) : State :=
  if severityOf code ≥ 3 || code == 0x0702 then s.pushRecord code source data
  else match s.evr.window code source with
    | none => { s.pushRecord code source data with
        evr := { (s.pushRecord code source data).evr with windows := s.evr.windows ++ [⟨code, source, 1, 0⟩] } }
    | some w =>
      let upd (f : EvWindow → EvWindow) (t : State) : State :=
        { t with evr := { t.evr with windows := adjWhere t.evr.windows (fun x => x.code == code && x.source == source) f } }
      if w.made < 64 then (upd (fun x => { x with made := x.made + 1 }) s).pushRecord code source data
      else (upd (fun x => { x with dropped := x.dropped + 1 }) s).bump .evrCnt 1

/-! ## Usable functions and host writes -/

/-- The host side of 04 R121 for a tenant function: VF Enable with NumVFs at least `n`, Memory Space Enable and
Bus Master Enable. -/
def State.vfOn (s : State) (port : Port) (n : Nat) : Bool :=
  (s.hp port).vfEnable && decide (n ≤ (s.hp port).numVfs) && (s.fp port n).mse && (s.fp port n).bme

/-- A function may use DMA and doorbells on a port (04 R121; 15 R503: not in D3hot). Function 0 needs no VF
conditions. -/
def State.usable (s : State) (port : Port) (fn : Nat) : Bool :=
  !(s.fp port fn).d3hot &&
    (fn == 0 || (s.vfOn port fn && (s.tenant fn).state != .disabled))

/-- May a host write of the function go out now (03 R117, 04 R121)? -/
def State.canSend (s : State) (port : Port) (fn : Nat) : Bool := (s.hp port).up && s.usable port fn

/-- May a vector's message be sent: MSI-X is enabled, and neither the function nor the vector masked (04 R124)? A
message while MSI-X is off is held as one under a mask is (DEDUCED, log entry 134). -/
def FnPort.vectorOpen (p : FnPort) (v : Nat) : Option MsixEntry :=
  (p.msix.look v).filter fun e => p.pci.msixOn && !p.pci.msixMask && !e.masked

/-- Sends a vector's message, or holds it in the pending bits (04 R124). -/
def State.msix (s : State) (port : Port) (fn v : Nat) : State :=
  match (s.fp port fn).vectorOpen v with
  | some e => s.emit (.msix port fn v e.addr e.data)
  | none => s.modFp port fn fun p => { p with pba := p.pba ||| (1#64 <<< v) }

/-- The translations of a host access (04 R124, R151): for each page, the function's own translation on the port is used
where it is cached, and asked for where it is not (DEDUCED, log entry 135: the access itself does not wait for the answer). -/
def State.translate (s : State) (port : Port) (fn addr len : Nat) : State :=
  if (s.fp port fn).pci.atsOn then
    (List.range ((addr + len + 4095) / 4096 - addr / 4096)).foldl (fun s i =>
      let page := addr / 4096 + i
      match (s.fp port fn).ats.look page with
      | some dst => s.emit (.atsAccess port fn page dst)
      | none => s.emit (.atsRequest port fn page)) s
  else s

/-- Sends a host read request. -/
def State.readHost (s : State) (port : Port) (fn : Nat) (who : ReadOwner) (addr len : Nat) : State :=
  (s.translate port fn addr len).emit (.hostRead port fn who addr len)

/-- The page range of a host write. -/
def Tx.target : Tx → Option (Nat × Nat)
  | .hostWrite _ _ addr b => some (addr, b.length)
  | .reply _ _ addr _ => some (addr, 32)
  | _ => none

/-- Sends a held item and its message. -/
def State.sendRaw (s : State) (h : Held) : State :=
  let s := match h.out with
    | .msix port fn v _ _ => s.msix port fn v
    | t => (match t.target with
      | some r => s.translate h.port h.fn r.1 r.2
      | none => s).emit t
  match h.vector with
  | some v => s.msix h.port h.fn v
  | none => s

/-- Sends, or holds behind what the function holds already (03 R117). -/
def State.holdOr (s : State) (h : Held) (send : State → State) : State :=
  if s.canSend h.port h.fn && !(s.held.any fun x => x.fn == h.fn && x.port == h.port) then send s
  else { s with held := s.held ++ [h] }

/-! ## Queue pairs and replies (03) -/

/-- The queue pair of a function, port and QID. -/
def State.qp (s : State) (port : Port) (fn qid : Nat) : Option QueuePair :=
  s.qps.find? fun q => q.fn == fn && q.port == port && q.qid == qid

/-- Changes a queue pair. -/
def State.modQp (s : State) (port : Port) (fn qid : Nat) (f : QueuePair → QueuePair) : State :=
  { s with qps := adjWhere s.qps (fun q => q.fn == fn && q.port == port && q.qid == qid) f }

/-- The codes of 03 R94. -/
def Status.code : Status → Nat
  | .ok => 0x0000
  | .invalidOpcode => 0x0101
  | .invalidField => 0x0102
  | .invalidQueue => 0x0103
  | .invalidBuffer => 0x0104
  | .lengthShort => 0x0105
  | .lengthOver => 0x0106
  | .lbaRange => 0x0107
  | .containerUnknown => 0x0108
  | .appendOverlap => 0x0109
  | .notLogObject => 0x010A
  | .wrongStreamKind => 0x010B
  | .quotaBytes => 0x0201
  | .quotaObjects => 0x0202
  | .ctxExhausted => 0x0203
  | .digestBusy => 0x0204
  | .outOfWindow => 0x0205
  | .objectLimit => 0x0206
  | .namespaceLimit => 0x0207
  | .queueLimit => 0x0208
  | .sieveQuota => 0x0209
  | .noSpace => 0x020A
  | .unrecoveredRead => 0x0301
  | .writeFailed => 0x0302
  | .poisoned => 0x0401
  | .digestMismatch => 0x0402
  | .hostDmaError => 0x0403
  | .rollBadCode => 0x0404
  | .rollBadDistance => 0x0405
  | .rollOverrun => 0x0406
  | .windowDenied => 0x0501
  | .notPermitted => 0x0502
  | .readOnly => 0x0601
  | .abortedReset => 0x0602
  | .quiesced => 0x0603
  | .commitConflict => 0x0604
  | .streamUnknown => 0x0605
  | .streamCommitting => 0x0606
  | .versionGone => 0x0607
  | .notFound => 0x0608
  | .abortedByRequest => 0x0609
  | .wrongMode => 0x060A
  | .budgetExhausted => 0x0701
  | .jobTimeout => 0x0702
  | .programInvalid => 0x0703
  | .programFault => 0x0704
  | .peerUnreachable => 0x0801
  | .groupQuorum => 0x0802

/-- The 32 bytes of a status reply (03 R93). -/
def Reply.bytes (r : Reply) : List Byte :=
  leBytes 2 r.cid ++ leBytes 2 r.status.code ++ leBytes 2 r.sqHead ++ [BitVec.ofNat 8 r.qid, 0] ++
  leBytes 2 r.generation ++ [0, 0] ++ leBytes 4 r.result0 ++ leBytes 8 r.result1 ++ leBytes 7 r.result2 ++
  [BitVec.ofNat 8 (b2n r.phase + 2 * portNum r.port)]

/-- The 64 bytes of an error log entry (03 R92). -/
def ErrEntry.bytes (e : ErrEntry) : List Byte :=
  let b := leBytes 8 e.number ++ leBytes 8 e.timeUs.toNat ++ leBytes 2 e.status.code ++ leBytes 2 e.cid ++
    leBytes 1 e.opcode ++ leBytes 1 (e.qid + 64 * portNum e.port) ++ leBytes 2 e.generation ++
    leBytes 1 e.container ++ leBytes 1 e.check ++ leBytes 2 e.field ++ zeros 4 ++ leBytes 16 e.object ++
    leBytes 8 e.result1 ++ zeros 4
  b ++ crcBytes b

/-- The object or LBA a packet names, for the error log (03 R92; R90 for the opcodes that name one). -/
def Packet.object (p : Packet) : Nat :=
  if p.opcode ∈ [0x20, 0x21, 0x23] then fieldLe p.body 0 8
  else if p.opcode ∈ [0x40, 0x44, 0x45, 0x47, 0x48, 0x49] then fieldLe p.body 0 16
  else 0

/-- Adds an entry to the function's error log before a reply that is not OK is posted (03 R92). The time since
the end of Rebuild is a free value. -/
def State.logError (s : State) (c : Cmd) (st : Status) (check field r1 : Nat) : State :=
  let t := s.tenant c.fn
  let e : ErrEntry := ⟨t.errCount + 1, s.free, st, c.pkt.cid, c.pkt.opcode, c.qid, c.port,
    (s.fp c.port c.fn).generation.toNat, c.pkt.container, check, field, c.pkt.object, r1⟩
  (s.modTenant c.fn fun t => { t with errCount := t.errCount + 1, errors := (e :: t.errors).take 1024 }).tick

/-- The signalling rule of 03 R83 for a reply: is it signalled now, and the queue pair's count and interval
after it. -/
def QueuePair.signal (q : QueuePair) (ok noIrq : Bool) : Bool × QueuePair :=
  if !ok then (true, { q with unsignalled := 0, timing := false })
  else if noIrq then (false, q)
  else if q.irqCount = 0 || q.unsignalled + 1 ≥ q.irqCount || q.irqTime = 0 then
    (true, { q with unsignalled := 0, timing := false })
  else (false, { q with unsignalled := q.unsignalled + 1, timing := true })

/-- The address of the completion slot a queue pair writes next (03 R81). -/
def QueuePair.slotAddr (q : QueuePair) : Nat := q.cqBase + 32 * q.cqTail

/-- The queue pair after it has written one reply (03 R79, R82). -/
def QueuePair.posted (q : QueuePair) : QueuePair :=
  let wrap := q.cqTail + 1 = 2 ^ q.cqLog2
  { q with cqTail := if wrap then 0 else q.cqTail + 1, phase := q.phase != wrap, unreleased := q.unreleased + 1 }

/-- One reply to a command's completion ring, with its message (03 R81 to R83, R93), handed to `send`. -/
def State.replyBy (s : State) (send : State → Held → State) (c : Cmd) (st : Status) (r0 r1 r2 : Nat) : State :=
  match s.qp c.port c.fn c.qid with
  | none => s
  | some q =>
    let r : Reply := ⟨c.pkt.cid, st, q.sqHead, q.qid, (s.fp c.port c.fn).generation.toNat,
      r0 % 2 ^ 32, r1 % 2 ^ 64, r2 % 2 ^ 56, q.phase, c.port⟩
    let sg := q.signal (st == .ok) (bitOf c.pkt.flags 1)
    let s := s.modQp c.port c.fn c.qid fun q => (q.signal (st == .ok) (bitOf c.pkt.flags 1)).2.posted
    send s ⟨c.fn, c.port, .reply c.port c.fn q.slotAddr r, if sg.1 then some q.vector else none⟩

/-- An ASYNC_EVENT request that waits for an event (03 R78, R513). -/
def State.asyncWaiting (s : State) (port : Port) (fn : Nat) : Option Cmd :=
  s.cmds.find? fun c => c.fn == fn && c.port == port && c.pkt.opcode == 0x06 && c.launched && !c.doomed

/-- An event for a function on a port, the answer handed to `send`: it answers the oldest request, or is held, or is dropped and sets LOST
(03 R78). While the firmware is being switched, the answer waits (R513). -/
def State.eventBy (s : State) (send : State → Held → State) (port : Port) (fn code r1 : Nat) : State :=
  match if s.modes.fwSwitched then none else s.asyncWaiting port fn with
  | some c =>
    let lost := (s.fp port fn).lost
    let s := { s with cmds := s.cmds.filter fun x => x.tag != c.tag }
    (s.modFp port fn fun p => { p with lost := false }).replyBy send c .ok (code + 2 ^ 31 * b2n lost) r1 0
  | none =>
    s.modFp port fn fun p =>
      if p.events.length < 8 then { p with events := p.events ++ [(code, r1)] } else { p with lost := true }

/-! ## Dirty-page log (04 R147 to R150) -/

/-- One entry for a page the tenant's host write touches: it is written to function 0's ring, or dropped where
the ring is full (04 R148, R150). -/
def State.dlogEntry (s : State) (n : Nat) (port : Port) (page : Nat) : State :=
  let d := (s.tenant n).dlog
  let size := 2 ^ d.log2
  let idx := d.written % size
  if (idx + 1) % size = d.head % size then
    let s := s.modTenant n fun t => { t with dlog := { t.dlog with dropped := true, overflow := true } }
    (s.record 0x0111 n []).eventBy (fun s h => s.holdOr h fun s => s.sendRaw h) d.port 0 0x0002 n
  else
    let phase := (d.written / size) % 2 = 0
    let e := leBytes 8 (page * 4096 + 2 * portNum port + b2n phase)
    let s := s.modTenant n fun t =>
      { t with dlog := { t.dlog with written := t.dlog.written + 1, since := min (t.dlog.since + 1) 0xFFFFFFFF } }
    let h : Held := ⟨0, d.port, .hostWrite d.port 0 (d.base + 8 * idx) e, none⟩
    s.holdOr h fun s => s.sendRaw h

/-- The entries of a host write of the function, one per 4 KiB page it touches (04 R149). -/
def State.dlogWrite (s : State) (fn : Nat) (port : Port) (addr len : Nat) : State :=
  if fn = 0 || !(s.tenant fn).dlog.on || len = 0 then s
  else (List.range ((addr + len - 1) / 4096 + 1 - addr / 4096)).foldl
    (fun s i => s.dlogEntry fn port (addr / 4096 + i)) s

/-- Sends a held item, with the dirty-page entries of the write that it is (04 R149). -/
def State.sendHeld (s : State) (h : Held) : State :=
  match h.out.target with
  | some r => (s.sendRaw h).dlogWrite h.fn h.port r.1 r.2
  | none => s.sendRaw h

/-- Sends, or holds behind what the function holds already (03 R117). -/
def State.sendOrHold (s : State) (h : Held) : State := s.holdOr h fun s => s.sendHeld h

/-- Posts a reply: it goes out, or is held behind what the function holds. -/
def State.reply (s : State) (c : Cmd) (st : Status) (r0 r1 r2 : Nat) : State := s.replyBy State.sendOrHold c st r0 r1 r2

/-- An event for a function on a port (03 R78). -/
def State.asyncEvent (s : State) (port : Port) (fn code r1 : Nat) : State := s.eventBy State.sendOrHold port fn code r1

/-- A write of payload to host memory (04 R149). -/
def State.hostWrite (s : State) (port : Port) (fn addr : Nat) (b : List Byte) : State :=
  if b.isEmpty then s else s.sendOrHold ⟨fn, port, .hostWrite port fn addr b, none⟩

/-- Writes payload to a command's buffer from an offset: to the pages of its list, or from DATA_ADDR (03 R87). -/
def State.writeBuf (s : State) (c : Cmd) (off : Nat) (b : List Byte) : State :=
  if bitOf c.pkt.flags 2 then
    (List.range (b.length / 4096 + 2)).foldl (fun s i =>
      let lo := (off / 4096 + i) * 4096
      let from' := max off lo
      let upto := min (off + b.length) (lo + 4096)
      if from' < upto then
        s.hostWrite c.port c.fn (c.pages.getD (off / 4096 + i) 0 + (from' - lo)) ((b.drop (from' - off)).take (upto - from'))
      else s) s
  else s.hostWrite c.port c.fn (c.pkt.dataAddr + off) b

/-- Sends what a function holds on a port, in order, once it may (03 R117, 04 R121). -/
def State.release (s : State) (port : Port) (fn : Nat) : State :=
  if s.canSend port fn then
    let mine := s.held.filter fun h => h.fn == fn && h.port == port
    mine.foldl State.sendHeld { s with held := s.held.filter fun h => !(h.fn == fn && h.port == port) }
  else s

/-- Sends what the functions hold on a port, in the order in which it was held (03 R117). -/
def State.releasePort (s : State) (port : Port) : State :=
  let goes (h : Held) : Bool := h.port == port && s.canSend port h.fn
  (s.held.filter goes).foldl State.sendHeld { s with held := s.held.filter fun h => !goes h }

/-- Counts a reply of an earlier generation that is dropped (03 R104, R117; TF_LATE_CPL, and for a tenant FN_LATE_A or
FN_LATE_B). -/
def State.countLate (s : State) (port : Port) (fn : Nat) : State :=
  s.modFp port fn fun p => { p with
    late := min (p.late + 1) 0xFFFFFFFF, lateMgmt := if fn = 0 then 0 else min (p.lateMgmt + 1) 0xFFFFFFFF }

/-- Drops what a function holds on a port at a reset, counting the replies (03 R117). -/
def State.dropHeld (s : State) (port : Port) (fn : Nat) : State :=
  let mine := s.held.filter fun h => h.fn == fn && h.port == port
  mine.foldl (fun s h => match h.out with
    | .reply .. => s.countLate port fn
    | _ => s) { s with held := s.held.filter fun h => !(h.fn == fn && h.port == port) }

end Sys2Proof.Machine
end

