-- ==== Sys2Proof/Machine/RollerCode.lean ====
section
/-! DEFINITION. Roller block coding (07 R247 to R256): decoding of a bucket as R254 gives it, and coding of a
block, whose token stream is left open but must decode to the block (R250). -/
namespace Sys2Proof.Machine

/-- The decompressor's errors (07 R267). -/
inductive RollerError where
  | badCode | badDistance | overrun
deriving DecidableEq, Repr

/-- Size of a bucket in KiB, by bucket code (07 R247). -/
def bucketKib (code : Nat) : Nat := min code 3 + 1

/-- What one token does to the output (07 R253): the literals or the fill, or a match of a length and distance. -/
inductive Token where
  | run (b : List Byte)
  | back (len dist : Nat)
deriving DecidableEq, Repr

/-- Bytes after T that a token of control byte T has; none for a reserved T (07 R253). -/
def tokenBytes (t : Nat) : Option Nat :=
  if t < 0x80 then some (t + 1) else if t < 0xC0 then some 1 else if t < 0xD0 then some 3
  else if t < 0xE0 then some 2 else none

/-- The token of a control byte and the bytes after it (07 R253). -/
def readToken (t : Nat) (b : List Byte) : Token :=
  let d := t % 16 * 256 + (b.getD 0 0).toNat
  if t < 0x80 then .run b
  else if t < 0xC0 then .back (t / 16 % 4 + 3) (d + 1)
  else if t < 0xD0 then .back ((b.getD 2 0).toNat * 256 + (b.getD 1 0).toNat + 7) (d + 1)
  else .run (List.replicate (d + 1) (b.getD 1 0))

/-- Copies `n` bytes from `dist` back, byte by byte; the output is held newest first (07 R253). -/
def copyBack (dist : Nat) : Nat → List Byte → List Byte
  | 0, out => out
  | n + 1, out => copyBack dist n (out.getD (dist - 1) 0 :: out)

/-- The decoding loop of 07 R254 over what is left of the token stream; the output is held newest first. The fuel
is the length of the stream: every token takes at least one byte. -/
def decodeTokens : Nat → List Byte → List Byte → Except RollerError (List Byte)
  | 0, _, out => if out.length < 4096 then .error .badCode else .ok out
  | fuel + 1, str, out =>
    match str with
    | [] => if out.length < 4096 then .error .badCode else .ok out
    | t :: rest =>
      if out.length = 4096 then .error .overrun
      else match tokenBytes t.toNat with
        | none => .error .badCode
        | some k =>
          if rest.length < k then .error .badCode
          else match readToken t.toNat (rest.take k) with
            | .run b => if out.length + b.length > 4096 then .error .overrun
                        else decodeTokens fuel (rest.drop k) (b.reverse ++ out)
            | .back len dist =>
              if dist > out.length then .error .badDistance
              else if out.length + len > 4096 then .error .overrun
              else decodeTokens fuel (rest.drop k) (copyBack dist len out)

/-- Decodes one bucket (07 R254). -/
def decodeBlock (code : Nat) (bucket : List Byte) : Except RollerError (List Byte) :=
  if code ≥ 3 then .ok (sliceB bucket 0 4096)
  else
    let tl := fieldLe bucket 2 2
    if fieldLe bucket 0 1 ≠ 1 ∨ fieldLe bucket 1 1 ≠ code ∨ tl = 0 ∨ tl > bucketKib code * 1024 - 4 then .error .badCode
    else (decodeTokens tl (sliceB bucket 4 tl) []).map List.reverse

/-- The bucket of a code with a token stream in it (07 R252). -/
def bucketOf (code : Nat) (tokens : List Byte) : List Byte :=
  padTo ([1, BitVec.ofNat 8 code] ++ leBytes 2 tokens.length ++ tokens) (bucketKib code * 1024)

/-- Does a bucket of the code hold the tokens, and does it decode to the block? -/
def bucketFits (code : Nat) (tokens block : List Byte) : Bool :=
  decide (0 < tokens.length) && decide (tokens.length + 4 ≤ bucketKib code * 1024) &&
    (match decodeBlock code (bucketOf code tokens) with
     | .ok b => b == block
     | .error _ => false)

/-- Codes one block under a target (07 R248): its bucket code and bucket. The token stream is the compressor's
choice (R250, R254); the raw bucket is taken where the bucket does not hold it. -/
def codeBlock (target : Nat) (block : List Byte) : Nat × List Byte :=
  if target = 0 then (3, block)
  else
    let tokens := Config.rollerCode block target
    let cands := if target = 4 then [0, 1, 2] else [target - 1]
    match cands.find? fun c => bucketFits c tokens block with
    | some c => (c, bucketOf c tokens)
    | none => (3, block)

end Sys2Proof.Machine
end

