-- ==== Sys2Proof/Machine/FlashOps.lean ====
section
/-! DEFINITION. Placement on flash (10): cards in service, packing of buckets into sectors (R349), stripe sets
and rows (R353 to R357), the block map (R358), and capacity (R368). -/
namespace Sys2Proof.Machine

/-- A card slot that no event has touched. -/
def Card.init : Card where
  state := 0
  rate := 0
  reject := 0
  info := none
  present := false
  powered := false
  tries := 0
  errRemoved := false
  errTimeout := false
  errI2c := false
  errTemp := false
  known := []
  factoryBad := 0
  factory := []
  iface := 0
  odt := false
  trained := false
  grownBad := 0
  programs := 0
  erases := 0
  uncorrectable := 0

/-- Card slot `n` (10 R340). -/
def State.card (s : State) (n : Nat) : Card := s.flash.cards.lookD n Card.init

/-- Changes the flash part of the state. -/
def State.modFlash (s : State) (f : Flash → Flash) : State := { s with flash := f s.flash }

/-- Changes a card slot. -/
def State.modCard (s : State) (n : Nat) (f : Card → Card) : State :=
  s.modFlash fun x => { x with cards := x.cards.upd n Card.init f }

/-- The slots that are Online or Rebuilding, in ascending order (10 R340). -/
def State.inService (s : State) : List Nat := (List.range 24).filter fun n => (s.card n).state == 3 || (s.card n).state == 4

/-- The read-only condition of 10 R344. -/
def State.roCards (s : State) : Bool := s.inService.length < 18

/-- The geometry of the cards in service, which is one (10 R338 check 10). -/
def State.geom (s : State) : Option CardInfo := s.inService.findSome? fun n => (s.card n).info

/-- Sectors in a member's program unit (10 R353). -/
def CardInfo.unit (g : CardInfo) : Nat := g.bitsPerCell * g.planes * (g.pageBytes / 4096)

/-- Rows of a stripe set that hold data: the last wordline holds the block summary (10 R361). -/
def CardInfo.rows (g : CardInfo) : Nat := g.pagesPerBlock / g.bitsPerCell - 1

/-- A number for an erase block: slot, channel of the card, die, first block of its planes. -/
def blockKey (slot chan die block : Nat) : Nat := ((slot * 8 + chan) * 32 + die) * 65536 + block

/-- A number for a die: slot, channel of the card, die. -/
def dieKey (slot chan die : Nat) : Nat := (slot * 8 + chan) * 32 + die

/-- A die that has not failed and whose read levels are the default ones. -/
def Die.init : Die := ⟨0, 0, false, 0, 0⟩

/-- A die of a card. -/
def State.die (s : State) (key : Nat) : Die := s.flash.dies.lookD key Die.init

/-- The dies of a card's channel that exist (01 R14; 10 R337). -/
def CardInfo.dieList (g : CardInfo) : List Nat := (List.range 32).filter fun d => decide (g.ceMap.getD (d / 4) 0 > d % 4)

/-- The `i`-th erase block of a card, in an order that spreads over channels and dies. -/
def CardInfo.blockAt (g : CardInfo) (slot i : Nat) : Nat × Nat × Nat × Nat :=
  let ds := g.dieList
  let d := max ds.length 1
  (slot, i % 8, ds.getD (i / 8 % d) 0, i / (8 * d) * g.planes)

/-- Erase blocks of a card. -/
def CardInfo.blocks (g : CardInfo) : Nat := 8 * g.dieList.length * (g.blocksPerLun / max g.planes 1)

/-- The first two good blocks of die 0 on channel 0, which hold root records (10 R363). -/
def State.rootBlocks (s : State) (g : CardInfo) (slot : Nat) : List Nat :=
  let bad := (s.card slot).factory
  (((List.range (bad.length + 2)).map fun i => i * g.planes).filter fun b => !bad.contains (blockKey slot 0 0 b)).take 2

/-- The blocks of a slot that are marked bad at the factory or retired, which never enter a set (10 R367). -/
def State.badBlocks (s : State) (slot : Nat) : List Nat :=
  (s.card slot).factory ++ s.flash.bad.filter fun k => k / 65536 / 256 == slot

/-- The members of all stripe sets on a slot. -/
def State.usedBlocks (s : State) (slot : Nat) : List Member :=
  (s.flash.sets.flatMap fun x => x.members).filter fun m => m.slot == slot

/-- The free good block with the lowest erase count of a slot (10 R365): not in a set, not bad, no root block, on a die
that has not failed. -/
def State.freeBlock (s : State) (g : CardInfo) (slot : Nat) : Option (Nat × Nat × Nat) :=
  let used := s.usedBlocks slot
  let bad := s.badBlocks slot
  let roots := s.rootBlocks g slot
  let n := min (used.length + bad.length + s.flash.wear.length + 8 * 32 + 17) g.blocks
  let cands := ((List.range n).map fun i => g.blockAt slot i).filter fun b =>
    !(used.any fun m => m.chan == b.2.1 && m.die == b.2.2.1 && m.block == b.2.2.2) &&
    !(bad.contains (blockKey slot b.2.1 b.2.2.1 b.2.2.2)) && !(s.die (dieKey slot b.2.1 b.2.2.1)).failed &&
    !(b.2.1 == 0 && b.2.2.1 == 0 && roots.contains b.2.2.2) && decide (b.2.2.2 + g.planes ≤ g.blocksPerLun)
  (leastBy cands fun b => s.flash.wear.lookD (blockKey slot b.2.1 b.2.2.1 b.2.2.2) 0).map fun b => b.2

/-- The free sets a Batch can still form, from the slot with the fewest free good blocks. -/
def State.freeSets (s : State) : Nat :=
  match s.geom with
  | none => 0
  | some g =>
    match s.inService.map fun n => g.blocks - 2 - (s.badBlocks n).length - (s.usedBlocks n).length with
    | [] => 0
    | a :: l => l.foldl min a / 4

/-- Can no row be formed at all, for want of slots (10 R512)? -/
def State.noRow (s : State) (prot : Bool) : Bool := decide (s.inService.length < (if prot then 3 else 1))

/-- A DATA_SEQ is taken for a new root record, which goes to every card in service (10 R363). -/
def State.writeRoots (s : State) : State :=
  s.modFlash fun f => { f with
    seq := f.seq + 1, roots := s.inService.foldl (fun m n => m.put n f.seq) f.roots }

/-- Forms a stripe set on the slots in service (10 R353, R365; R512 for fewer than 18). The last two free sets of a
Batch are kept for copies. A block that is not known to be erased is erased first (R343). -/
def State.formSet (s : State) (batch : Nat) (kind : RowKind) (prot : Bool) : Option (StripeSet × State) :=
  match s.geom with
  | none => none
  | some g =>
    let slots := s.inService
    let ms := slots.filterMap fun n => (s.freeBlock g n).map fun b =>
      (⟨n, b.1, b.2.1, b.2.2, false, if s.flash.clean.contains (blockKey n b.1 b.2.1 b.2.2) then 0 else 1, false, false⟩ : Member)
    if s.noRow prot || ms.length < slots.length || (kind != .copies && decide (s.freeSets ≤ 2)) then none
    else
      let st : StripeSet := ⟨s.flash.nextSet, batch, kind, prot, ms, 0, false, false, false, false, false⟩
      let keys := ms.map fun m => blockKey m.slot m.chan m.die m.block
      some (st, (s.modFlash fun x => { x with
        nextSet := x.nextSet + 1, sets := x.sets ++ [st], clean := x.clean.filter fun k => !keys.contains k }).writeRoots)

/-- Data sectors a row of the set takes (10 R353). -/
def StripeSet.rowCap (x : StripeSet) (g : CardInfo) : Nat := (x.members.length - (if x.prot then 2 else 0)) * g.unit

/-- Is the member at a position of a row a parity member (10 R353)? -/
def StripeSet.isParity (x : StripeSet) (row pos : Nat) : Bool :=
  let n := x.members.length
  x.prot && (pos == (x.no + row) % n || pos == (x.no + row + n / 2) % n)

/-- The stripe set of a number. -/
def State.set? (s : State) (no : Nat) : Option StripeSet := s.flash.sets.find? fun x => x.no == no

/-- Changes a stripe set. -/
def State.modSet (s : State) (no : Nat) (f : StripeSet → StripeSet) : State :=
  s.modFlash fun x => { x with sets := adjWhere x.sets (fun y => y.no == no) f }

/-- The row of a number. -/
def State.row? (s : State) (id : Nat) : Option Row := s.flash.rows.find? fun r => r.id == id

/-- Changes a row. -/
def State.modRow (s : State) (id : Nat) (f : Row → Row) : State :=
  s.modFlash fun x => { x with rows := adjWhere x.rows (fun r => r.id == id) f }

/-- Sectors placed in a row. -/
def Row.used (r : Row) : Nat := r.groups.foldl (fun n g => n + g.sectors.length) 0

/-! ## Places of a sector -/

/-- The sector of a number. -/
def State.sector? (s : State) (id : Nat) : Option Sector := s.flash.sectors.find? fun x => x.id == id

/-- The member of a stripe set that holds a sector. -/
def State.memberOf (s : State) (x : Sector) : Option Member :=
  (s.set? x.set).bind fun st => st.members.find? fun m => m.slot == x.slot

/-- The die of a sector. -/
def State.dieOf (s : State) (x : Sector) : Nat :=
  match s.memberOf x with
  | some m => dieKey m.slot m.chan m.die
  | none => dieKey x.slot 0 0

/-- RR_STEPS of a slot's card. -/
def State.retrySteps (s : State) (slot : Nat) : Nat :=
  match (s.card slot).info with
  | some g => g.rrSteps
  | none => 1

/-- The step of soft decoding; the step after it is the rebuild from parity alone (R359). -/
def softStep (rr : Nat) : Nat := rr + 1

/-! ## The operations of the channels (R333, R335) -/

/-- FT_CFG.GC_QOS. -/
def State.gcQos (s : State) : Nat := s.regBits .ftCfg 0 10 8

/-- The QOS of a row's programs: that of the data it holds, or of the repair it is part of. A block summary holds none
and goes at GC_QOS. -/
def State.rowQos (s : State) (r : Row) : Nat :=
  if r.repair.isSome then s.regBits .ftCfg 0 14 12
  else if r.groups.isEmpty then s.gcQos
  else r.groups.foldl (fun q g => max q g.qos) 0

/-- The operations that reads, programs and erases ask of the channels: reads up to soft decoding, outstanding programs,
erases begun. -/
def State.wantedOps (s : State) : List FlashOp :=
  (s.flash.reads.filterMap fun r => match s.sector? r.sector with
    | some x => if r.step ≤ softStep (s.retrySteps x.slot) then some ⟨.read r.id, s.dieOf x, r.qos, r.step, false⟩ else none
    | none => none) ++
  (s.flash.rows.flatMap fun r => r.progs.filterMap fun p =>
    if p.2 = .outstanding then
      ((s.set? r.set).bind fun x => x.members.find? fun m => m.slot == p.1).map fun m =>
        ⟨.program r.id (Fin.ofNat 24 p.1), dieKey m.slot m.chan m.die, s.rowQos r, 0, false⟩
    else none) ++
  s.flash.sets.flatMap fun x => (x.members.filter fun m => m.erase == 1).map fun m =>
    ⟨.erase x.no (Fin.ofNat 24 m.slot), dieKey m.slot m.chan m.die, if x.urgent then 7 else s.gcQos, 0, false⟩

/-- Brings the queues up to date: operations that are over leave, new ones join behind the others. -/
def State.syncOps (s : State) : State :=
  let w := s.wantedOps
  s.modFlash fun f => { f with ops :=
    (f.ops.filter fun o => w.any fun x => x.ref == o.ref && x.step == o.step) ++
    (w.filter fun x => !f.ops.any fun o => x.ref == o.ref && x.step == o.step) }

/-- Is an operation a read? -/
def FlashOp.isRead (o : FlashOp) : Bool :=
  match o.ref with
  | .read _ => true
  | _ => false

/-- The rank of an operation within its QOS: reads, programs, erases. -/
def FlashOp.rank (o : FlashOp) : Nat :=
  match o.ref with
  | .read _ => 0
  | .program _ _ => 1
  | _ => 2

/-- The dies that a rebuild from parity reads (14 R466): those of the other members of the sets of its sectors. -/
def State.rebuildDies (s : State) : List Nat :=
  (s.flash.reads.filter FlashRead.parity).flatMap fun r => match s.sector? r.sector with
    | some x => match s.set? x.set with
      | some st => (st.members.filter fun m => m.slot != x.slot && !m.lost).map fun m => dieKey m.slot m.chan m.die
      | none => []
    | none => []

/-- May an operation be issued now: its die is free; a program or erase not in Power-Fail (R375), and not while a rebuild
from parity waits for the die (14 R466)? -/
def State.mayIssue (s : State) (o : FlashOp) : Bool :=
  !o.run && !(s.flash.ops.any fun x => x.run && x.die == o.die) &&
  (o.isRead || !s.modes.powerFail && !s.rebuildDies.contains o.die)

/-- The operation that is served next: highest QOS, then reads, programs, erases, then the oldest. -/
def State.nextOp (s : State) : Option FlashOp := leastBy (s.flash.ops.filter s.mayIssue) fun o => (7 - o.qos) * 3 + o.rank

/-- The command codes of an operation (R333): a step of the ladder sets its read levels with LUN Set Features and reads;
soft decoding reads three times; programs and erases work on every plane, and Read Status Enhanced follows. -/
def State.opCodes (s : State) (o : FlashOp) : List Nat :=
  let g := (s.card (o.die / 256)).info
  let planes := (g.map CardInfo.planes).getD 1
  let bits := (g.map CardInfo.bitsPerCell).getD 1
  let many (one last : List Nat) : List Nat := (List.replicate (planes - 1) one).flatten ++ last
  match o.ref with
  | .read _ =>
    let rd : List Nat := [0x00, 0x30, 0x78, 0x06, 0xE0]
    if o.step = 0 then rd
    else if o.step < softStep (s.retrySteps (o.die / 256)) then 0xD5 :: rd
    else (List.replicate 3 (0xD5 :: rd)).flatten
  | .program _ _ => (List.replicate bits (many [0x80, 0x11] [0x80, 0x10])).flatten ++ [0x78]
  | _ => many [0x60, 0xD1] [0x60, 0xD0] ++ [0x78]

/-- Sends a command sequence to a die. -/
def State.onfi (s : State) (die : Nat) (codes : List Nat) : State :=
  s.emit (.onfi (die / 256) (die / 32 % 8) (die % 32) codes)

/-- Issues an operation to its die. -/
def State.issueOp (s : State) (o : FlashOp) : State :=
  (s.modFlash fun f => { f with 
    ops := adjWhere f.ops (fun x => x.ref == o.ref && x.step == o.step) fun x => { x with run := true } }).onfi o.die (s.opCodes o)

/-- The channels serve what they can (R335). -/
def State.serve (s : State) : State :=
  let s := s.syncOps
  s.flash.ops.foldl (fun s _ => match s.nextOp with
    | some o => s.issueOp o
    | none => s) s

/-- Has an operation been issued to its die? -/
def State.runs (s : State) (r : FlashOpRef) : Bool := s.flash.ops.any fun o => o.ref == r && o.run

/-! ## Rows (R353 to R356) -/

/-- Programs a row: one operation on every member (10 R355), once the blocks of its set are erased (R343). In Power-Fail
none is issued (10 R375). -/
def State.issueRow (s : State) (id : Nat) : State :=
  match s.row? id with
  | none => s
  | some r =>
    if r.issued || s.modes.powerFail then s
    else match s.set? r.set, s.geom with
      | some x, some g =>
        if x.members.any fun m => m.erase == 1 && !m.lost then s.modRow id fun r => { r with due := true }
        else
          let fill := r.used < x.rowCap g
          let s := s.modRow id fun r =>
            { r with issued := true, due := false, base := s.flash.nextSector
                     progs := (x.members.filter fun m => !m.lost).map fun m => (m.slot, ProgState.outstanding) }
          let s := s.modFlash fun f => { f with nextSector := f.nextSector + x.members.length * g.unit, health := { f.health with
            programmed := f.health.programmed + x.members.length * g.unit * 4096,
            gcProgrammed := f.health.gcProgrammed + (if r.kind = .copies then x.members.length * g.unit * 4096 else 0) } }
          (if fill then s.bump .ftCnt 9 else s).serve
      | _, _ => s

/-- May a row be placed in a set: a set of fewer than 18 members takes rows only while fewer than 18 slots are in
service (10 R512)? -/
def State.setFits (s : State) (x : StripeSet) : Bool := decide (x.members.length ≥ 18) || s.roCards

/-- The open row of a Batch for a kind of data (10 R356), made where there is none. -/
def State.openRow (s : State) (batch : Nat) (kind : RowKind) (prot : Bool) : Option (Row × State) :=
  match s.flash.rows.find? fun r => !r.issued && !r.due && r.repair.isNone && r.batch == batch && r.kind == kind && r.prot == prot &&
      (s.set? r.set).any s.setFits with
  | some r => some (r, s)
  | none =>
    let rows := match s.geom with
      | some g => g.rows
      | none => 0
    let mk (x : StripeSet) (s : State) : Row × State :=
      let r : Row := ⟨s.flash.nextRow, x.no, x.nextRow, batch, kind, prot, false, [], [], 0, false, false, none⟩
      (r, (s.modSet x.no fun y => { y with nextRow := y.nextRow + 1, closed := y.closed || y.nextRow + 1 ≥ rows }).modFlash
        fun f => { f with nextRow := f.nextRow + 1, rows := f.rows ++ [r] })
    match s.flash.sets.find? fun x => !x.closed && x.batch == batch && x.kind == kind && x.prot == prot && s.setFits x with
    | some x => some (mk x s)
    | none => (s.formSet batch kind prot).map fun p =>
      let q := mk p.1 p.2
      (q.1, q.2.serve)

/-- Is the row full for its set? -/
def State.rowFull (s : State) (id extra : Nat) : Bool :=
  match s.row? id, s.geom with
  | some r, some g => match s.set? r.set with
    | some x => r.used + extra > x.rowCap g
    | none => false
  | _, _ => false

/-- Places a group in the open row of its Batch, in one row (10 R349, R356): a row it does not fit is programmed
first, and the row is programmed when it is full. Where free blocks are short the group waits for a set that garbage
collection frees (R365); none where no row can be formed for want of slots (10 R512). -/
def State.placeGroup (s : State) (batch : Nat) (kind : RowKind) (prot : Bool) (g : Group) : Option State :=
  let wait (s : State) : Option State :=
    if s.noRow prot then none
    else some (s.modFlash fun f => { f with stalled := f.stalled ++ [⟨batch, kind, prot, g⟩] })
  match s.openRow batch kind prot with
  | none => wait s
  | some (r, s1) =>
    let p := if r.groups.isEmpty || !s1.rowFull r.id g.sectors.length then some (r, s1)
      else (s1.issueRow r.id).openRow batch kind prot
    match p with
    | none => wait (s1.issueRow r.id)
    | some p =>
      let s := p.2.modRow p.1.id fun r => { r with groups := r.groups ++ [g] }
      some (if s.rowFull p.1.id 1 then s.issueRow p.1.id else s)

/-- The number the next group takes. -/
def State.newGroup (s : State) : Nat × State :=
  (s.flash.nextGroup, s.modFlash fun f => { f with nextGroup := f.nextGroup + 1 })

/-! ## Packing (R349) -/

/-- A sector being packed: KiB used, LAYOUT, CONT, the block of the first bucket that starts in it, its bytes. -/
structure PackSector where
  used : Nat
  layout : Nat
  cont : Nat
  first : Option Nat
  bytes : List Byte
deriving DecidableEq, Repr

/-- The packing state: sectors packed, the sector at hand, and where each block's bucket lies. -/
structure Packing where
  done : List PackSector
  cur : PackSector
  places : List (Nat × Nat × Nat × Nat)
deriving DecidableEq, Repr

/-- An empty sector. -/
def PackSector.empty : PackSector := ⟨0, 0, 0, none, []⟩

/-- Ends the sector at hand, if it holds anything. -/
def Packing.flush (p : Packing) : Packing :=
  if p.cur.used = 0 then p else { p with done := p.done ++ [p.cur], cur := PackSector.empty }

/-- Packs one bucket (10 R349): a raw bucket takes a sector of its own; another bucket is placed back to back and
may run into the next sector. -/
def Packing.add (p : Packing) (blk code : Nat) (b : List Byte) : Packing :=
  let z := bucketKib code
  if z = 4 then
    let p := p.flush
    { p with done := p.done ++ [⟨4, 0, 0, some blk, b⟩], places := p.places ++ [(blk, p.done.length, 0, code)] }
  else
    let p := if p.cur.used = 4 then p.flush else p
    let u := p.cur.used
    let here := min z (4 - u)
    let cur : PackSector := ⟨u + here, p.cur.layout + z * 4 ^ u, p.cur.cont, some (p.cur.first.getD blk),
      p.cur.bytes ++ b.take (here * 1024)⟩
    let p := { p with cur := cur, places := p.places ++ [(blk, p.done.length, u, code)] }
    if here = z then p
    else { p.flush with cur := ⟨z - here, 0, z - here, none, b.drop (here * 1024)⟩ }

/-- Packs the blocks of one write within one atomic unit: number, bucket code, bucket. -/
def packBlocks (l : List (Nat × Nat × List Byte)) : Packing :=
  (l.foldl (fun p x => Packing.add p x.1 x.2.1 x.2.2) (⟨[], PackSector.empty, []⟩ : Packing)).flush

/-! ## Placement classes (09 R315) -/

/-- SV_PCLASS of a class. -/
def State.pclass (s : State) (c : Nat) : Nat := (s.reg .svPclass c).toNat

/-- QOS of a class. -/
def State.classQos (s : State) (c : Nat) : Nat := bitsOf (s.pclass c) 2 0

/-- KEY_SEL of a class. -/
def State.classKey (s : State) (c : Nat) : Nat := bitsOf (s.pclass c) 3 3

/-- TARGET of a class. -/
def State.classTarget (s : State) (c : Nat) : Nat := bitsOf (s.pclass c) 6 4

/-- PARITY of a class: 0 internal, 1 none, 2 Group-coded, 3 both. -/
def State.classParity (s : State) (c : Nat) : Nat := bitsOf (s.pclass c) 9 8

/-! ## Capacity (R368) -/

/-- *G*: the data capacity of all good blocks of the slots in service, after parity. -/
def State.goodBytes (s : State) : Nat :=
  let n := s.inService.length
  let raw := s.inService.foldl (fun a k => match (s.card k).info with
    | some g => a + (8 * g.dies * g.blocksPerLun - (s.card k).factoryBad - (s.card k).grownBad * g.planes) * g.pagesPerBlock * g.pageBytes
    | none => a) 0
  if n = 0 then 0 else raw * (n - 2) / n

/-- Data bytes of one stripe set. -/
def State.setBytes (s : State) : Nat :=
  match s.geom with
  | some g => (s.inService.length - 2) * g.pagesPerBlock * g.planes * g.pageBytes
  | none => 0

/-- *R*: the capacity of the reserved sets, two per Batch (10 R365). -/
def State.reservedBytes (s : State) : Nat := 8 * s.setBytes

/-- The DATA_SEQ of the newest trim that covers an LBA. -/
def Namespace.trimSeq (n : Namespace) (lba : Nat) : Nat :=
  n.trims.foldl (fun m t => if t.lba ≤ lba ∧ lba < t.lba + t.count then max m t.seq else m) 0

/-- The map entry in force for an LBA: one that no newer trim covers (02 R62, R65). -/
def Namespace.entry (n : Namespace) (lba : Nat) : Option MapEntry :=
  match n.map.look lba with
  | some e => if n.trimSeq lba < e.seq then some e else none
  | none => none

/-- The LBAs that are mapped. -/
def Namespace.mapped (n : Namespace) : List (Nat × MapEntry) :=
  n.map.filter fun e => n.trimSeq e.1 < e.2.seq

/-- LIVE: the bucket bytes of all mapped data, with the object data and the metadata. -/
def State.liveBytes (s : State) : Nat :=
  let ns := s.tenants.foldl (fun a t => t.2.nss.foldl (fun a n =>
    n.2.mapped.foldl (fun a e => a + bucketKib e.2.bucket * 1024) a) a) 0
  let ob := s.versions.foldl (fun a v => v.parts.foldl (fun a e => a + e.sectors.length * 4096) a) 0
  let md := (s.flash.sectors.filter fun x => x.header.kind == 3 || x.header.kind == 4 || x.header.kind == 5 || x.header.kind == 9).length * 4096
  ns + ob + md

/-- USABLE_BYTES: 90 % of *G*, taken when a slot enters or leaves Online (10 R368). -/
def State.takeUsable (s : State) : State := s.modFlash fun f => { f with usable := s.goodBytes * 9 / 10 }

/-- What a write of `n` bytes meets (10 R368): NO_SPACE, READ_ONLY with RO_WEAR set, or neither. -/
def State.spaceFor (s : State) (n : Nat) : Option Status :=
  if s.liveBytes + n > s.flash.usable then some .noSpace
  else if s.goodBytes - s.reservedBytes ≤ s.liveBytes + n then some .readOnly
  else none

/-- RO_WEAR clears when *G* − *R* exceeds LIVE by at least two stripe sets per Batch (10 R368). -/
def State.clearWear (s : State) : State :=
  if s.flash.roWear && s.goodBytes - s.reservedBytes ≥ s.liveBytes + 8 * s.setBytes then
    s.modFlash fun f => { f with roWear := false }
  else s

/-! ## Reading the stored form -/

/-- The sectors a bucket lies in: the one it starts in, and the next where it runs over. -/
def MapEntry.sectors (e : MapEntry) : List Nat :=
  if e.kib + bucketKib e.bucket > 4 then [e.sector, e.sector + 1] else [e.sector]

/-- The bytes of a bucket (10 R349). -/
def State.bucketBytes (s : State) (e : MapEntry) : List Byte :=
  let all := (e.sectors.map fun i => match s.sector? i with
    | some x => sliceB x.data 0 4096
    | none => zeros 4096).flatten
  -- The part in the next sector starts at its first byte.
  sliceB all (e.kib * 1024) (bucketKib e.bucket * 1024)

/-- The 4 KiB block a map entry names, decoded; a bucket that does not decode gives none (07 R268). -/
def State.blockAt (s : State) (e : MapEntry) : Option (List Byte) :=
  match decodeBlock e.bucket (s.bucketBytes e) with
  | .ok b => some b
  | .error _ => none

/-- Is the unit that holds a sector lost (10 R359)? -/
def State.unitLost (s : State) (x : Sector) : Bool :=
  match s.set? x.set with
  | none => false
  | some st => st.members.any fun m => m.lost && m.slot == x.slot

/-- Can the row's other units rebuild a sector (10 R354, R359 step 4): the row has parity, and of the units besides the
sector's own at most one is lost? -/
def State.rebuildable (s : State) (x : Sector) : Bool :=
  match s.set? x.set with
  | none => true
  | some st => st.prot && decide ((st.members.filter fun m => m.lost && m.slot != x.slot).length ≤ 1)

/-- Do the units a row has lost leave a sector readable (10 R364)? -/
def State.recoverable (s : State) (x : Sector) : Bool := !s.unitLost x || s.rebuildable x

/-- Do degraded stripe sets exist (10 R364)? -/
def State.degraded (s : State) : Bool := s.flash.sets.any fun x => x.members.any fun m => m.lost

end Sys2Proof.Machine
end

