-- ==== Sys2Proof/Machine/Modes.lean ====
section
/-! DEFINITION. The mode shown and the conditions behind it (13 R438 to R441), with the overlays of R449. -/
namespace Sys2Proof.Machine

/-- The number of a mode, M0 to M11 (13 R438). -/
def Mode.num : Mode → Nat
  | .off => 0
  | .standby => 1
  | .starter => 2
  | .discovery => 3
  | .rebuild => 4
  | .service => 5
  | .degraded => 6
  | .thermal => 7
  | .quiesce => 8
  | .maintenance => 9
  | .readOnly => 10
  | .powerFail => 11

/-- Changes the mode part of the state. -/
def State.modModes (s : State) (f : Modes → Modes) : State := { s with modes := f s.modes }

/-- QUIESCE (13 R440): by request, by ENTER_MAINT's drain or by FW_ACTIVATE. -/
def Modes.quiesceOn (m : Modes) : Bool := m.quiesceReq || m.quiesceMaint || m.quiesceFw

/-- READ_ONLY (13 R440). -/
def State.readOnlyOn (s : State) : Bool := s.flash.roWear || s.roCards

/-- DEG_MEDIA: degraded stripe sets, or a slot Rebuilding (13 R440). -/
def State.degMedia (s : State) : Bool := s.degraded || (List.range 24).any fun n => (s.card n).state == 4

/-- DEG_MEMORY: a failed pseudo-channel or a lost stack (13 R440). -/
def State.degMemory (s : State) : Bool := (s.mem.ctrls.any fun c => c.2.st == 2) || s.mem.memStacks.any fun x => x.2.st == 2

/-- DEG_ENGINE: a Crumb, Roller half, Digest engine or erasure-code unit retired or failed (13 R440). -/
def State.degEngine (s : State) : Bool :=
  (s.crumbs.any fun c => c.2.st == .retired) || (s.rollers.any fun r => r.2.stC == .retired || r.2.stD == .retired) ||
  (s.digests.engines.any fun e => e.2.st == 3) || !s.ecuFailed.isEmpty

/-- DEG_GROUP: FL_REPAIR is not zero (13 R440). -/
def State.degGroup (s : State) : Bool := !s.firon.repairs.isEmpty

/-- DEGRADED: any cause holds (13 R440). -/
def State.degradedOn (s : State) : Bool := s.degMedia || s.degMemory || s.degEngine || s.degGroup

/-- THERMAL: the throttle step is above 0 (13 R440). -/
def State.thermalOn (s : State) : Bool := decide (s.hk.step > 0)

/-- Is the device out of reset and past Starter? -/
def State.awake (s : State) : Bool :=
  match s.modes.mode with
  | .off | .standby | .starter => false
  | _ => true

/-- DEV_FLAGS (13): its reset value before Discovery, then the conditions. -/
def State.devFlags (s : State) : Nat :=
  if !s.awake then 0
  else b2n s.modes.powerFail + 2 * b2n s.modes.quiesceOn + 4 * b2n s.modes.maint + 8 * b2n s.readOnlyOn +
  16 * b2n s.thermalOn + 32 * b2n s.degradedOn + 64 * b2n s.modes.drained + 256 * b2n s.flash.roWear +
  512 * b2n s.roCards + 4096 * b2n s.degMedia + 8192 * b2n s.degMemory + 16384 * b2n s.degEngine +
  32768 * b2n s.degGroup

/-- DEV_MODE (13). -/
def State.devMode (s : State) : Nat :=
  s.modes.mode.num + 256 * s.modes.last.num + 65536 * b2n s.modes.halt + 2 ^ 20 * s.modes.haltCode

/-- The mode to show (13 R439): from the end of Rebuild the first whose condition holds; before it the start-up
mode, which only POWER_FAIL ends. -/
def State.modeNow (s : State) : Mode :=
  if s.modes.powerFail then .powerFail
  else if !s.modes.running then s.modes.mode
  else if s.modes.quiesceOn then .quiesce
  else if s.modes.maint then .maintenance
  else if s.readOnlyOn then .readOnly
  else if s.thermalOn then .thermal
  else if s.degradedOn then .degraded
  else .service

/-- The stored value of the register at an offset, or its reset value. -/
def State.regOff (s : State) (off : Nat) : Reg :=
  match regAt off with
  | some d => s.regs.lookD (d.offset (d.idx off)) (d.resetOf (d.idx off))
  | none => 0

/-- The register's bits under the mask take the value (13 R447). -/
def State.applyEntry (s : State) (e : RegEntry) : State :=
  { s with regs := s.regs.put e.off ((s.regOff e.off &&& ~~~e.mask) ||| (e.value &&& e.mask)) }

/-- Withdraws the overlay in force: every bit it set takes its saved value (13 R449). -/
def State.withdraw (s : State) : State :=
  let t := s.modes.overlay.foldl (fun s e => s.applyEntry e) s
  t.modModes fun m => { m with overlay := [] }

/-- Applies the overlay of a mode, if the image has one, saving the bits it sets (13 R449). -/
def State.applyOverlay (s : State) (m : Mode) : State :=
  match s.cfg.image.overlays.find? fun o => o.1 == m.num with
  | none => s
  | some o =>
    let saved := o.2.map fun e => { e with value := s.regOff e.off &&& e.mask }
    (o.2.foldl (fun s e => s.applyEntry e) s).modModes fun x => { x with overlay := saved }

/-- Shows a mode without a record, as a change into M1, M0 or M2 does (13 R441). -/
def State.showMode (s : State) (m : Mode) : State :=
  (s.withdraw.modModes fun x => { x with mode := m, last := x.mode }).applyOverlay m

/-- Answers MODE_CHANGE to function 0 on both ports (03 R78). -/
def State.modeEvent (s : State) (old new : Mode) : State :=
  let r1 := old.num + 256 * new.num + 65536 * (s.devFlags % 65536)
  (s.asyncEvent .a 0 0x0003 r1).asyncEvent .b 0 0x0003 r1

/-- A mode change (13 R441): the overlays change in one step, MODE_CHANGE is recorded, DEV_MODE_CNT counts, and
function 0 is answered. -/
def State.changeMode (s : State) (new : Mode) : State :=
  let old := s.modes.mode
  let s := s.showMode new
  let s := if new = .quiesce then s.modModes fun m => { m with limit := s.regBits .cfgQuiesce 0 11 0, drained := false }
    else s.modModes fun m => { m with drained := false }
  let s := s.record 0x0101 0 (leBytes 1 old.num ++ leBytes 1 new.num ++ leBytes 2 (s.devFlags % 65536))
  (s.bump .devModeCnt 0).modeEvent old new

/-- Follows the conditions with at most one mode change (13 R439, R441). -/
def State.settle (s : State) : State :=
  if s.modeNow = s.modes.mode then s else s.changeMode s.modeNow

/-- Has Discovery ended, so that registers answer (13 R450)? A Power-Fail that ended it or came before it leaves them out of
reach (13 R439). -/
def Modes.enumerated (m : Modes) : Bool :=
  match m.mode with
  | .off | .standby | .starter | .discovery => false
  | .powerFail => m.last != .starter && m.last != .discovery
  | _ => true

/-- Does a port reach the registers: its link is up, function 0 is in D0, and Discovery has ended (13 R450)? -/
def State.mmio (s : State) (port : Port) : Bool :=
  (s.hp port).up && !(s.fp port 0).d3hot && s.modes.enumerated

/-- A write that a device-wide register does not take is recorded (14, SETTING_REJECTED). -/
def State.rejectSetting (s : State) (port : Port) (off value : Nat) : State :=
  s.record 0x0104 (portNum port) (leBytes 4 off ++ leBytes 4 value)

/-- The key of the access latches of a function, port and BAR (00 R13). -/
def latchKey (port : Port) (fn : Nat) (bar : Bar) : Nat := 2 * fpKey port fn + match bar with
  | .bar0 => 0
  | .bar2 => 1

/-- The access latches of a function, port and BAR. -/
def State.latch (s : State) (port : Port) (fn : Nat) (bar : Bar) : Latch := s.latches.lookD (latchKey port fn bar) ⟨none, none⟩

/-- Sets the access latches. -/
def State.setLatch (s : State) (port : Port) (fn : Nat) (bar : Bar) (l : Latch) : State :=
  { s with latches := if l = ⟨none, none⟩ then s.latches.del (latchKey port fn bar) else s.latches.put (latchKey port fn bar) l }

/-- REG_ACCESS (00 R13; 14 R487). -/
def State.regAccess (s : State) (port : Port) (fn : Nat) (bar : Bar) (off width reason : Nat) : State :=
  s.record 0x0103 (portNum port) (leBytes 4 (off + if fn = 0 ∧ bar = .bar2 then 2 ^ 31 else 0) ++ leBytes 1 width ++
    leBytes 1 reason ++ leBytes 2 fn)

/-- A register access that uses neither latch: a latched read half is dropped, and a held write half is discarded and
recorded (00 R13). -/
def State.otherAccess (s : State) (port : Port) (fn : Nat) (bar : Bar) : State :=
  let t := s.setLatch port fn bar ⟨none, none⟩
  match (s.latch port fn bar).write with
  | some w => t.regAccess port fn bar w.1 4 1
  | none => t

/-- Such an access to the management registers of function 0. -/
def State.mgmtAccess (s : State) (port : Port) : State := s.otherAccess port 0 .bar0

/-- Are rings fetched in the mode shown (13 R450; 03 R109, R114)? -/
def State.fetches (s : State) : Bool :=
  s.modes.running && match s.modes.mode with
  | .service | .degraded | .thermal | .maintenance | .readOnly => true
  | _ => false

end Sys2Proof.Machine
end

