-- ==== Sys2Proof/Machine/Commands.lean ====
section
/-! DEFINITION. Stream contexts (04 R137 to R141) and the life of a fetched command (03 R95 to R103): when it may
start, what it reads from host memory, how it ends, and what its end lets go on. -/
namespace Sys2Proof.Machine

/-! ## Stream contexts -/

/-- The contexts a tenant holds (*H* of 04 R137). -/
def State.ctxHeld (s : State) (n : Nat) : Nat := (s.ctxs.filter fun c => c.tenant == n).length

/-- CTX_QUOTA and CTX_RESERVE in force; function 0 has 2 and 0 (04 R515). -/
def State.ctxQuota (s : State) (n : Nat) : Nat := if n = 0 then 2 else bitsOf (s.tenant n).active.ctx.toNat 18 0

/-- CTX_RESERVE in force. -/
def State.ctxReserve (s : State) (n : Nat) : Nat :=
  if n = 0 || !(s.tenant n).enabled then 0 else bitsOf (s.tenant n).active.resv.toNat 18 0

/-- The free contexts of the device (*F* of 04 R137). -/
def State.ctxFree (s : State) : Nat := 262144 - s.ctxs.length

/-- The reserved contexts not yet taken (*U* of 04 R137). -/
def State.ctxUnused (s : State) : Nat := s.tenants.foldl (fun a t => a + (s.ctxReserve t.1 - s.ctxHeld t.1)) 0

/-- May the tenant open one more context (04 R137)? -/
def State.ctxAllowed (s : State) (n : Nat) : Bool :=
  let h := s.ctxHeld n
  decide (h < s.ctxQuota n) && (decide (h < s.ctxReserve n) || decide (s.ctxFree > s.ctxUnused))

/-- The first slot from a start that no context uses, in `n` tries. -/
def freeSlotFrom (used : List Nat) : Nat → Nat → Nat
  | 0, k => k
  | n + 1, k => if used.contains k then freeSlotFrom used n ((k + 1) % 262144) else k

/-- A handle of a slot and its allocation count: 16,383 values a slot goes through before one returns (04 R141). -/
def handleOf (slot alloc : Nat) : Nat := (alloc % 16383 + 1) * 2 ^ 18 + slot

/-- Is a context in use by a command in progress: one that names it, works on it, or holds it until it ends (04 R137,
R139; 08 R274)? -/
def State.ctxBusy (s : State) (c : Ctx) : Bool :=
  match c.kind with
  | .job _ => true
  | .transient _ => true
  | _ => s.cmds.any fun k => k.started && k.fn == c.tenant &&
      (k.pkt.stream == c.handle || (k.pkt.opcode == 0x90 && k.launched && k.ref == c.handle))

/-- The stacks that a context written to the store goes to: two, of different Batches, freely chosen among those that are
not lost (04 R139). -/
def State.storeStacks (s : State) : List Nat :=
  let on := (List.range 8).filter fun n => !(s.mem.memStacks.any fun x => x.1 == n && x.2.st == 2)
  match on[s.choice (max on.length 1)]? with
  | none => []
  | some a =>
    let far := on.filter fun n => n / 2 != a / 2
    match far[s.tick.choice (max far.length 1)]? with
    | some b => [a, b]
    | none => [a]

/-- Makes a place in the cache of 16,384 contexts, by evicting one that no command in progress uses, freely chosen; an
evicted context is written to both copies. None where all are in use (04 R139). -/
def State.cacheRoom (s : State) : Option State :=
  if (s.ctxs.filter Ctx.cached).length < 16384 then some s
  else
    let cands := (s.ctxs.filter fun c => c.cached && !s.ctxBusy c).map Ctx.handle
    match cands[s.choice (max cands.length 1)]? with
    | some h =>
      let l := s.tick.storeStacks
      some ({ s with
        ctxs := adjWhere s.ctxs (fun c => c.handle == h) fun c => { c with cached := false, copies := l } }).tick.tick.tick
    | none => none

/-- Takes a context for a tenant: its handle and the state; none where 04 R137 refuses it. Which free slot is
taken is a free choice. -/
def State.openCtx (s : State) (n : Nat) (port : Port) (kind : CtxKind) : Option (Nat × State) :=
  if s.ctxAllowed n then
    let room := s.cacheRoom
    let s := room.getD s
    let slot := freeSlotFrom (s.ctxs.map Ctx.slot) (s.ctxs.length + 1) (s.choice 262144)
    let alloc := s.slotAllocs.lookD slot 0
    let h := handleOf slot alloc
    some (h, ({ s with
      ctxs := s.ctxs ++ [(⟨h, slot, n, port, kind, room.isSome, if room.isSome then [] else s.tick.storeStacks⟩ : Ctx)]
      slotAllocs := s.slotAllocs.put slot (alloc + 1) }).tick.tick.tick)
  else none

/-- The open context a handle names for a tenant (04 R141). -/
def State.ctx? (s : State) (n h : Nat) : Option Ctx := s.ctxs.find? fun c => c.handle == h && c.tenant == n

/-- Changes a context. -/
def State.modCtx (s : State) (h : Nat) (f : Ctx → Ctx) : State :=
  { s with ctxs := adjWhere s.ctxs (fun c => c.handle == h) f }

/-- Changes the write stream of a context. -/
def State.modStream (s : State) (h : Nat) (f : WriteStream → WriteStream) : State :=
  s.modCtx h fun c => match c.kind with
    | .write w => { c with kind := .write (f w) }
    | _ => c

/-- The write stream of a handle. -/
def State.stream? (s : State) (n h : Nat) : Option WriteStream :=
  match s.ctx? n h with
  | some c => match c.kind with
    | .write w => some w
    | _ => none
  | none => none

/-- Returns a context to the free pool, with the digest messages it owns (02 R41, 08 R274). -/
def State.closeCtx (s : State) (h : Nat) : State :=
  { s with
    ctxs := s.ctxs.filter fun c => c.handle != h
    digests := { s.digests with msgs := s.digests.msgs.filter fun m => match m.owner with
      | .stream x => x != h
      | _ => true } }

/-! ## Fetched commands -/

/-- The command of a tag. -/
def State.cmd? (s : State) (tag : Nat) : Option Cmd := s.cmds.find? fun c => c.tag == tag

/-- Changes a command. -/
def State.modCmd (s : State) (tag : Nat) (f : Cmd → Cmd) : State :=
  { s with cmds := adjWhere s.cmds (fun c => c.tag == tag) f }

/-- FLAGS.ORD of a packet. -/
def Packet.ord (p : Packet) : Bool := bitOf p.flags 0

/-- FLAGS.LIST of a packet. -/
def Packet.list (p : Packet) : Bool := bitOf p.flags 2

/-- The little-endian field at a packet offset of 24 or above. -/
def Packet.fld (p : Packet) (off len : Nat) : Nat := fieldLe p.body (off - 24) len

/-- A range that a command names (03 R99). -/
inductive Span where
  | lba (ns lo hi : Nat)
  | object (space oid : Nat)
  | stream (handle : Nat)
deriving DecidableEq, Repr

/-- Do two ranges meet? -/
def Span.meets : Span → Span → Bool
  | .lba n a b, .lba m c d => n == m && decide (a ≤ d) && decide (c ≤ b)
  | .object x o, .object y p => x == y && o == p
  | .stream h, .stream k => h == k
  | _, _ => false

/-- The object of a stream, as a range. -/
def State.streamObject (s : State) (n h : Nat) : List Span :=
  match s.ctx? n h with
  | some c => match c.kind with
    | .write w => [.object w.space w.oid]
    | .read sp oid _ => [.object sp oid]
    | _ => []
  | none => []

/-- The ranges a command names (03 R99). -/
def State.spans (s : State) (c : Cmd) : List Span :=
  let p := c.pkt
  if p.opcode = 0x20 ∨ p.opcode = 0x21 then [.lba p.container (p.fld 24 8) (p.fld 24 8 + p.fld 32 2)]
  else if p.opcode = 0x23 then [.lba p.container (p.fld 24 8) (p.fld 24 8 + p.fld 32 4)]
  else if p.opcode ∈ [0x40, 0x45, 0x47, 0x49] then [.object p.container (p.fld 24 16)]
  else if p.opcode = 0x44 then
    if p.stream = 0 then [.object p.container (p.fld 24 16)] else s.streamObject c.fn p.stream
  else if p.opcode = 0x48 then
    if bitOf p.aux 0 then .stream p.stream :: s.streamObject c.fn p.stream else [.object p.container (p.fld 24 16)]
  else if p.opcode = 0x42 then .stream p.stream :: s.streamObject c.fn p.stream
  else if p.opcode = 0x41 ∨ p.opcode = 0x43 then [.stream p.stream]
  else []

/-- Has a command still to take effect? A read takes effect when it resolves what it reads; the others when they
end (03, "Ordering"). -/
def Cmd.pendingEffect (c : Cmd) : Bool := !(c.launched && (c.pkt.opcode == 0x20 || c.pkt.opcode == 0x44))

/-- The earlier commands on a command's ring. -/
def State.earlier (s : State) (c : Cmd) : List Cmd :=
  s.cmds.filter fun e => e.fn == c.fn && e.port == c.port && e.qid == c.qid && decide (e.tag < c.tag)

/-- Does an earlier overlapping command still have to take effect (03 R99)? -/
def State.overlapped (s : State) (c : Cmd) : Bool :=
  let mine := s.spans c
  (s.earlier c).any fun e => e.pendingEffect && (s.spans e).any fun x => mine.any fun y => x.meets y

/-- May a fetched command start (03 R99, R100, R109; 04 R132)? A BLOCK_WRITE does not wait for an overlap: its map
entries do. -/
def State.mayStart (s : State) (c : Cmd) : Bool :=
  s.fetches && (c.fn == 0 || (s.tenant c.fn).state == .running) &&
  !((s.earlier c).any fun e => e.pkt.ord) && !(c.pkt.ord && !(s.earlier c).isEmpty) &&
  (c.pkt.opcode == 0x21 || !s.overlapped c)

/-- Does the opcode read its data buffer from the host (03 R90)? -/
def Packet.inbound (p : Packet) : Bool :=
  decide (p.dataLen > 0) && (p.opcode ∈ [0x21, 0x40, 0x41, 0x70, 0x72, 0x90, 0x91, 0x92, 0xA0, 0xF5, 0xF8, 0xFD, 0xFE]
    || (p.opcode == 0xFB && bitsOf p.aux 2 0 == 4) || (p.opcode == 0xFF && bitsOf p.aux 2 0 ∈ [0, 3]))

/-- The host reads that fetch a command's payload: its buffer, or the pages of its list (03 R87). -/
def State.readPayload (s : State) (c : Cmd) : State :=
  if c.pkt.list then
    (List.range c.pages.length).foldl (fun s i =>
      s.readHost c.port c.fn (.cmd c.tag) (c.pages.getD i 0) (min 4096 (c.pkt.dataLen - 4096 * i))) s
  else s.readHost c.port c.fn (.cmd c.tag) c.pkt.dataAddr c.pkt.dataLen

/-- Removes a command, with the transient context it holds and its digest messages (08 R274). -/
def State.dropCmd (s : State) (tag : Nat) : State :=
  { s with
    cmds := s.cmds.filter fun c => c.tag != tag
    ctxs := s.ctxs.filter fun c => match c.kind with
      | .transient t => t != tag
      | _ => true
    digests := { s.digests with msgs := s.digests.msgs.filter fun m => match m.owner with
      | .direct t => t != tag
      | .raw t => t != tag
      | _ => true } }

/-- Ends a command with one reply (03 R95, R96): a reply that is not OK is logged first (R92); a command that a
reset has doomed posts none and is counted (R104). FN_CTX_EXHAUSTED counts function 0's replies too (DESIGN CHOICE, log
entry 146). -/
def State.finish (s : State) (c : Cmd) (st : Status) (r0 r1 r2 : Nat) (check : Nat := 0) (field : Nat := 0xFFFF) : State :=
  let s := s.dropCmd c.tag
  if c.doomed then s.countLate c.port c.fn
  else
    let s := if st = .ok then s else s.logError c st check field r1
    let s := if st = .ctxExhausted then s.bump .fnCtxExhausted 0 else s
    s.reply c st r0 r1 r2

/-- The map entries of a write switch: an LBA takes the new location where its DATA_SEQ is higher than that of
the entry it replaces (10 R358). -/
def Namespace.switch (n : Namespace) (placed : List (Nat × MapEntry)) : Namespace :=
  { n with map := placed.foldl (fun m p => match AMap.look m p.1 with
      | some e => if e.seq < p.2.seq then AMap.put m p.1 p.2 else m
      | none => AMap.put m p.1 p.2) n.map }

/-- Switches a tenant's namespace to new locations. -/
def State.switchMap (s : State) (tenant ns : Nat) (placed : List (Nat × MapEntry)) : State :=
  s.modTenant tenant fun t => { t with nss := t.nss.adj ns fun n => n.switch placed }

/-- The opcodes FLUSH waits for (03 R101). -/
def Packet.writes (p : Packet) : Bool := p.opcode ∈ [0x21, 0x23, 0x41, 0x42, 0x47, 0x49]

/-- Lets one command go on that only waited for earlier ones: a BLOCK_WRITE whose groups are all durable takes
effect and is acknowledged (02 R60; 03 R99), a FLUSH completes (03 R101). -/
def State.pumpOne (s : State) (tag : Nat) : State :=
  match s.cmd? tag with
  | none => s
  | some c =>
    if !c.launched then s
    else if c.pkt.opcode = 0x21 ∧ c.groups = [] ∧ c.verdict = none ∧ !s.overlapped c then
      let s := s.modFlash fun f => { f with health := { f.health with hostWritten := f.health.hostWritten + c.pkt.dataLen } }
      (s.switchMap c.fn c.pkt.container c.placed).finish c .ok c.pkt.dataLen 0 0
    else if c.pkt.opcode = 0x22 ∧ !((s.earlier c).any fun e => e.pkt.writes) then s.finish c .ok 0 0 0
    else s

/-- Lets every waiting command go on, in ring order. -/
def State.pump (s : State) : State := (s.cmds.map Cmd.tag).foldl State.pumpOne s

/-- Does a queue pair being deleted still wait for a started command (03 R511, R513)? -/
def State.qpBusy (s : State) (q : QueuePair) : Bool :=
  s.cmds.any fun c => c.fn == q.fn && c.port == q.port && c.qid == q.qid && c.pkt.opcode != 0x06 &&
    decide (q.deleting ≠ some (some c.tag))

/-- Ends the deletion of one queue pair (03 R511): its ASYNC_EVENT requests go without a reply, its QID is free,
and the DELETE_QP that waited is answered. -/
def State.reapOne (s : State) (q : QueuePair) : State :=
  match q.deleting with
  | none => s
  | some waiter =>
    if s.qpBusy q then s
    else
      let s := { s with
        qps := s.qps.filter fun x => !(x.fn == q.fn && x.port == q.port && x.qid == q.qid)
        cmds := s.cmds.filter fun c => !(c.fn == q.fn && c.port == q.port && c.qid == q.qid && c.pkt.opcode == 0x06) }
      match waiter with
      | some tag => match s.cmd? tag with
        | some c => s.finish c .ok 0 0 0
        | none => s
      | none => s

/-- Ends the deletions that can end: first of I/O queue pairs, then of admin queue pairs. -/
def State.reap (s : State) : State :=
  let s := (s.qps.filter fun q => q.qid != 0).foldl State.reapOne s
  (s.qps.filter fun q => q.qid == 0).foldl State.reapOne s

/-- Ends a command with a reply, and lets go on what waited for it. -/
def State.complete (s : State) (c : Cmd) (st : Status) (r0 r1 r2 : Nat) : State :=
  (s.finish c st r0 r1 r2).pump.reap

/-- Ends a command with a status that is not OK and zero results (03 R93). -/
def State.fail (s : State) (c : Cmd) (st : Status) : State := s.complete c st 0 0 0

/-- Ends a command that a check of 03 R89 fails, with the check's number and the field's offset in the log. -/
def State.failCheck (s : State) (c : Cmd) (st : Status) (check field : Nat) : State :=
  (s.finish c st 0 0 0 check field).pump.reap

/-- Starts a command: the first action is its host read, if it has one (03 R103). A host read that the function
cannot make fails it (04 R121). -/
def State.startCmd (s : State) (tag : Nat) : State :=
  match s.cmd? tag with
  | none => s
  | some c =>
    let needList := c.pkt.list && decide (c.pkt.dataLen > 0)
    if (needList || c.pkt.inbound) && !s.usable c.port c.fn then
      (s.modCmd tag fun c => { c with started := true }).fail { c with started := true } .hostDmaError
    else if needList then
      (s.modCmd tag fun c => { c with started := true, want := .pageList }).readHost c.port c.fn (.cmd tag) c.pkt.dataAddr
        (8 * ((c.pkt.dataLen + 4095) / 4096))
    else if c.pkt.inbound then (s.modCmd tag fun c => { c with started := true, want := .payload }).readPayload c
    else s.modCmd tag fun c => { c with started := true }

/-- Is the context that a command names in the cache, or is there none (04 R139)? -/
def State.ctxReady (s : State) (c : Cmd) : Bool :=
  match s.ctxs.find? fun x => x.tenant == c.fn && x.handle == c.pkt.stream with
  | some x => x.cached
  | none => true

/-- The command a row of the opcode table carries out: of this tag, with this opcode, started, its host data and its
stream context here, not yet launched. -/
def State.ready (s : State) (tag op : Nat) : Option Cmd :=
  match s.cmd? tag with
  | none => none
  | some c =>
    if c.pkt.opcode = op ∧ c.started ∧ !c.launched ∧ c.want = .nothing ∧ s.awake ∧ s.ctxReady c then some c else none

/-- The payload a command read. -/
def Cmd.data (c : Cmd) : List Byte := c.payload.getD []

/-- Marks a command launched: its row has been carried out, and what remains is waiting. -/
def State.launch (s : State) (tag : Nat) (f : Cmd → Cmd := id) : State :=
  s.modCmd tag fun c => { f c with launched := true }

/-- Writes payload to a command's buffer and completes it with OK; it fails with HOST_DMA_ERROR where the function
is not usable (04 R121). -/
def State.deliver (s : State) (c : Cmd) (b : List Byte) (r0 r1 r2 : Nat) : State :=
  if !b.isEmpty && !s.usable c.port c.fn then s.fail c .hostDmaError
  else (if c.doomed then s else s.writeBuf c 0 b).complete c .ok r0 r1 r2

/-- What a write of `n` bytes meets (10 R368), with RO_WEAR set where it makes it hold. -/
def State.needSpace (s : State) (n : Nat) : Option Status × State :=
  match s.spaceFor n with
  | some .readOnly => (some .readOnly, (s.modFlash fun f => { f with roWear := true }).settle)
  | r => (r, s)

/-- The next data sequence number (02 R63). -/
def State.takeSeq (s : State) : Nat × State := (s.flash.seq, s.modFlash fun f => { f with seq := f.seq + 1 })

end Sys2Proof.Machine
end

