-- ==== Sys2Proof/Machine/Objects.lean ====
section
/-! DEFINITION. Objects and their versions (02 R37 to R57): what is current, what is pinned, content and its
digest, and what counts against the quotas (04 R143). -/
namespace Sys2Proof.Machine

/-! ## Versions -/

/-- The object of a version. -/
def Version.is (v : Version) (tenant space oid : Nat) : Bool := v.tenant == tenant && v.space == space && v.oid == oid

/-- The latest visible version of an object, live or a tombstone (R49). -/
def State.latest (s : State) (tenant space oid : Nat) : Option Version :=
  greatestBy (s.versions.filter fun v => v.is tenant space oid) Version.version

/-- The current version of an object, if it is live. -/
def State.current (s : State) (tenant space oid : Nat) : Option Version := (s.latest tenant space oid).filter Version.live

/-- The accepted commits of an object that are not visible yet, in commit order (R48). -/
def State.commitsOf (s : State) (tenant space oid : Nat) : List Commit :=
  s.commits.filter fun c => c.ver.is tenant space oid

/-- The latest version of an object in commit order (R48). -/
def State.latestInOrder (s : State) (tenant space oid : Nat) : Option Version :=
  match (s.commitsOf tenant space oid).getLast? with
  | some c => some c.ver
  | none => s.latest tenant space oid

/-- The version a number names, if it is kept. -/
def State.version? (s : State) (tenant space oid ver : Nat) : Option Version :=
  s.versions.find? fun v => v.is tenant space oid && v.version == ver && v.live

/-- Does a job pin a version, as an input or as its table (05 R176)? -/
def Job.pins (j : Job) (v : Version) : Bool :=
  (j.desc.inputs.any fun i => i.pin.isSome && v.is j.tenant i.container i.oid && v.version == i.version) ||
  (bitOf j.desc.flags 4 && v.is j.tenant j.desc.tableSpace j.desc.tableOid && v.version == j.tableVersion)

/-- Is a version pinned by a read stream (R54) or a job (05 R176)? -/
def State.pinnedVersion (s : State) (v : Version) : Bool :=
  (s.jobs.any fun j => j.pins v) || s.ctxs.any fun c => match c.kind with
    | .read sp oid ver => v.is c.tenant sp oid && v.version == ver
    | _ => false

/-- Resolves a version selector (R52): 0 is the current version; another value is read only while it is current
or pinned. -/
def State.resolve (s : State) (tenant space oid sel : Nat) : Except Status Version :=
  match s.current tenant space oid with
  | none => .error .notFound
  | some v =>
    if sel = 0 ∨ sel = v.version then .ok v
    else match s.version? tenant space oid sel with
      | some w => if s.pinnedVersion w then .ok w else .error .versionGone
      | none => .error .versionGone

/-- Keeps the latest version of every object and the pinned ones; the others have been superseded. -/
def State.pruneVersions (s : State) : State :=
  { s with versions := s.versions.filter fun v =>
      (s.latest v.tenant v.space v.oid).any (fun w => w.version == v.version) || s.pinnedVersion v }

/-! ## Content -/

/-- Content bytes of some extents on `[lo, hi)`; what no extent holds reads as zero. -/
def extentBytes (es : List Extent) (lo hi : Nat) : List Byte :=
  es.foldl (fun b e =>
    let from' := max lo e.off
    let upto := min hi (e.off + e.data.length)
    if from' < upto then overlay b (from' - lo) ((e.data.drop (from' - e.off)).take (upto - from')) else b) (zeros (hi - lo))

/-- The digest of an object's content: 1 SHA-256, 2 SHA-512/256, 3 SHA3-256 (R51). -/
def contentDigest (alg : Nat) (b : List Byte) : List Byte :=
  if alg = 1 then sha256 b else if alg = 2 then sha512t256 b else sha3 b

/-- The first offset not yet received: received ranges are joined in offset order from START (R44). In-flight
appends count as received: their bytes are held. -/
def WriteStream.frontier (w : WriteStream) : Nat :=
  (List.range w.parts.length).foldl (fun f _ =>
    w.parts.foldl (fun f p => if p.off ≤ f then max f (p.off + p.data.length) else f) f) w.start

/-- Bytes received (03 R90, STREAM_QUERY). -/
def WriteStream.received (w : WriteStream) : Nat := w.parts.foldl (fun n p => n + p.data.length) 0

/-- Does a range overlap bytes already received, those below START included (R42)? -/
def WriteStream.overlaps (w : WriteStream) (off len : Nat) : Bool :=
  decide (off < w.start) || w.parts.any fun p => decide (off < p.off + p.data.length) && decide (p.off < off + len)

/-- The bytes a stream brings, from START to the declared length. -/
def WriteStream.segment (w : WriteStream) : List Byte :=
  extentBytes (w.parts.map fun p => ⟨p.off, p.data, [], 0, 0⟩) w.start w.declLen

/-! ## Quotas (04 R143) -/

/-- The write streams of a space: tenant's contexts that are Open or Committing. -/
def State.spaceStreams (s : State) (tenant space : Nat) : List WriteStream :=
  s.ctxs.filterMap fun c => if c.tenant = tenant then match c.kind with
    | .write w => if w.space = space then some w else none
    | _ => none else none

/-- The jobs of a tenant that write an output object to a space, not yet committed (05 R194). -/
def State.spaceJobs (s : State) (tenant space : Nat) : List Job :=
  s.jobs.filter fun j => j.tenant == tenant && bitOf j.desc.flags 1 && j.desc.outSpace == space && decide (j.outPhase < 3)

/-- The live versions of a space. -/
def State.spaceLive (s : State) (tenant space : Nat) : List Version :=
  s.versions.filter fun v => v.tenant == tenant && v.space == space && v.live &&
    (s.latest tenant space v.oid).any fun w => w.version == v.version

/-- The bytes counted against BYTE_QUOTA. -/
def State.spaceBytes (s : State) (tenant space : Nat) : Nat :=
  ((s.spaceLive tenant space).map Version.length).sum +
  ((s.spaceStreams tenant space).map fun w => w.declLen - w.start).sum +
  ((s.spaceJobs tenant space).map fun j => j.records.length).sum

/-- The objects counted against OBJECT_QUOTA. -/
def State.spaceObjects (s : State) (tenant space : Nat) : Nat :=
  (s.spaceLive tenant space).length +
  ((s.spaceStreams tenant space).filter fun w => (s.current tenant space w.oid).isNone).length +
  ((s.spaceJobs tenant space).filter fun j => (s.current tenant space j.desc.outOid).isNone).length

/-- The objects the device indexes, with those being created (01 R28). -/
def State.deviceObjects (s : State) : Nat :=
  (s.tenants.map fun t => (t.2.spaces.map fun x => s.spaceObjects t.1 x.1).sum).sum

/-- The object space of a tenant, if it exists. -/
def State.space? (s : State) (tenant space : Nat) : Option Space :=
  ((s.tenant tenant).spaces.look space).filter Space.live

/-- The namespace of a tenant, if it exists. -/
def State.ns? (s : State) (tenant ns : Nat) : Option Namespace := (s.tenant tenant).nss.look ns

/-- May an object be created in a space: its object quota, then the device's limit (R119, 05 R173)? -/
def State.createOk (s : State) (tenant space oid : Nat) : Option Status :=
  if (s.current tenant space oid).isSome then none
  else match s.space? tenant space with
    | none => some .containerUnknown
    | some sp => if sp.objectQuota ≠ 0 ∧ s.spaceObjects tenant space + 1 > sp.objectQuota then some .quotaObjects else none

/-- Is the device's object index full for one more object (01 R28)? -/
def State.indexFull (s : State) (tenant space oid : Nat) : Bool :=
  (s.current tenant space oid).isNone && decide (s.deviceObjects + 1 > 3000000000)

/-- Refuses bytes beyond a space's byte quota. -/
def State.bytesOk (s : State) (tenant space n : Nat) : Bool :=
  match s.space? tenant space with
  | some sp => sp.byteQuota == 0 || decide (s.spaceBytes tenant space + n ≤ sp.byteQuota)
  | none => false

/-- The live object numbers of a space at or above a number, ascending, each with its version (03 R91, LIST). -/
def State.listFrom (s : State) (tenant space start : Nat) : List (Nat × Nat) :=
  sortBy Prod.fst (((s.spaceLive tenant space).filter fun v => decide (start ≤ v.oid)).map fun v => (v.oid, v.version))

end Sys2Proof.Machine
end

