-- ==== Sys2Proof/Machine/MemOps.lean ====
section
/-! DEFINITION. In-package memory (11): the address map, the product code, the merge buffers, stack parity, and
reads and writes by memory address. A byte lies at stack × 2^40 + stack address, a block at that div 32. -/
namespace Sys2Proof.Machine

/-! ## Byte memories -/

/-- A byte of a memory; an unlisted address reads as zero. -/
def Memory.get : Memory → Nat → Byte
  | [], _ => 0
  | (k, b) :: m, a => if k = a then b else Memory.get m a

/-- Writes a byte, keeping the canonical form: zero takes the entry out. -/
def Memory.put : Memory → Nat → Byte → Memory
  | [], a, b => if b = 0 then [] else [(a, b)]
  | (k, c) :: m, a, b =>
    if k < a then (k, c) :: Memory.put m a b
    else if k = a then (if b = 0 then m else (a, b) :: m)
    else if b = 0 then (k, c) :: m else (a, b) :: (k, c) :: m

/-- Are the addresses of a memory rising from above a bound, with no zero listed? -/
def Memory.wfFrom : Option Nat → Memory → Bool
  | _, [] => true
  | lo, (k, b) :: m => (match lo with | none => true | some l => decide (l < k)) && b != 0 && Memory.wfFrom (some k) m

/-- The canonical form: rising addresses, no entry equal to zero. -/
def Memory.wf (m : Memory) : Bool := Memory.wfFrom none m

/-- Reads bytes from an address. -/
def Memory.read (m : Memory) (a n : Nat) : List Byte := (List.range n).map fun i => m.get (a + i)

/-- Writes bytes from an address. -/
def Memory.write (m : Memory) (a : Nat) : List Byte → Memory
  | [] => m
  | b :: r => Memory.write (m.put a b) (a + 1) r

/-- Writes zeros over the listed bytes of a range: they leave the list. -/
def Memory.clear (m : Memory) (lo hi : Nat) : Memory := m.filter fun c => !(decide (lo ≤ c.1) && decide (c.1 < hi))

/-! ## The address map (R381 to R383) -/

/-- The first stack address of staging, job memory, firmware and tables, and the spare area (R381). -/
def stagingBase : Nat := 12518 * 2 ^ 21
/-- First byte of the job memory bands. -/
def jobBase : Nat := 14903 * 2 ^ 21
/-- First byte of the firmware bands. -/
def firmwareBase : Nat := 16811 * 2 ^ 21
/-- First byte of the spare bands. -/
def spareBase : Nat := 17169 * 2 ^ 21

/-- The stack and stack address of a memory address, or none where the address is invalid (R382). -/
def locate (addr : Nat) : Option (Nat × Nat) :=
  let region := bitsOf addr 39 37
  if addr ≥ 2 ^ 40 then none
  else if region = 0 then
    let o := addr % 2 ^ 37
    let g := o / 256 / 7
    let j := o / 256 % 7
    if o < 183765041152 then some (if j < g % 8 then j else j + 1, g * 256 + o % 256) else none
  else if region = 1 ∨ region = 2 then
    let b := bitsOf addr 36 35
    let o := addr % 2 ^ 35
    let first := if region = 1 then stagingBase else jobBase
    let size := if region = 1 then 10003415040 else 8002732032
    if o < size then some (2 * b + o / 8192 % 2, first + o / 16384 * 8192 + o % 8192) else none
  else if region = 3 then
    let o := addr % 2 ^ 37
    let k := o / 8192 % 4
    if o < 3003121664 then some (if k < 2 then k else k + 2, firmwareBase + o / 32768 * 8192 + o % 8192) else none
  else none

/-- The memory address of offset `o` in the job memory of a Batch (R382). -/
def jobAddr (b o : Nat) : Nat := 2 * 2 ^ 37 + b % 4 * 2 ^ 35 + o

/-- The controller of a stack address (R383). -/
def ctrlOf (stack sa : Nat) : Nat := stack * 32 + bitsOf sa 12 8

/-- The stack that holds the other copy of a firmware line (R382). -/
def mirrorOf (stack : Nat) : Nat := if stack % 4 < 2 then stack + 2 else stack - 2

/-- A retired page that is active goes to its spare page (R407). -/
def State.remapped (s : State) (stack sa : Nat) : Nat :=
  match s.mem.remap.find? fun e => e.1 / 4096 == stack && e.2.st == 2 && e.2.old == sa / 4096 with
  | some e => e.2.new * 4096 + sa % 4096
  | none => sa

/-- The region of a stack address, a spare page counting as the page it stands for: 0 metadata, 1 staging, 2 job
memory, 3 firmware and tables, 4 spare (R381). -/
def State.regionOf (s : State) (stack sa : Nat) : Nat :=
  let sa := match s.mem.remap.find? fun e => e.1 / 4096 == stack && e.2.st != 0 && e.2.new == sa / 4096 with
    | some e => e.2.old * 4096
    | none => sa
  if sa < stagingBase then 0 else if sa < jobBase then 1 else if sa < firmwareBase then 2
  else if sa < spareBase then 3 else 4

/-! ## The product code (R394 to R397) -/

/-- The classes of R395. -/
inductive EccClass where
  | clean | dataBit (bit : Nat) | checkBit | poison | uncorrectable
deriving DecidableEq, Repr

/-- The number of one bits among the low 16. -/
def weight16 (x : Nat) : Nat := ((List.range 16).filter fun i => bitOf x i).length

/-- The lowest one bit among the low 16. -/
def lowBit16 (x : Nat) : Nat := ((List.range 16).find? fun i => bitOf x i).getD 0

/-- Do a row and a column syndrome fall in the Data bit class? -/
def isDataBit (r c : Nat) : Bool := weight16 r == 1 && weight16 c == 1

/-- Do they fall in the Check bit class? -/
def isCheckBit (r c : Nat) : Bool := (weight16 r == 1 && c == 0) || (r == 0 && weight16 c == 1)

/-- The class of a row and a column syndrome: the first row of R395 that applies. -/
def eccClass (r c : Nat) : EccClass :=
  let p := 0xFFFF - r % 65536
  let q := 0xFFFF - c % 65536
  if r == 0 && c == 0 then .clean
  else if isDataBit r c then .dataBit (16 * lowBit16 r + lowBit16 c)
  else if isCheckBit r c then .checkBit
  else if (p == 0 && q == 0) || isDataBit p q || isCheckBit p q then .poison
  else .uncorrectable

/-- The check word of 256 data bits (R394). -/
def checkWord (d : BitVec 256) : BitVec 32 :=
  let rows := (List.range 16).map fun r => ((List.range 16).filter fun c => d.getLsbD (16 * r + c)).length % 2
  let cols := (List.range 16).map fun c => ((List.range 16).filter fun r => d.getLsbD (16 * r + c)).length % 2
  BitVec.ofNat 32 ((List.range 16).foldl (fun a i => a + rows.getD i 0 * 2 ^ i + cols.getD i 0 * 2 ^ (16 + i)) 0)

/-! ## Blocks -/

/-- The number of the block that holds a stack address: after the spare pages. -/
def State.blockNo (s : State) (stack sa : Nat) : Nat := stack * 2 ^ 35 + s.remapped stack sa / 32

/-- The data bits of a block as stored. -/
def PkgMem.data (m : PkgMem) (blk : Nat) : BitVec 256 := BitVec.ofNat 256 (leNat (m.bytes.read (32 * blk) 32))

/-- The syndromes of a block: stored check word xor correct check word. -/
def PkgMem.syndrome (m : PkgMem) (blk : Nat) : BitVec 32 := m.err.lookD blk 0

/-- The class a block reads with. -/
def PkgMem.cls (m : PkgMem) (blk : Nat) : EccClass :=
  eccClass ((m.syndrome blk).toNat % 65536) ((m.syndrome blk).toNat / 65536)

/-- Stores a block's data bits and its syndromes; zero syndromes are not listed. -/
def PkgMem.store (m : PkgMem) (blk : Nat) (d : BitVec 256) (e : BitVec 32) : PkgMem :=
  { m with bytes := m.bytes.write (32 * blk) (leBytes 32 d.toNat), err := if e = 0 then m.err.del blk else m.err.put blk e }

/-- Changes the package memory. -/
def State.modMem (s : State) (f : PkgMem → PkgMem) : State := { s with mem := f s.mem }

/-- A pseudo-channel controller as power-on leaves it. -/
def MemCtrl.init : MemCtrl := ⟨0, false, 0, 0, [], [], [], 7, 0, [], []⟩

/-- A memory controller. -/
def State.ctrl (s : State) (c : Nat) : MemCtrl := s.mem.ctrls.lookD c MemCtrl.init

/-- Changes a memory controller. -/
def State.modCtrl (s : State) (c : Nat) (f : MemCtrl → MemCtrl) : State :=
  s.modMem fun m => { m with ctrls := m.ctrls.upd c MemCtrl.init f }

/-- The area of 64 KiB of job memory that a stack address lies in, by Batch × 2^20 + offset div 2^16 (R382). -/
def jobArea (stack sa : Nat) : Nat :=
  let rel := sa - jobBase
  stack / 2 * 2 ^ 20 + (rel / 8192 * 16384 + stack % 2 * 8192 + rel % 8192) / 65536

/-- Is the line at a stack address lost: its pseudo-channel failed (R404), and, in job memory, the allocator has not put
another line in its place (R405)? -/
def State.lineLost (s : State) (stack sa : Nat) : Bool :=
  (s.ctrl (ctrlOf stack sa)).st == 2 &&
    !(decide (jobBase ≤ sa) && decide (sa < firmwareBase) && s.mem.moved.contains (jobArea stack sa))

/-- The allocator of a Batch's job memory no longer uses lost lines (R405, R406): once a line of the Batch is lost, a range
that is given out or written anew stands on others. Which these are, and that they become fewer, is not shown (DESIGN
CHOICE, log entry 159). -/
def State.moveArea (s : State) (batch off len : Nat) : State :=
  if s.mem.ctrls.any fun c => c.1 / 64 == batch && c.2.st == 2 then
    let areas := (List.range ((off + len + 65535) / 65536 - off / 65536)).map fun i => batch * 2 ^ 20 + off / 65536 + i
    s.modMem fun m => { m with moved := m.moved ++ areas.filter fun a => !m.moved.contains a }
  else s

/-- The stacks of a metadata group other than one. -/
def otherStacks (stack : Nat) : List Nat := (List.range 8).filter (· != stack)

/-- The exclusive or of the blocks at one stack address on several stacks, as stored (R403). -/
def State.xorLines (s : State) (ss : List Nat) (sa : Nat) : BitVec 256 :=
  ss.foldl (fun a k => a ^^^ s.mem.data (s.blockNo k sa)) 0

/-- Inverts one data bit. -/
def flipBit (d : BitVec 256) (b : Nat) : BitVec 256 := d ^^^ (1#256 <<< b)

/-- A read of a block by its stack and stack address, with the write-backs of R395 and the recovery of R398 and
R405: the data, whether it is delivered as poison, and the state. `consumed` says that the reader consumes it. -/
def State.readBlock (s : State) (stack sa : Nat) (consumed : Bool) : BitVec 256 × Bool × State :=
  let blk := s.blockNo stack sa
  let region := s.regionOf stack (s.remapped stack sa)
  let d := s.mem.data blk
  if s.lineLost stack sa then
    if region = 0 then (s.xorLines (otherStacks stack) sa, false, s.bump .memCnt 5)
    else if region = 3 then (s.mem.data (s.blockNo (mirrorOf stack) sa), s.lineLost (mirrorOf stack) sa, s)
    else (d, true, if consumed then s.bump .memCnt 4 else s)
  else match s.mem.cls blk with
    | .clean => (d, false, s)
    | .dataBit b => (flipBit d b, false, (s.modMem fun m => m.store blk (flipBit d b) 0).bump .memCnt 0)
    | .checkBit => (d, false, (s.modMem fun m => m.store blk d 0).bump .memCnt 1)
    | cls =>
      let s := if cls = .uncorrectable then
          (s.bump .memCnt 2).record 0x0402 stack (leBytes 5 sa ++ leBytes 1 region)
        else s
      let s := if consumed then s.bump .memCnt 4 else s
      if region = 0 then
        let x := s.xorLines (otherStacks stack) sa
        (x, false, (s.modMem fun m => m.store blk x 0).bump .memCnt 5)
      else if region = 3 ∧ !s.lineLost (mirrorOf stack) sa then
        let x := s.mem.data (s.blockNo (mirrorOf stack) sa)
        (x, false, s.modMem fun m => m.store blk x 0)
      else (d, true, s)

/-- The bytes a 32-bit mask selects taken from one block, the others from another. -/
def mergeBytes (mask : BitVec 32) (new old : BitVec 256) : BitVec 256 :=
  BitVec.ofNat 256 (leNat ((List.range 32).map fun i =>
    if mask.getLsbD i then new.extractLsb' (8 * i) 8 else old.extractLsb' (8 * i) 8))

/-- Retires a merge-buffer entry by read-modify-write of its block (R401, R402). -/
def State.retireMerge (s : State) (c : Nat) (e : MergeEntry) : State :=
  let stack := c / 32
  let s := s.modCtrl c fun k => { k with merge := k.merge.filter fun x => x.block != e.block }
  let full := e.mask = BitVec.allOnes 32
  if full then s.modMem fun m => m.store (s.blockNo stack (32 * e.block)) e.data 0
  else
    let r := s.readBlock stack (32 * e.block) false
    let s := r.2.2.bump .memCnt 6
    let blk := s.blockNo stack (32 * e.block)
    if r.2.1 then (s.modMem fun m => m.store blk (mergeBytes e.mask e.data r.1) (BitVec.allOnes 32)).bump .memCnt 3
    else s.modMem fun m => m.store blk (mergeBytes e.mask e.data r.1) 0

/-- Retires the entry for a block, if the controller holds one (R401). -/
def State.flushMerge (s : State) (stack sa : Nat) : State :=
  let c := ctrlOf stack sa
  match (s.ctrl c).merge.find? fun e => e.block == sa / 32 with
  | some e => s.retireMerge c e
  | none => s

/-- Retires the oldest entry while the buffer holds a limit or more. -/
def State.drainMerge (s : State) (c limit : Nat) : State :=
  match (s.ctrl c).merge with
  | e :: r => if (e :: r).length ≥ limit then s.retireMerge c e else s
  | [] => s

/-- A write that reaches a controller whose line is not lost: whole blocks go straight to memory, narrower ones
into the merge buffer (R400, R401). -/
def State.writeLine (s : State) (stack sa : Nat) (mask : BitVec 32) (d : BitVec 256) : State :=
  let c := ctrlOf stack sa
  let blk := sa / 32
  if mask = BitVec.allOnes 32 then
    let s := s.modCtrl c fun k => { k with merge := k.merge.filter fun x => x.block != blk }
    s.modMem fun m => m.store (s.blockNo stack sa) d 0
  else
    match (s.ctrl c).merge.find? fun e => e.block == blk with
    | some e =>
      let e' : MergeEntry := ⟨blk, e.mask ||| mask, mergeBytes mask d e.data⟩
      let s := s.modCtrl c fun k => { k with merge := adjWhere k.merge (fun x => x.block == blk) fun _ => e' }
      if e'.mask = BitVec.allOnes 32 then s.retireMerge c e' else s
    | none =>
      let s := s.drainMerge c 64
      let s := s.modCtrl c fun k => { k with merge := k.merge ++ [⟨blk, mask, d⟩] }
      s.drainMerge c (s.regBits .memCfg 0 21 16)

/-- A write of one block by its stack and stack address, with the stack parity of R403 and the rules of R405 for
lost lines. Metadata is written through, so that data and parity change together. -/
def State.writeBlock (s : State) (stack sa : Nat) (mask : BitVec 32) (d : BitVec 256) : State :=
  let region := s.regionOf stack (s.remapped stack sa)
  let lost := s.lineLost stack sa
  if region = 0 then
    let par := sa / 256 % 8
    let r := (s.flushMerge stack sa).readBlock stack sa false
    let s := r.2.2
    let new := mergeBytes mask d r.1
    if stack = par then s.modMem fun m => m.store (s.blockNo stack sa) new 0
    else
      let delta := r.1 ^^^ new
      let pblk := s.blockNo par sa
      let s := if lost then s else s.modMem fun m => m.store (s.blockNo stack sa) new 0
      if s.lineLost par sa then s
      else if lost then s.modMem fun m => m.store pblk (s.xorLines ((otherStacks stack).filter (· != par)) sa ^^^ new) 0
      else s.modMem fun m => m.store pblk (m.data pblk ^^^ delta) 0
  else if region = 3 then
    let s := if lost then s else s.writeLine stack sa mask d
    if s.lineLost (mirrorOf stack) sa then s else s.writeLine (mirrorOf stack) sa mask d
  else if lost then s
  else s.writeLine stack sa mask d

/-! ## By memory address -/

/-- The blocks a range of memory addresses touches, as block-aligned addresses. -/
def blocksOf (addr len : Nat) : List Nat :=
  if len = 0 then [] else (List.range ((addr + len - 1) / 32 + 1 - addr / 32)).map fun i => (addr / 32 + i) * 32

/-- What a read of memory answers: the bytes, whether one lay in a poisoned block, whether an address was
invalid, and the state. -/
structure MemRead where
  bytes : List Byte
  poison : Bool
  bad : Bool
  st : State

/-- Reads bytes from a memory address (R382, R401). -/
def State.memRead (s : State) (addr len : Nat) (consumed : Bool := true) : MemRead :=
  let r := (blocksOf addr len).foldl (fun (a : MemRead) b => match locate b with
    | none => { a with bytes := a.bytes ++ zeros 32, bad := true }
    | some (stack, sa) =>
      let x := (a.st.flushMerge stack sa).readBlock stack sa consumed
      ⟨a.bytes ++ leBytes 32 x.1.toNat, a.poison || x.2.1, a.bad, x.2.2⟩) ⟨[], false, false, s⟩
  { r with bytes := (r.bytes.drop (addr % 32)).take len }

/-- The mask of the bytes of a block that a range covers. -/
def maskOf (blk addr len : Nat) : BitVec 32 :=
  BitVec.ofNat 32 ((List.range 32).foldl (fun a i => if addr ≤ blk + i ∧ blk + i < addr + len then a + 2 ^ i else a) 0)

/-- Writes bytes at a memory address; blocks at invalid addresses are not written. -/
def State.memWrite (s : State) (addr : Nat) (b : List Byte) : State :=
  (blocksOf addr b.length).foldl (fun s blk => match locate blk with
    | none => s
    | some (stack, sa) =>
      let d := (List.range 32).map fun i => if addr ≤ blk + i then b.getD (blk + i - addr) 0 else 0
      s.writeBlock stack sa (maskOf blk addr b.length) (BitVec.ofNat 256 (leNat d))) s

/-- Are all addresses of a range valid? -/
def memValid (addr len : Nat) : Bool := (blocksOf addr len).all fun b => (locate b).isSome

/-- The stack and block numbers that a range of job memory, at an offset in a Batch, takes: whether a block
belongs to it. -/
def inJobRange (b off len stack sa : Nat) : Bool :=
  let rel := sa - jobBase
  let o := rel / 8192 * 16384 + stack % 2 * 8192 + rel % 8192
  decide (jobBase ≤ sa) && stack / 2 == b && decide (off / 32 * 32 ≤ o) && decide (o < off + len)

/-- The stack address that a stored place stands for: a spare page in use stands for its old page. -/
def State.unmapped (s : State) (stack sa : Nat) : Nat :=
  match s.mem.remap.find? fun e => e.1 / 4096 == stack && e.2.st == 2 && e.2.new == sa / 4096 with
  | some e => e.2.old * 4096 + sa % 4096
  | none => sa

/-- Zeros a range of the job memory of a Batch, with its merge-buffer entries and syndromes (R166, R187,
R188). -/
def State.jobZero (s : State) (b off len : Nat) : State :=
  let hit (stack sa : Nat) : Bool := inJobRange b off len stack (s.unmapped stack sa)
  s.modMem fun m => { m with
    bytes := m.bytes.filter fun c => !hit (c.1 / 2 ^ 40) (c.1 % 2 ^ 40)
    err := List.filter (fun e => !hit (e.1 / 2 ^ 35) (e.1 % 2 ^ 35 * 32)) m.err
    ctrls := m.ctrls.mapVal fun c k => { k with
      merge := k.merge.filter fun e => !inJobRange b off len (c / 32) (e.block * 32) } }

end Sys2Proof.Machine
end

