-- ==== Sys2Proof/Machine/RollerRing.lean ====
section
/-! DEFINITION. The job rings of the Roller pairs (07 R257, R262, R263, R270): where a job goes, and how it waits for a
slot. -/
namespace Sys2Proof.Machine

/-- A Roller pair as power-on leaves it. -/
def RollerPair.init : RollerPair := ⟨.offline, .offline, [], [], 0, 0, false, 0⟩

/-- A Roller pair. -/
def State.roller (s : State) (p : Nat) : RollerPair := s.rollers.lookD p RollerPair.init

/-- Changes a Roller pair. -/
def State.modRoller (s : State) (p : Nat) (f : RollerPair → RollerPair) : State :=
  { s with rollers := s.rollers.upd p RollerPair.init f }

/-- The state of a half: the compressor, or the decompressor. -/
def RollerPair.half (r : RollerPair) (comp : Bool) : HalfState := if comp then r.stC else r.stD

/-- Sets the state of a half. -/
def RollerPair.setHalf (r : RollerPair) (comp : Bool) (x : HalfState) : RollerPair :=
  if comp then { r with stC := x } else { r with stD := x }

/-- Is the half online? -/
def HalfState.online : HalfState → Bool
  | .idle => true
  | .running => true
  | _ => false

/-- Is the half of a pair online? -/
def State.halfOn (s : State) (p : Nat) (comp : Bool) : Bool := ((s.roller p).half comp).online

/-- Does a job belong to the compressor? -/
def RollerJob.comp (j : RollerJob) : Bool := j.desc.kind == 1

/-- Can a job's blocks be stolen (R263)? -/
def RollerJob.stealable (j : RollerJob) : Bool := j.comp && j.desc.layout == 0

/-- How many blocks of a job nobody has started. -/
def RollerJob.unstarted (j : RollerJob) : Nat := j.todo.length

/-- The next block of a job in index order. -/
def RollerJob.next (j : RollerJob) : Nat := j.todo.head?.getD j.desc.blocks

/-- The job of a slot: slot ÷ 64 is the Loaf, slot mod 64 its entry. -/
def State.rjob? (s : State) (slot : Nat) : Option RollerJob := (s.roller (slot / 64)).ring.look (slot % 64)

/-- Changes the job of a slot. -/
def State.modRjob (s : State) (slot : Nat) (f : RollerJob → RollerJob) : State :=
  s.modRoller (slot / 64) fun r => { r with ring := r.ring.adj (slot % 64) f }

/-- The lowest free entry of a ring. -/
def RollerPair.freeEntry (r : RollerPair) : Option Nat := firstBelow 64 fun i => !r.ring.has i

/-- A job of an owner as it is placed. -/
def ownedJob (o : RollerOwner) (input : List (Nat × List Byte)) (d : RollerDesc) (order : Nat) : RollerJob where
  desc := d
  order := order
  owner := o
  input := input
  todo := List.range d.blocks
  finished := 0
  out := []
  buf := if d.kind = 1 then d.outAddr else d.inAddr
  bufLen := d.outLen
  used := 0
  link := 0
  links := 0
  outBytes := 0
  waiting := false

/-- A job of the firmware as it is placed. -/
def newRollerJob (d : RollerDesc) (order : Nat) : RollerJob := ownedJob .firmware [] d order

/-- A job that starts again from its first block (R269). -/
def RollerJob.restart (j : RollerJob) : RollerJob := ownedJob j.owner j.input j.desc j.order

/-- The Loaves of a Batch after one, in the order of R269. -/
def nextLoaves (loaf : Nat) : List Nat := (List.range 15).map fun i => loaf / 16 * 16 + (loaf % 16 + 1 + i) % 16

/-- The Loaves of the other Batches, in the order of R270. -/
def otherLoaves (loaf : Nat) : List Nat :=
  (List.range 3).flatMap fun b => (List.range 16).map fun i => (loaf / 16 + 1 + b) % 4 * 16 + (loaf % 16 + i) % 16

/-- The Loaf a job goes to: the one named, or, while its half is retired, the next with the half online; none online
in the device leaves it with the one named (R270). -/
def State.rollerLoaf (s : State) (loaf : Nat) (comp : Bool) : Nat :=
  if (s.roller loaf).half comp = .retired then
    ((nextLoaves loaf ++ otherLoaves loaf).find? fun l => s.halfOn l comp).getD loaf
  else loaf

/-- Places a job in the ring for a Loaf, or among those that wait for a slot of it (R262, R270). -/
def State.placeJob (s : State) (w : Nat × RollerJob) : State :=
  let l := s.rollerLoaf w.1 w.2.comp
  match (s.roller l).freeEntry with
  | some i => s.modRoller l fun r => { r with ring := r.ring.put i w.2 }
  | none => { s with rolls := { s.rolls with waits := s.rolls.waits ++ [w] } }

/-- Places the jobs that waited, first come first, as far as there are slots. -/
def State.drainRings (s : State) : State :=
  s.rolls.waits.foldl State.placeJob { s with rolls := { s.rolls with waits := [] } }

/-- Submits a job of an owner for a Loaf: `blocks` blocks under a kind, a target and a layout. -/
def State.submitRoller (s : State) (loaf : Nat) (o : RollerOwner) (kind target layout tenant blocks : Nat)
    (input : List (Nat × List Byte)) : State :=
  let d : RollerDesc := ⟨kind, target, layout, blocks, tenant, 0, 0, 0, 0, 0, 0, 0⟩
  let s := { s with rolls := { s.rolls with order := s.rolls.order + 1 } }
  s.placeJob (loaf, ownedJob o input d (s.rolls.order - 1))

/-- The Loaf of a Batch with the fewest unstarted blocks, the lowest number on a tie (R262). -/
def State.batchLoaf (s : State) (batch : Nat) : Nat :=
  (leastBy ((List.range 16).map fun i => batch * 16 + i) fun l =>
    (s.roller l).ring.foldl (fun n e => n + e.2.unstarted) 0).getD (batch * 16)

/-- Submits the compress job of a write-path owner in its home Batch (R262). -/
def State.submitCoding (s : State) (batch : Nat) (o : RollerOwner) (target tenant : Nat) (blks : List (List Byte)) : State :=
  s.submitRoller (s.batchLoaf batch) o 1 target 0 tenant blks.length (blks.map fun b => (3, b))

/-- Does a job of an owner stand in a ring or wait for one? -/
def State.hasRoller (s : State) (o : RollerOwner) : Bool :=
  (s.rollers.any fun r => r.2.ring.any fun e => e.2.owner == o) || s.rolls.waits.any fun w => w.2.owner == o

/-- Takes a job out of its slot: no thief holds a block of it, and a job that waits gets the slot. -/
def State.freeSlotOf (s : State) (slot : Nat) : State :=
  let s := { s with rollers := s.rollers.mapVal fun _ r => { r with stolen := r.stolen.filter fun x => x.job != slot } }
  (s.modRoller (slot / 64) fun r => { r with ring := r.ring.del (slot % 64) }).drainRings

/-- Drops the jobs of an owner that has gone. -/
def State.dropRollers (s : State) (o : RollerOwner) : State :=
  let s := { s with rolls := { s.rolls with waits := s.rolls.waits.filter fun w => w.2.owner != o } }
  let mine := s.rollers.flatMap fun p => (List.filter (fun (e : Nat × RollerJob) => e.2.owner == o) p.2.ring).map fun e => 64 * p.1 + e.1
  mine.foldl State.freeSlotOf s

end Sys2Proof.Machine
end

