-- ==== Sys2Proof/Machine/JobOps.lean ====
section
/-! DEFINITION. Crumbs, deques, slices and the end of a job (05): the operations that the Proofer's events and
the Ariust-2 cores share. -/
namespace Sys2Proof.Machine

/-- A core with every register zero (R167). -/
def Core.init : Core where
  g := Vector.replicate 16 0
  v := Vector.replicate 8 0
  b := Vector.replicate 4 0
  pc := 0
  n := false
  z := false
  c := false
  vf := false
  slimit := 0
  icount := 0
  wrapped := false
  inUnit := false
  priv := false
  sieveWait := []
  sieveQ := []
  digests := []
  ie := false
  exl := false
  epc := 0
  ecause := 0
  einfo := 0
  evec := 0
  epsw := 0
  ibudget := 0
  wtb := 0

/-- A Crumb as no event has touched it (R187, CRB_STATE). -/
def Crumb.init : Crumb where
  st := .offline
  deque := []
  lastTenant := 0
  run := none
  reducing := false
  loaded := none
  codeLen := 0
  core := Core.init
  store := []
  retiring := false
  asleep := false
  turnOver := none
  wins := []
  readBuf := []
  scan := none
  failedOn := none

/-- A Crumb. -/
def State.crumb (s : State) (c : Nat) : Crumb := s.crumbs.lookD c Crumb.init

/-- Changes a Crumb. -/
def State.modCrumb (s : State) (c : Nat) (f : Crumb → Crumb) : State :=
  { s with crumbs := s.crumbs.upd c Crumb.init f }

/-- A control core as no event has touched it: privileged, offline (R201, HK_CCORE). -/
def CtrlCore.init : CtrlCore where
  core := { Core.init with priv := true }
  irqs := []
  halted := false
  idle := false
  st := 0
  resets := 0

/-- A control core. -/
def State.ccore (s : State) (c : Nat) : CtrlCore := s.ctrls.lookD c CtrlCore.init

/-- Changes a control core. -/
def State.modCcore (s : State) (c : Nat) (f : CtrlCore → CtrlCore) : State :=
  { s with ctrls := s.ctrls.upd c CtrlCore.init f }

/-- The memory of a Loaf. -/
def State.loaf (s : State) (n : Nat) : Loaf := s.prf.loafs.lookD n ⟨[], []⟩

/-- Changes the Proofer's own state. -/
def State.modPrf (s : State) (f : Proofer → Proofer) : State := { s with prf := f s.prf }

/-- Changes the memory of a Loaf. -/
def State.modLoaf (s : State) (n : Nat) (f : Loaf → Loaf) : State :=
  s.modPrf fun p => { p with loafs := p.loafs.upd n ⟨[], []⟩ f }

/-- Is a Crumb online (CRB_STATE)? -/
def Crumb.online (c : Crumb) : Bool := c.st == .idle || c.st == .running || c.st == .scrubbing

/-- Has the Crumb room in its deque (R181)? -/
def Crumb.room (c : Crumb) : Bool := decide (c.deque.length < 32)

/-- The job of a slot. -/
def State.job? (s : State) (slot : Nat) : Option Job := s.jobs.find? fun j => j.slot == slot

/-- Changes a job. -/
def State.modJob (s : State) (slot : Nat) (f : Job → Job) : State :=
  { s with jobs := adjWhere s.jobs (fun j => j.slot == slot) f }

/-- The slice buffer of a number: Batch × 4,096 + its place in the Batch (R157). -/
def State.buf? (s : State) (id : Nat) : Option SliceBuf := s.bufs.find? fun b => b.id == id

/-- The offset of a slice buffer in the job memory of its Batch (R157). -/
def bufOff (id : Nat) : Nat := id % 4096 * 2 ^ 20

/-- The offset of a Crumb's output area in the job memory of its Batch (R157). -/
def outOff (c : Nat) : Nat := 2 ^ 32 + c % 256 * 2 ^ 20

/-- Where the job pool begins, and its size (R157, R382). -/
def poolBase : Nat := 2 ^ 32 + 2 ^ 28

/-- The bytes of the job pool of a Batch. -/
def poolSize : Nat := 8002732032 - poolBase

/-- The Loaf of a Crumb and its Crumbs (00 R14). -/
def loafCrumbs (loaf : Nat) : List Nat := (List.range 16).map fun i => loaf * 16 + i

/-- Of some Crumbs, the one with the fewest entries, the lowest number on a tie. -/
def State.fewest (s : State) (cs : List Nat) : Option Nat := leastBy cs fun c => (s.crumb c).deque.length

/-- Of some Crumbs, the one with the most free slots, the lowest number on a tie. -/
def State.freest (s : State) (cs : List Nat) : Option Nat := leastBy cs fun c => (s.crumb c).deque.length

/-- The Crumb of a Loaf that an entry of a tenant goes to: the first group of R179 that is not empty. A Crumb
whose deque is full is left out. -/
def State.pushTarget (s : State) (loaf tenant : Nat) (not : Option Nat) : Option Nat :=
  let cs := (loafCrumbs loaf).filter fun c => (s.crumb c).online && (s.crumb c).room && some c != not
  let g1 := cs.filter fun c => (s.crumb c).lastTenant == tenant
  let g2 := cs.filter fun c => (s.crumb c).st == .idle && (s.crumb c).deque.isEmpty
  if !g1.isEmpty then s.fewest g1 else if !g2.isEmpty then s.fewest g2 else s.fewest cs

/-- Wakes the idle Crumbs that pass a test (R186). -/
def State.wake (s : State) (p : Nat → Bool) : State :=
  { s with crumbs := s.crumbs.mapVal fun c k => if p c then { k with asleep := false } else k }

/-- Pushes an entry at BOTTOM of a deque, which wakes its Loaf, and the device when the deque reaches 4 entries (R186). -/
def State.pushAt (s : State) (c : Nat) (e : Entry) : State :=
  let s := s.modCrumb c fun k => { k with deque := k.deque ++ [e] }
  s.wake fun x => x / 16 == c / 16 || (s.crumb c).deque.length == 4

/-- Places an entry in a Loaf, or where R192 step 2 sends it when the Loaf's other deques are full. -/
def State.placeEntry (s : State) (loaf : Nat) (e : Entry) (not : Option Nat) : State :=
  let free (cs : List Nat) : Option Nat :=
    s.freest (cs.filter fun c => (s.crumb c).online && (s.crumb c).room && some c != not)
  match s.pushTarget loaf e.tenant not with
  | some c => s.pushAt c e
  | none => match free ((List.range 256).map fun i => loaf / 16 * 256 + i) with
    | some c => s.pushAt c e
    | none => match free (List.range 1024) with
      | some c => s.pushAt c e
      | none => s.pushAt (not.getD (loaf * 16)) e

/-- Frees a slice buffer (R180). -/
def State.freeBuf (s : State) (id : Nat) : State :=
  let s := s.dropRollers (.slice id)
  { s with
    bufs := s.bufs.filter fun b => b.id != id
    flash := { s.flash with reads := s.flash.reads.filter fun r => match r.owner with
      | .slice b => b != id
      | _ => true }
    firon := { s.firon with gathers := s.firon.gathers.filter fun g => match g.owner with
      | .slice b _ => b != id
      | _ => true } }

/-- Releases the digest contexts of a core without a result (06 R227). -/
def State.dropCoreDigests (s : State) (k : CoreSel) : State :=
  { s with digests := { s.digests with msgs := s.digests.msgs.filter fun m => match m.owner with
      | .crumb x _ => x != k
      | _ => true } }

/-- The Crumb stops what it runs: its output is discarded or has been taken, its Sieve results and digests go
(06 R226, R227), and it is idle. A Crumb that is being retired is retired now (R192, CRB_CTRL). -/
def State.stopCrumb (s : State) (c : Nat) : State :=
  let s := if h : c < 1024 then s.dropCoreDigests (.crumb ⟨c, h⟩) else s
  let s := s.modCrumb c fun k => { k with
    run := none, reducing := false, scan := none
    st := if k.st == .running || k.st == .scrubbing then (if k.retiring then .retired else .idle) else k.st
    core := { k.core with sieveWait := [], sieveQ := [], digests := [] } }
  if (s.crumb c).st == .retired && (s.crumb c).retiring then
    let s := s.modCrumb c fun k => { k with retiring := false, lastTenant := 0, loaded := none }
    (s.record 0x0202 c []).settle
  else s

/-- The Crumbs that run a job. -/
def State.runners (s : State) (slot : Nat) : List Nat :=
  (s.crumbs.filter fun c => match c.2.run with
    | some e => e.job == slot
    | none => false).map Prod.fst

/-- Does a Crumb run a job: a slice of it is in hand, or the Crumb looks for its next slice with the job's program loaded
(R182, R195)? -/
def Crumb.runsJob (k : Crumb) (slot : Nat) : Bool :=
  match k.run with
  | some e => e.job == slot
  | none => k.st == .idle && !k.asleep && k.loaded == some slot

/-- A job ends (R196): its slices stop and their outputs are discarded, its entries leave all deques, and its
slice buffers go back. What remains is Finishing. The first cause decides. -/
def State.endJob (s : State) (slot fin : Nat) (st : Status) (failSlice : Option Nat) (pc code : Nat) : State :=
  match s.job? slot with
  | none => s
  | some j =>
    if j.ending.isSome then s
    else
      let s := (s.runners slot).foldl State.stopCrumb s
      let s := { s with crumbs := s.crumbs.mapVal fun _ c => { c with deque := c.deque.filter fun e => e.job != slot } }
      let s := (((s.bufs.filter fun b => b.entry.job == slot).map SliceBuf.id).foldl State.freeBuf s).dropRollers (.jobOut slot)
      s.modJob slot fun j => { j with
        ending := some (fin, st), st := .finishing, outPhase := 3, failSlice := failSlice, faultPc := pc, faultCode := code }

/-- The record of R193 for an output. -/
def outRecord (e : Entry) (out : List Byte) : List Byte :=
  leBytes 4 e.input ++ leBytes 4 out.length ++ leBytes 8 e.offset ++ padTo out (roundUp out.length 16)

/-- Combines two 64-byte partials (R195). -/
def combine (op : Nat) (a b : List Byte) : List Byte :=
  let lane (f : Nat → Nat → Nat) : List Byte :=
    (List.range 8).flatMap fun i => leBytes 8 (f (fieldLe a (8 * i) 8) (fieldLe b (8 * i) 8))
  if op = 1 then lane fun x y => x + y
  else if op = 2 then lane min
  else if op = 3 then lane max
  else if op = 4 then List.zipWith (· ||| ·) a b
  else List.zipWith (· ^^^ ·) a b

/-- Takes a partial into a job: REDUCE_OP 1 to 5 combine at once, 6 waits for REDUCTION_STEP (R195). -/
def Job.takePartial (j : Job) (p : List Byte) : Job :=
  if j.desc.reduceOp = 6 then { j with partials := j.partials ++ [p] }
  else match j.partials with
    | q :: _ => { j with partials := [combine j.desc.reduceOp q p] }
    | [] => { j with partials := [p] }

/-- Have all slices of a job been issued and ended? -/
def Job.allDone (j : Job) : Bool :=
  j.slices.isEmpty && decide (j.nextInput ≥ j.desc.inputs.length) && decide (j.done + j.skipped ≥ j.issued)

/-- A Running job whose last slice has ended goes on to Reducing or Finishing (R174). -/
def State.advanceJob (s : State) (slot : Nat) : State :=
  s.modJob slot fun j =>
    if j.st = .running ∧ j.allDone then
      { j with st := if j.desc.reduceOp = 6 ∧ j.partials.length ≥ 2 then .reducing else .finishing }
    else if j.st = .reducing ∧ j.partials.length ≤ 1 ∧ (s.runners slot).isEmpty then { j with st := .finishing }
    else j

/-- Does the byte quota of the output object's space allow some more bytes (04 R143)? -/
def State.jobBytesOk (s : State) (j : Job) (more : Nat) : Bool :=
  match (s.tenant j.tenant).spaces.look j.desc.outSpace with
  | some sp => sp.byteQuota == 0 || decide (s.spaceBytes j.tenant j.desc.outSpace + more ≤ sp.byteQuota)
  | none => false

/-- What a slice's output does: a record to host memory or the output object (R193, R194), or the end of the job
where it does not fit (R190). -/
def State.takeOutput (s : State) (j : Job) (e : Entry) (out : List Byte) : State :=
  let rec' := outRecord e out
  if out.isEmpty then s
  else if bitOf j.desc.flags 0 then
    if j.bytesOut + rec'.length > j.desc.outLen then s.endJob j.slot 2 .invalidBuffer (some e.slice) 0 0
    else if !s.usable j.port j.tenant then s.endJob j.slot 2 .hostDmaError (some e.slice) 0 0
    else (s.hostWrite j.port j.tenant (j.desc.outAddr + j.bytesOut) rec').modJob j.slot fun j =>
      { j with bytesOut := j.bytesOut + rec'.length }
  else if bitOf j.desc.flags 1 then
    if !s.jobBytesOk j rec'.length then s.endJob j.slot 2 .quotaBytes (some e.slice) 0 0
    else if j.bytesOut + rec'.length > 2 ^ 40 then s.endJob j.slot 2 .invalidField (some e.slice) 0 0
    else s.modJob j.slot fun j => { j with bytesOut := j.bytesOut + rec'.length, records := j.records ++ rec' }
  else s

/-- The result of a reduction (R195): the partial left, or the value of a job that has none. -/
def Job.reduced (j : Job) : List Byte :=
  match j.partials with
  | p :: _ => p
  | [] => if j.desc.reduceOp = 2 then List.replicate 64 0xFF else zeros 64

/-- The summary of a job that ends so, with its Crumb cycles (R197). -/
def Job.summary (j : Job) (fin : Nat) (st : Status) (cycles : Nat) : List Byte :=
  leBytes 4 j.desc.jobId ++ leBytes 1 fin ++ [0] ++ leBytes 2 st.code ++ leBytes 4 j.total ++ leBytes 4 j.done ++
  leBytes 4 j.skipped ++ leBytes 4 (j.failSlice.getD 0xFFFFFFFF) ++ leBytes 8 j.bytesIn ++ leBytes 8 j.bytesOut ++
  leBytes 8 j.outVersion ++ leBytes 4 j.faultPc ++ leBytes 2 j.faultCode ++ leBytes 2 (min j.scrubs 0xFFFF) ++
  leBytes 8 cycles

/-- Takes a job's descriptors and the images that no job uses any more out of the Loaf memories (R158). -/
def State.dropCaches (s : State) (slot : Nat) : State :=
  let used (x : Nat × Program) : Bool := s.jobs.any fun j => j.slot != slot && j.tenant == x.1 && j.prog.handle == x.2.handle
  s.modPrf fun p => { p with loafs := p.loafs.mapVal fun _ l => {
    images := l.images.filter used, descs := l.descs.filter fun d => d.1 != slot } }

/-- A job leaves: its slot, its pins and its context are free, and no Crumb holds its program as loaded. -/
def State.removeJob (s : State) (slot : Nat) : State :=
  let s := s.dropCaches slot
  { s with
    jobs := s.jobs.filter fun j => j.slot != slot
    ctxs := s.ctxs.filter fun c => c.kind != .job slot
    crumbs := s.crumbs.mapVal fun _ c => if c.loaded = some slot then { c with loaded := none } else c }

/-- Posts a job's summary and reply, and the replies of the JOB_CANCELs that waited for it (R197, R198). The cycle
count is a free value. A host buffer that cannot be written fails the job (R190; 04 R121). A job that ends with
COMMIT_CONFLICT has zero results as R197 says, not the latest version of 02 R47 (DESIGN CHOICE, log entry 145). -/
def State.finishJob (s : State) (slot : Nat) : State :=
  match s.job? slot with
  | none => s
  | some j =>
    let e : Nat × Status := j.ending.getD (0, .ok)
    let reduce := bitOf j.desc.flags 2 && e.1 == 0
    let blocked := (reduce || decide (j.desc.summaryAddr ≠ 0)) && !s.usable j.port j.tenant
    let e : Nat × Status := if blocked then (2, .hostDmaError) else e
    let s := if reduce && !blocked then s.hostWrite j.port j.tenant j.desc.reduceAddr j.reduced else s
    let s := if j.desc.summaryAddr ≠ 0 ∧ !blocked then
        (s.hostWrite j.port j.tenant j.desc.summaryAddr (j.summary e.1 e.2 s.free.toNat)).tick else s
    let s := (s.removeJob slot).pruneVersions
    let s := match s.cmd? j.tag with
      | some c => if e.2 = Status.ok then s.finish c .ok j.desc.jobId j.bytesOut j.done else s.finish c e.2 0 0 0
      | none => s
    let s := j.cancelWait.foldl (fun s t => match s.cmd? t with
      | some c => s.finish c .ok 0 0 0
      | none => s) s
    s.pump.reap

/-- A job ended by a reset goes without a summary or a reply (R198). -/
def State.killJob (s : State) (slot : Nat) : State :=
  let s := s.endJob slot 1 .ok none 0 0
  match s.job? slot with
  | none => s
  | some j =>
    let s := (s.removeJob slot).pruneVersions
    let s := match s.cmd? j.tag with
      | some c => if c.doomed then (s.countLate c.port c.fn).dropCmd c.tag else s.dropCmd c.tag
      | none => s
    let s := j.cancelWait.foldl (fun s t => match s.cmd? t with
      | some c => s.finish c .ok 0 0 0
      | none => s) s
    s.pump.reap

/-- Reads from a Crumb's output area. -/
def State.readOut (s : State) (c off len : Nat) : MemRead := s.memRead (jobAddr (c / 256) (outOff c + off)) len

/-- The slice buffer is read again from flash and the table copied again from its pinned version (11 R398); what lay on a lost
line lies on others from now on (11 R405). -/
def State.mendSlice (s : State) (c : Nat) : State :=
  match (s.crumb c).run with
  | none => s
  | some e =>
    let s := (s.moveArea e.batch (bufOff e.buf) (2 ^ 20)).moveArea (c / 256) (outOff c) (2 ^ 20)
    let s := match s.buf? e.buf with
      | some b => s.memWrite (jobAddr e.batch (bufOff e.buf)) b.data
      | none => s
    match s.job? e.job with
    | some j =>
      let off := poolBase + j.pool + j.desc.scratchPages * 65536
      (s.moveArea j.batch off j.table.length).memWrite (jobAddr j.batch off) j.table
    | none => s

/-- A slice is stopped and its entry pushed again with the same ATTEMPT; its buffer is read again (11 R398). -/
def State.pushAgain (s : State) (c : Nat) : State :=
  match (s.crumb c).run with
  | none => s
  | some e => if (s.crumb c).reducing then s.stopCrumb c else (s.stopCrumb c).placeEntry (c / 16) e none

/-- The slice's program has returned to the exit stub (R168, R195): its verdict, its output length, and its
output, record or partial; or the end of a reduction step. The spec names no FAULT_PC and FAULT_CODE for an
oversized output: they are free values. -/
def State.sliceReturn (s : State) (c : Nat) : State :=
  let k := s.crumb c
  match k.run with
  | none => s
  | some e => match s.job? e.job with
    | none => s.stopCrumb c
    | some j =>
      let len := k.core.g[0].toNat
      let verdict := k.core.g[1].toNat
      let reduce := bitOf j.desc.flags 2
      if verdict ≠ 0 then s.endJob j.slot 2 .programFault (some e.slice) verdict 0xFFFF
      else if k.reducing then
        let r := s.readOut c 0 64
        if r.poison then r.st.pushAgain c
        else ((r.st.stopCrumb c).modJob j.slot fun j => { j with partials := j.partials.drop 2 ++ [r.bytes] }).advanceJob j.slot
      else if len > (if reduce then 1048512 else 1048576) then
        (s.tick.tick).endJob j.slot 2 .programFault (some e.slice) (s.free.toNat % 2 ^ 32) (s.tick.free.toNat % 65536)
      else
        let lead := if reduce then 64 else 0
        let r := s.readOut c 0 (lead + len)
        if r.poison then r.st.pushAgain c
        else
          let s := (r.st.stopCrumb c).freeBuf e.buf
          let s := s.modJob j.slot fun j => { j with done := j.done + 1, bytesIn := j.bytesIn + e.length }
          let s := if reduce then s.modJob j.slot fun j => j.takePartial (r.bytes.take 64) else s
          (s.takeOutput j e (r.bytes.drop lead)).advanceJob j.slot

/-- A slice that has used its budget stops (R189): it is skipped, or the job ends. A reduction step has the same
budget and is never skipped. -/
def State.budgetStop (s : State) (c : Nat) : State :=
  match (s.crumb c).run with
  | none => s
  | some e => match s.job? e.job with
    | none => s.stopCrumb c
    | some j =>
      let s := s.bump .prfCnt 5
      if bitOf j.desc.flags 3 ∧ !(s.crumb c).reducing then
        (((s.stopCrumb c).freeBuf e.buf).modJob j.slot fun j => { j with skipped := j.skipped + 1 }).advanceJob j.slot
      else s.endJob j.slot 2 .budgetExhausted (some e.slice) 0 0

/-- A library program ends on the slice in hand with an output and a partial (R169). Its instruction count is not given:
whether it has used its budget is a free choice. Its records lie behind the partial in a REDUCE job (R168). -/
def State.endLibrary (s : State) (c : Nat) (out part : List Byte) : State :=
  match (s.crumb c).run.bind fun e => s.job? e.job with
  | none => s.stopCrumb c
  | some j =>
    let stops := s.choice 2 == 1
    let s := s.tick
    if stops then s.budgetStop c
    else
      let area := if bitOf j.desc.flags 2 then part ++ out else out
      let s := s.memWrite (jobAddr (c / 256) (outOff c)) (area.take (2 ^ 20))
      (s.modCrumb c fun k => { k with
        core := { k.core with g := (k.core.g.set 0 (BitVec.ofNat 32 out.length)).set 1 0#32 } }).sliceReturn c

/-- The registers at a slice entry, or at a reduction step, whose rules give the stack, the exit address and the
banks (R167, R195). -/
def entryCore (entry stackLen : Nat) : Core :=
  { Core.init with
    g := (Core.init.g.set 14 0x0003FFF0#32).set 15 0xFFFF0000#32
    b := ((Core.init.b.set 0 0x0010#16).set 1 0x0020#16).set 3 0x0100#16
    pc := BitVec.ofNat 32 entry
    slimit := BitVec.ofNat 32 (262144 - stackLen) }

/-- The registers at the entry of a slice (R167). -/
def sliceCore (j : Job) (e : Entry) : Core :=
  let k := entryCore j.prog.entrySlice j.prog.stackLen
  { k with g := (((((k.g.set 0 (BitVec.ofNat 32 e.length)).set 1 (BitVec.ofNat 32 e.input)).set 2
      (BitVec.ofNat 32 e.offset)).set 3 (BitVec.ofNat 32 (e.offset / 2 ^ 32))).set 4
      (BitVec.ofNat 32 e.slice)).set 5 (BitVec.ofNat 32 j.desc.paramLen) }

/-- Takes a program's image into the cache of a Loaf that lacks it. A full cache, of 24 images, gives up its oldest one
(DESIGN CHOICE, log entry 149). -/
def Loaf.fetchImage (l : Loaf) (tenant : Nat) (p : Program) : Loaf :=
  if l.images.any fun x => x.1 == tenant && x.2.handle == p.handle then l
  else { l with images := (if l.images.length < 24 then l.images else l.images.drop 1) ++ [(tenant, p)] }

/-- The newest cached descriptors that fit in some bytes: 128 bytes of a job's and 8 of each of its windows'. -/
def fitDescs : Nat → List (Nat × List Reg) → List (Nat × List Reg)
  | _, [] => []
  | room, d :: l => if 128 + 8 * d.2.length ≤ room then d :: fitDescs (room - (128 + 8 * d.2.length)) l else []

/-- Takes a job's descriptors into the 492 KiB of a Loaf's descriptor caches; the oldest go (DESIGN CHOICE, log entry 149). -/
def Loaf.fetchDescs (l : Loaf) (slot : Nat) (wins : List Reg) : Loaf :=
  if l.descs.any fun d => d.1 == slot then l else { l with descs := fitDescs (492 * 1024) ((slot, wins) :: l.descs) }

/-- A Crumb's Loaf gets what it lacks of a job, its image from the firmware-and-tables region among it, and the Crumb the
job's window descriptors (R158). Its read buffer is invalidated (06 R233). -/
def State.fetchJob (s : State) (c : Nat) (j : Job) : State :=
  (s.modLoaf (c / 16) fun l => (l.fetchImage j.tenant j.prog).fetchDescs j.slot j.desc.windows).modCrumb c fun k =>
    { k with wins := j.desc.windows, readBuf := [], asleep := false }

/-- Loads a job's program into a Crumb's local store, unless it holds it, and zeros the output area for a new
job (R166, R188). -/
def State.loadProgram (s : State) (c : Nat) (j : Job) : State :=
  let s := s.fetchJob c j
  if (s.crumb c).loaded = some j.slot then s
  else
    let s := s.jobZero (c / 256) (outOff c) (2 ^ 20)
    s.modCrumb c fun k => { k with
      loaded := some j.slot, codeLen := j.prog.codeLen
      store := Memory.write [] 0 (j.prog.code ++ j.prog.data) }

/-- Starts the reduction step in hand: two partials at output offsets 0 and 64, and a branch to ENTRY_REDUCE (R195). -/
def State.startReduce (s : State) (c : Nat) (j : Job) : State :=
  let s := s.loadProgram c j
  let s := s.memWrite (jobAddr (c / 256) (outOff c)) (j.partials.getD 0 (zeros 64) ++ j.partials.getD 1 (zeros 64))
  s.modCrumb c fun k => { k with
    st := .running, core := entryCore (j.prog.entryReduce.getD 0) j.prog.stackLen, lastTenant := j.tenant }

/-- Starts the entry in hand: the program is loaded and the Proofer branches to ENTRY_SLICE (R166, R167). -/
def State.startSlice (s : State) (c : Nat) : State :=
  match (s.crumb c).run with
  | none => s
  | some e => match s.job? e.job with
    | none => s.stopCrumb c
    | some j =>
      ((s.moveArea (c / 256) (outOff c) (2 ^ 20)).loadProgram c j).modCrumb c fun k => { k with st := .running, core := sliceCore j e, lastTenant := e.tenant }

end Sys2Proof.Machine
end

