-- ==== Sys2Proof/Machine/DigestOps.lean ====
section
/-! DEFINITION. Digest engines and their contexts (08 R271 to R287): algorithms, HMAC, grants, spills, and what ends
a message. -/
namespace Sys2Proof.Machine

/-! ## Algorithms (R271, R281, R283) -/

/-- Block size in bytes of an algorithm code. -/
def algBlock (alg : Nat) : Nat := if alg = 1 then 64 else if alg = 4 then 136 else 128

/-- The digest of an algorithm code. -/
def algDigest (alg : Nat) (m : List Byte) : List Byte :=
  if alg = 1 then sha256 m else if alg = 2 then sha512 m else if alg = 3 then sha512t256 m else sha3 m

/-- HMAC of an algorithm code. -/
def algHmac (alg : Nat) (key m : List Byte) : List Byte := hmac (algDigest alg) (algBlock alg) key m

/-- The words of a state area (R283). -/
def stateWords (alg : Nat) (b : List Byte) : List Nat :=
  if alg = 1 then (chunks 4 (b.take 32)).map beNat
  else if alg = 4 then (chunks 8 (b.take 200)).map leNat
  else (chunks 8 (b.take 64)).map beNat

/-- Bytes of the state of an algorithm in the state area (R283). -/
def stateLen (alg : Nat) : Nat := if alg = 1 then 32 else if alg = 4 then 200 else 64

/-- The initial state of an algorithm, as the state area holds it. -/
def initState (alg : Nat) : List Byte :=
  if alg = 1 then (primes80.take 8).flatMap fun q => beBytes 4 (sqrtFrac 32 q)
  else if alg = 2 then sha512Init.flatMap fun x => beBytes 8 x.toNat
  else if alg = 3 then sha512t256Init.flatMap fun x => beBytes 8 x.toNat
  else zeros 200

/-- Blocks through the compression function, with no padding (R283): the state after them. -/
def rawBlocks (alg : Nat) (st msg : List Byte) : List Byte :=
  let ws := stateWords alg st
  if alg = 1 then
    ((chunks 64 msg).foldl (fun hv b => shaBlock sha256Shape hv ((chunks 4 b).map fun x => BitVec.ofNat 32 (beNat x)))
      (ws.map (BitVec.ofNat 32))).flatMap fun x => beBytes 4 x.toNat
  else if alg = 4 then
    ((chunks 136 msg).foldl kAbsorb (ws.map (BitVec.ofNat 64))).flatMap fun x => leBytes 8 x.toNat
  else
    ((chunks 128 msg).foldl (fun hv b => shaBlock sha512Shape hv ((chunks 8 b).map fun x => BitVec.ofNat 64 (beNat x)))
      (ws.map (BitVec.ofNat 64))).flatMap fun x => beBytes 8 x.toNat

/-! ## Engines and contexts (R274 to R276) -/

/-- Changes the Digest part of the state. -/
def State.modDigests (s : State) (f : Digests → Digests) : State := { s with digests := f s.digests }

/-- A Digest engine. -/
def State.engine (s : State) (e : Nat) : DigestEngine := s.digests.engines.lookD e ⟨0, 0⟩

/-- Changes a Digest engine. -/
def State.modEngine (s : State) (e : Nat) (f : DigestEngine → DigestEngine) : State :=
  s.modDigests fun d => { d with engines := d.engines.upd e ⟨0, 0⟩ f }

/-- The message of a number. -/
def State.msg? (s : State) (id : Nat) : Option DigestMsg := s.digests.msgs.find? fun m => m.id == id

/-- Changes a message. -/
def State.modMsg (s : State) (id : Nat) (f : DigestMsg → DigestMsg) : State :=
  s.modDigests fun d => { d with msgs := adjWhere d.msgs (fun m => m.id == id) f }

/-- Releases a message's context and forgets it. -/
def State.dropMsg (s : State) (id : Nat) : State :=
  s.modDigests fun d => { d with msgs := d.msgs.filter fun m => m.id != id }

/-- Messages in an engine's contexts. -/
def State.resident (s : State) (e : Nat) : List DigestMsg := s.digests.msgs.filter fun m => m.engine == e && m.resident

/-- Is a message waiting for a context? -/
def DigestMsg.waits (m : DigestMsg) : Bool := !m.resident && !m.expired && (m.asks || decide (m.fed < m.total))

/-- The requesters waiting on an engine, in arrival order (R276). -/
def State.waiters (s : State) (e : Nat) : List DigestMsg :=
  sortBy DigestMsg.idleSince (s.digests.msgs.filter fun m => m.engine == e && m.waits)

/-- The engine used when a rule names one (R274): the next one online. -/
def State.nextOnline (s : State) (e : Nat) : Nat :=
  (([e, e + 1, e + 2, e + 3].map (· % 4)).find? fun x => (s.engine x).st == 1).getD (e % 4)

/-- The engine of a new DIGEST_DIRECT message (R274): fewest waiters, then most free contexts, then the lowest. -/
def State.chooseEngine (s : State) : Nat :=
  (leastBy ([0, 1, 2, 3].filter fun e => (s.engine e).st == 1) fun e =>
    (s.waiters e).length * 100 + (s.resident e).length).getD 0

/-- The idle context of an engine that has been idle longest. -/
def State.idlest (s : State) (e : Nat) : Option DigestMsg :=
  leastBy ((s.resident e).filter fun m => !m.busy) DigestMsg.idleSince

/-- The DIGEST_DIRECT or DIGEST_RAW command that feeds a message. -/
def State.msgCmd (s : State) (m : DigestMsg) : Option Cmd :=
  match m.owner with
  | .direct t => s.cmd? t
  | .raw t => s.cmd? t
  | .stream h => s.cmds.find? fun c => c.pkt.opcode == 0x90 && c.launched && c.ref == h
  | .crumb _ _ => none

/-- The digest of an algorithm's initial block under HMAC: K0 xor 0x36 repeated (R281). -/
def innerPad (alg : Nat) (key : List Byte) : List Byte :=
  let b := algBlock alg
  (padTo (if key.length > b then algDigest alg key else key) b).map fun x => x ^^^ 0x36#8

/-- The midstate after some bytes, from a state (R276). -/
def midstate (alg : Nat) (st bytes : List Byte) (hm : Bool) (key : Nat) : Midstate :=
  let n := bytes.length / algBlock alg * algBlock alg
  ⟨alg, bytes.length, rawBlocks alg st (bytes.take n), bytes.drop n, hm, key⟩

/-- The midstate of a message as it stands: of all the bytes that have been fed, the earlier segments of a digest stream
and the first block of HMAC included. -/
def State.midstateOf (s : State) (m : DigestMsg) : Midstate :=
  let hashed (fn alg : Nat) (hm : Bool) (key : Nat) (b : List Byte) : Midstate :=
    let pad := if hm then ((s.tenantKey fn key 1).map (innerPad alg)).getD [] else []
    midstate alg (initState alg) (pad ++ b) hm (if hm then keySlot fn key else 0)
  let data : List Byte := ((s.msgCmd m).map Cmd.data).getD []
  match m.owner with
  | .direct _ => match s.msgCmd m with
    | some c => hashed c.fn (bitsOf c.pkt.aux 2 0) (bitOf c.pkt.aux 3) (c.pkt.fld 24 1) (data.take m.fed)
    | none => hashed 0 1 false 0 []
  | .raw _ => match s.msgCmd m with
    | some c =>
      let alg := bitsOf c.pkt.aux 2 0
      midstate alg (if bitOf c.pkt.aux 3 then initState alg else data.take (stateLen alg)) ((data.drop 256).take m.fed) false 0
    | none => hashed 0 1 false 0 []
  | .stream h => match s.ctxs.find? fun c => c.handle == h with
    | some x => match x.kind with
      | .write w => hashed x.tenant (if w.alg = 1 then 1 else w.alg + 1) false 0 (w.segment.take m.fed)
      | .digest d => hashed x.tenant d.alg d.hmac d.key (d.consumed ++ data.take m.fed)
      | _ => hashed 0 1 false 0 []
    | none => hashed 0 1 false 0 []
  | .crumb k h =>
    let ds := match k with
      | .crumb c => (s.crumb c).core.digests
      | .ctrl c => (s.ccore c).core.digests
    match ds.find? fun d => d.handle == h with
    | some d => hashed 0 d.alg false 0 (d.bytes.take m.fed)
    | none => hashed 0 1 false 0 []

/-- The bytes that end a quantum (R275, DG_CFG). -/
def State.quantum (s : State) : Nat := s.regBits .dgCfg 0 23 16 * 1024

/-- A message takes a free context and is loaded into it (DG_CNT 0). -/
def State.grantTo (s : State) (id : Nat) : State :=
  (s.modMsg id fun m => { m with
    resident := true, busy := decide (m.fed < m.total), sinceGrant := 0, record := none }).bump .dgCnt 0

/-- The next tick of the engines' order of arrival. -/
def State.dgTick (s : State) : State := s.modDigests fun d => { d with clock := d.clock + 1 }

/-- Spills an idle context (DG_CNT 1): its midstate record goes to the owning stream context, and its message waits again
if its owner has bytes ready. -/
def State.spill (s : State) (id : Nat) : State :=
  ((s.modMsg id fun m => { m with
    resident := false, busy := false, idleSince := s.digests.clock, record := some (s.midstateOf m) }).bump .dgCnt 1).dgTick

/-- Gives a context of an engine to a message, free or spilled, if one can be had now (R276). -/
def State.obtain (s : State) (id e : Nat) : Option State :=
  if (s.engine e).st ≠ 1 then none
  else if (s.resident e).length < 64 then some (s.grantTo id)
  else (s.idlest e).map fun x => (s.spill x.id).grantTo id

/-- Serves the first waiter of an engine, if a context is free or idle: waiters are served in arrival order (R276). -/
def State.serveWaiter (s : State) (e : Nat) : State :=
  match s.waiters e with
  | m :: _ => (s.obtain m.id e).getD s
  | [] => s

/-- Enters a new message that asks for a context; it gets one at once when none waits before it. -/
def State.addMsg (s : State) (owner : MsgOwner) (e total : Nat) (asks : Bool := false) : Nat × State :=
  let id := s.digests.nextMsg
  let m : DigestMsg := {
    id := id, owner := owner, engine := e, resident := false, busy := false, idleSince := s.digests.clock, fed := 0
    total := total, sinceGrant := 0, sinceCheck := 0, asks := asks }
  let t := (s.modDigests fun d => { d with nextMsg := id + 1, msgs := d.msgs ++ [m] }).dgTick
  (id, if (total > 0 || asks) && (s.waiters e).isEmpty then t.serveWaiter e else t)

/-- More bytes are ready for a message: it goes on, or asks for a context. One whose quantum is spent while another waits
stays idle (R275). -/
def State.feedMsg (s : State) (id more : Nat) : State :=
  match s.msg? id with
  | none => s
  | some m =>
    let first := (s.waiters m.engine).isEmpty
    let spent := decide (m.sinceGrant ≥ s.quantum) && !first
    let t := (s.modMsg id fun m => { m with
      total := m.total + more, busy := m.resident && decide (m.fed < m.total + more) && (m.busy || !spent)
      idleSince := if m.resident || m.waits then m.idleSince else s.digests.clock }).dgTick
    if more > 0 && !m.resident && first then t.serveWaiter m.engine else t

/-- A message that is not resident asks for a context although it has no bytes to feed. -/
def State.askMsg (s : State) (m : DigestMsg) : State :=
  if m.resident || m.waits then s
  else
    let first := (s.waiters m.engine).isEmpty
    let t := (s.modMsg m.id fun m => { m with asks := true, idleSince := s.digests.clock }).dgTick
    if first then t.serveWaiter m.engine else t

/-- The message of a stream. -/
def State.streamMsg (s : State) (h : Nat) : Option DigestMsg :=
  s.digests.msgs.find? fun m => m.owner == .stream h

/-- An object stream's message: all its bytes up to the frontier are ready (02 R44). -/
def State.feedStream (s : State) (tenant h : Nat) : State :=
  match s.stream? tenant h, s.streamMsg h with
  | some w, some m => s.feedMsg m.id (w.frontier - w.start - m.total)
  | _, _ => s

/-- The digest stream of a handle. -/
def State.digestStream? (s : State) (tenant h : Nat) : Option DigestStream :=
  match s.ctx? tenant h with
  | some c => match c.kind with
    | .digest d => some d
    | _ => none
  | none => none

/-- Writes a result slot (R286): SEQ rises at the start and at the end. -/
def State.writeResult (s : State) (c : Cmd) (alg : Nat) (hm : Bool) (d : List Byte) : State :=
  let i := c.qid * 8 + c.pkt.cid % 8
  s.modFp c.port c.fn fun p =>
    let old := p.results.lookD i ⟨[], 0, 0, false, 0⟩
    { p with results := p.results.put i ⟨padTo d 64, c.pkt.cid, alg, hm, old.seq + 2⟩ }

/-- The fields of a DIGEST_DIRECT packet: algorithm, HMAC, FIRST, LAST, KEY, RESULT_ADDR (03 R90). -/
structure DirectArgs where
  alg : Nat
  hm : Bool
  first : Bool
  last : Bool
  key : Nat
  result : Nat
deriving DecidableEq, Repr

/-- Reads them from a packet. -/
def Packet.direct (p : Packet) : DirectArgs :=
  ⟨bitsOf p.aux 2 0, bitOf p.aux 3, bitOf p.aux 4, bitOf p.aux 5, p.fld 24 1, p.fld 32 8⟩

/-- Ends a digest: its result goes to RESULT_ADDR or to the result slot, before the reply (R286, R287; 03 R91). -/
def State.directResult (s : State) (c : Cmd) (a : DirectArgs) (d : List Byte) : State :=
  if c.doomed then s.complete c .ok 0 0 0
  else if a.result = 0 then (s.writeResult c a.alg a.hm d).complete c .ok 0 0 0
  else if !s.usable c.port c.fn then s.fail c .hostDmaError
  else (s.hostWrite c.port c.fn a.result d).complete c .ok 0 0 0

/-- A segment's last byte is consumed: the digest ends with LAST, and its midstate is checkpointed otherwise: the record
from which the next segment starts (R277, R279). -/
def State.directDone (s : State) (c : Cmd) (consumed : List Byte) (h : Option Nat) : State :=
  let a := c.pkt.direct
  if a.last then
    let m := consumed ++ c.data
    let d := if a.hm then (s.tenantKey c.fn a.key 1).map fun k => algHmac a.alg k m else some (algDigest a.alg m)
    let s := match h with
      | some h => s.closeCtx h
      | none => s
    match d with
    | some d => s.directResult c a d
    | none => s.fail c .notPermitted
  else match h with
    | some h =>
      let s := s.modCtx h fun x => match x.kind with
        | .digest d => { x with kind := .digest { d with consumed := consumed ++ c.data } }
        | _ => x
      let s := match s.streamMsg h with
        | some m => s.modMsg m.id fun m => { m with
            fed := 0, total := 0, sinceCheck := 0, check := 0, checkRec := some (s.midstateOf { m with fed := 0 }) }
        | none => s
      s.complete c .ok (if a.first then h else 0) 0 0
    | none => s

/-- The output of DIGEST_RAW (R283). -/
def State.rawDone (s : State) (c : Cmd) : State :=
  let alg := bitsOf c.pkt.aux 2 0
  let st := if bitOf c.pkt.aux 3 then initState alg else c.data.take (stateLen alg)
  let msg := c.data.drop 256
  if !s.usable c.port c.fn then s.fail c .hostDmaError
  else (if c.doomed then s else s.hostWrite c.port c.fn (c.pkt.fld 32 8) (padTo (rawBlocks alg st msg) 200)).complete c .ok
    (msg.length / algBlock alg) 0 0

/-- What follows when all bytes ready for a message are consumed. -/
def State.msgDone (s : State) (m : DigestMsg) : State :=
  match m.owner, s.msgCmd m with
  | .direct _, some c => (s.dropMsg m.id).directDone c [] none
  | .raw _, some c => (s.dropMsg m.id).rawDone c
  | .stream h, some c => match s.digestStream? c.fn h with
    | some d => s.directDone c d.consumed (some h)
    | none => s
  | _, _ => s

/-- Ends the messages without bytes whose context has been granted. -/
def State.finishEmpty (s : State) : State :=
  let l := s.digests.msgs.filter fun m => m.resident && m.asks && decide (m.fed = m.total) && (s.msgCmd m).isSome
  l.foldl (fun s m => (s.modMsg m.id fun m => { m with asks := false }).msgDone m) s

/-- Block size of a message's algorithm. -/
def State.msgBlock (s : State) (m : DigestMsg) : Nat :=
  match m.owner with
  | .stream h => match (s.ctxs.find? fun c => c.handle == h).map Ctx.kind with
    | some (.write w) => if w.alg = 1 then 64 else if w.alg = 2 then 128 else 136
    | some (.digest d) => algBlock d.alg
    | _ => 64
  | _ => match s.msgCmd m with
    | some c => algBlock (bitsOf c.pkt.aux 2 0)
    | none => 64

/-- A segment's wait limit has passed (R277): DIGEST_BUSY, no byte consumed; a digest stream stays open. -/
def State.digestBusy (s : State) (m : DigestMsg) : State :=
  let s := s.bump .dgCnt 2
  match s.msgCmd m with
  | none => s
  | some c =>
    let s := match m.owner with
      | .stream _ => s.modMsg m.id fun m => { m with
          fed := 0, total := 0, sinceCheck := 0, check := 0, asks := false, record := m.checkRec }
      | _ => s.dropMsg m.id
    s.fail c .digestBusy

/-- Moves the messages of an engine to the next online one (R285 step 2): a message that was resident goes on from where
`fedOf` says, and waits for a context there when it has bytes left. -/
def State.moveMsgs (s : State) (e : Nat) (fedOf : DigestMsg → Nat) (recOf : DigestMsg → Option Midstate) : State :=
  let target := s.nextOnline (e + 1)
  let mine := (s.digests.msgs.filter fun m => m.engine == e).map DigestMsg.id
  let s := s.modDigests fun d => { d with msgs := d.msgs.map fun m =>
    if m.engine = e then
      { m with
        engine := target, resident := false, busy := false, fed := if m.resident then fedOf m else m.fed, sinceCheck := 0
        record := if m.resident then recOf m else m.record }
    else m }
  (mine.foldl (fun s _ => s.serveWaiter target) s).finishEmpty

/-- The Crumbs whose slices hold a digest handle on an engine. -/
def State.digestCrumbs (s : State) (e : Nat) : List Nat :=
  s.digests.msgs.filterMap fun m => match m.owner with
    | .crumb (.crumb c) h => if m.engine = e && (s.crumb c.val).core.digests.any (fun d => d.handle == h) then some c.val else none
    | _ => none

/-- Reads a command's payload again from host memory (02 R66; R285): the command waits for it, and its failure is the
command's (03 R116, R118). A function that is not usable cannot read it (04 R121). -/
def State.refetch (s : State) (c : Cmd) : State :=
  if s.usable c.port c.fn then (s.modCmd c.tag fun c => { c with want := .payload }).readPayload c else s.fail c .hostDmaError

/-- An alarm (R285): the engine is cleared and held, its messages move and feed again from their last checkpoints,
and the slices that hold handles on it start again. -/
def State.alarm (s : State) (e : Nat) (bits : BitVec 4) : State :=
  let s := s.modEngine e fun x => { x with st := if x.st = 1 then 2 else x.st, alarm := x.alarm ||| bits }
  let s := (s.bump .dgCnt 3).record 0x0206 e [bits.setWidth 8]
  let again := (s.digestCrumbs e).eraseDups
  let direct := ((s.resident e).filterMap s.msgCmd).filter fun c => c.pkt.opcode == 0x90 || c.pkt.opcode == 0xFD
  let s := s.moveMsgs e DigestMsg.check DigestMsg.checkRec
  let s := direct.foldl (fun s c => if c.payload.any fun b => !b.isEmpty then s.refetch c else s) s
  again.foldl (fun s c => s.pushAgain c) s

end Sys2Proof.Machine
end

