-- ==== Sys2Proof/Machine/Aes.lean ====
section
/-! DEFINITION. AES (FIPS 197) with the modes the spec names: AES Key Wrap (RFC 3394), AES-256-XTS (IEEE 1619)
and AES-256-GCM (SP 800-38D). The S-box is computed as FIPS 197 defines it. -/
namespace Sys2Proof.Machine

/-- Multiplication by x in the AES field. -/
def xtime (a : Byte) : Byte := if a.getLsbD 7 then (a <<< 1) ^^^ 0x1B#8 else a <<< 1

/-- Multiplication in the AES field. -/
def gmul (a b : Byte) : Byte :=
  ((List.range 8).foldl (fun (p : Byte × Byte) i => (if b.getLsbD i then p.1 ^^^ p.2 else p.1, xtime p.2)) (0, a)).1

/-- The inverse in the AES field: the 254th power. -/
def ginv (a : Byte) : Byte :=
  let a2 := gmul a a; let a3 := gmul a2 a; let a6 := gmul a3 a3; let a12 := gmul a6 a6; let a15 := gmul a12 a3
  let a30 := gmul a15 a15; let a60 := gmul a30 a30; let a120 := gmul a60 a60; let a240 := gmul a120 a120
  gmul (gmul a240 a12) a2

/-- The S-box entry of a byte. -/
def sboxOf (a : Byte) : Byte :=
  let i := ginv a
  i ^^^ i.rotateLeft 1 ^^^ i.rotateLeft 2 ^^^ i.rotateLeft 3 ^^^ i.rotateLeft 4 ^^^ 0x63#8

/-- The S-box entry's inverse. -/
def sboxInvOf (a : Byte) : Byte :=
  ginv (a.rotateLeft 1 ^^^ a.rotateLeft 3 ^^^ a.rotateLeft 6 ^^^ 0x05#8)

/-- Xor of two byte strings, of the shorter's length. -/
def xorB (a b : List Byte) : List Byte := List.zipWith (· ^^^ ·) a b

/-- The key schedule: the words made so far, newest first; `n` more to make, `i` the index of the next. -/
def aesExpand (nk : Nat) : Nat → Nat → Byte → List (List Byte) → List (List Byte)
  | 0, _, _, ws => ws
  | n + 1, i, rc, ws =>
    let t := ws.getD 0 []
    let t' := if i % nk = 0 then
        let u := (t.drop 1 ++ t.take 1).map sboxOf
        xorB u [rc, 0, 0, 0]
      else if nk > 6 ∧ i % nk = 4 then t.map sboxOf else t
    aesExpand nk n (i + 1) (if i % nk = 0 then xtime rc else rc) (xorB (ws.getD (nk - 1) []) t' :: ws)

/-- The round keys of a key of 16, 24 or 32 bytes. -/
def aesKeys (key : List Byte) : List (List Byte) :=
  let nk := key.length / 4
  let ws := (aesExpand nk (4 * (nk + 7) - nk) nk 1 (chunks 4 key).reverse).reverse
  (List.range (nk + 7)).map fun r => ((ws.drop (4 * r)).take 4).flatten

/-- ShiftRows: byte (row r, column c) comes from column c + r. -/
def shiftRows (s : List Byte) : List Byte :=
  (List.range 16).map fun i => s.getD ((i + 4 * (i % 4)) % 16) 0

/-- The inverse of ShiftRows. -/
def shiftRowsInv (s : List Byte) : List Byte :=
  (List.range 16).map fun i => s.getD ((i + 16 - 4 * (i % 4)) % 16) 0

/-- MixColumns with the coefficients of its first row. -/
def mixWith (m : List Byte) (s : List Byte) : List Byte :=
  (List.range 16).map fun i =>
    (List.range 4).foldl (fun a j => a ^^^ gmul (m.getD ((j + 4 - i % 4) % 4) 0) (s.getD (i / 4 * 4 + j) 0)) 0

/-- Encrypts one block under round keys. -/
def aesEnc (ks : List (List Byte)) (b : List Byte) : List Byte :=
  match ks with
  | [] => b
  | k0 :: r =>
    let mid := r.dropLast.foldl (fun s k => xorB (mixWith [2, 3, 1, 1] (shiftRows (s.map sboxOf))) k) (xorB b k0)
    xorB (shiftRows (mid.map sboxOf)) (r.getLast?.getD [])

/-- Decrypts one block under round keys. -/
def aesDec (ks : List (List Byte)) (b : List Byte) : List Byte :=
  match ks.reverse with
  | [] => b
  | kl :: r =>
    let mid := r.dropLast.foldl (fun s k =>
      mixWith [14, 11, 13, 9] (xorB ((shiftRowsInv s).map sboxInvOf) k)) (xorB b kl)
    xorB ((shiftRowsInv mid).map sboxInvOf) (r.getLast?.getD [])

/-- One step of AES Key Unwrap (RFC 3394 2.2.2): the integrity register and the blocks, `t` the step counter. -/
def unwrapStep (ks : List (List Byte)) (n : Nat) (ar : List Byte × List (List Byte)) (t : Nat) :
    List Byte × List (List Byte) :=
  let i := (t - 1) % n
  let b := aesDec ks (xorB ar.1 (beBytes 8 t) ++ ar.2.getD i [])
  (b.take 8, ar.2.set i (b.drop 8))

/-- AES Key Unwrap: the plaintext, or none where the integrity value is not the default one. -/
def keyUnwrap (kek wrapped : List Byte) : Option (List Byte) :=
  let bs := chunks 8 wrapped
  let n := bs.length - 1
  let r := (List.range (6 * n)).reverse.foldl (fun ar t => unwrapStep (aesKeys kek) n ar (t + 1))
    (bs.getD 0 [], bs.drop 1)
  if r.1 = List.replicate 8 0xA6#8 then some r.2.flatten else none

/-- One step of AES Key Wrap (RFC 3394 2.2.1). -/
def wrapStep (ks : List (List Byte)) (n : Nat) (ar : List Byte × List (List Byte)) (t : Nat) : List Byte × List (List Byte) :=
  let i := (t - 1) % n
  let b := aesEnc ks (ar.1 ++ ar.2.getD i [])
  (xorB (b.take 8) (beBytes 8 t), ar.2.set i (b.drop 8))

/-- AES Key Wrap of a plaintext of whole 8-byte blocks, with the default integrity value. -/
def keyWrap (kek plain : List Byte) : List Byte :=
  let bs := chunks 8 plain
  let r := (List.range (6 * bs.length)).foldl (fun ar t => wrapStep (aesKeys kek) bs.length ar (t + 1)) (List.replicate 8 0xA6#8, bs)
  r.1 ++ r.2.flatten

/-- Multiplication of an XTS tweak by alpha (IEEE 1619): little-endian, polynomial 0x87. -/
def xtsAlpha (t : List Byte) : List Byte :=
  let v := leNat t
  let d := 2 * v % 2 ^ 128
  leBytes 16 (if v ≥ 2 ^ 127 then d ^^^ 0x87 else d)

/-- The blocks of a data unit under the data key, from a tweak. -/
def xtsGo (ks : List (List Byte)) (dec : Bool) : List (List Byte) → List Byte → List Byte
  | [], _ => []
  | b :: r, t => xorB ((if dec then aesDec else aesEnc) ks (xorB b t)) t ++ xtsGo ks dec r (xtsAlpha t)

/-- AES-256-XTS over a data unit of whole blocks, with its 16-byte tweak; the key is both halves, 64 bytes. -/
def xts (dec : Bool) (key tweak data : List Byte) : List Byte :=
  xtsGo (aesKeys (key.take 32)) dec (chunks 16 data) (aesEnc (aesKeys (key.drop 32)) tweak)

/-- Multiplication in the GCM field, on numbers read big-endian (bit 127 is the first bit). -/
def gcmMul (x y : Nat) : Nat :=
  ((List.range 128).foldl (fun (p : Nat × Nat) i =>
    let z := if bitOf x (127 - i) then p.1 ^^^ p.2 else p.1
    (z, if p.2 % 2 = 1 then (p.2 / 2) ^^^ (0xE1 * 2 ^ 120) else p.2 / 2)) (0, y)).1

/-- GHASH of a byte string of whole blocks. -/
def ghash (h : Nat) (b : List Byte) : Nat :=
  (chunks 16 b).foldl (fun y blk => gcmMul (y ^^^ beNat blk) h) 0

/-- AES-256-GCM encryption with a 12-byte IV: the ciphertext and the 16-byte tag. -/
def gcm (key iv aad pt : List Byte) : List Byte × List Byte :=
  let ks := aesKeys key
  let h := beNat (aesEnc ks (zeros 16))
  let ct := (((chunks 16 pt).zip (List.range ((pt.length + 15) / 16))).map fun x =>
    xorB x.1 (aesEnc ks (iv ++ beBytes 4 (x.2 + 2)))).flatten
  let pad := fun (b : List Byte) => padTo b (roundUp b.length 16)
  let s := ghash h (pad aad ++ pad ct ++ beBytes 8 (8 * aad.length) ++ beBytes 8 (8 * ct.length))
  (ct, xorB (beBytes 16 s) (aesEnc ks (iv ++ beBytes 4 1)))

end Sys2Proof.Machine
end

