-- ==== Sys2Proof/Machine/GroupCode.lean ====
section
/-! DEFINITION. The erasure code of Firon Link (12 R426): GF(2^8) with the polynomial 0x11D, parity shards, and the
recovery of data shards from any K shards. -/
namespace Sys2Proof.Machine

/-- Multiplication in GF(2^8), polynomial 0x11D. -/
def gfMul (a b : Nat) : Nat :=
  ((List.range 8).foldl (fun (p : Nat × Nat) i =>
    (if bitOf b i then p.1 ^^^ p.2 else p.1, if p.2 ≥ 128 then (2 * p.2) ^^^ 0x11D else 2 * p.2)) (0, a)).1

/-- The inverse in GF(2^8): the number whose product is 1; zero has none and gives 0. -/
def gfInv (a : Nat) : Nat := (firstBelow 256 fun x => gfMul a x == 1).getD 0

/-- The coefficient of data shard `i` in parity shard `j` (R426 step 4). -/
def gfCoef (j i : Nat) : Nat := gfInv (j ^^^ (i + 4))

/-- The row of a shard over the K data shards: a unit row for a data shard, its coefficients for a parity shard. -/
def shardRow (k s : Nat) : List Nat :=
  (List.range k).map fun i => if s < k then (if i = s then 1 else 0) else gfCoef (s - k) i

/-- A linear combination of byte strings of equal length. -/
def gfCombine (cs : List Nat) (ds : List (List Byte)) : List Byte :=
  (cs.zip ds).foldl (fun out x =>
    let y := x.2.map fun b => BitVec.ofNat 8 (gfMul x.1 b.toNat)
    if out.isEmpty then y else xorB out y) []

/-- Parity shard `j` of a stripe from its data shards. -/
def parityShard (j : Nat) (ds : List (List Byte)) : List Byte :=
  gfCombine ((List.range ds.length).map fun i => gfCoef j i) ds

/-- A row times a factor. -/
def gfScale (c : Nat) (r : List Nat) : List Nat := r.map (gfMul c)

/-- A row plus a factor times another. -/
def gfAddRow (r : List Nat) (c : Nat) (q : List Nat) : List Nat := List.zipWith (fun x y => x ^^^ gfMul c y) r q

/-- One column of Gauss-Jordan elimination: a row with a nonzero element in the column becomes the pivot. -/
def gfStep (n : Nat) (m : List (List Nat)) (c : Nat) : List (List Nat) :=
  match (List.range n).find? fun r => decide (c ≤ r) && (m.getD r []).getD c 0 != 0 with
  | none => m
  | some p =>
    let pr := gfScale (gfInv ((m.getD p []).getD c 0)) (m.getD p [])
    let m := (m.set p (m.getD c [])).set c pr
    (List.range n).map fun r =>
      let row := m.getD r []
      if r = c then row else gfAddRow row (row.getD c 0) pr

/-- The inverse of a square matrix. -/
def gfInverse (m : List (List Nat)) : List (List Nat) :=
  let n := m.length
  let aug := (List.range n).map fun r => m.getD r [] ++ (List.range n).map fun c => if c = r then 1 else 0
  ((List.range n).foldl (fun m c => gfStep n m c) aug).map fun r => r.drop n

/-- The data shards of a stripe from K of its shards, each with its number. -/
def recoverData (k : Nat) (have' : List (Nat × List Byte)) : List (List Byte) :=
  let h := have'.take k
  let inv := gfInverse (h.map fun x => shardRow k x.1)
  inv.map fun r => gfCombine r (h.map Prod.snd)

/-- Any shard of a stripe from its data shards. -/
def shardOf (k s : Nat) (ds : List (List Byte)) : List Byte :=
  if s < k then ds.getD s [] else parityShard (s - k) ds

end Sys2Proof.Machine
end

