-- ==== Sys2Proof/Machine/ObjectOps.lean ====
section
/-! DEFINITION. What the object and block commands share: packing and placing data (10 R349, R356), streams and
their aborts (02 R41 to R45), commits (02 R46 to R50, R55) and trim and delete records (10 R362). -/
namespace Sys2Proof.Machine

/-! ## Placing data -/

/-- The 4 KiB blocks a byte range touches: block index and the range's bytes in it, zeros elsewhere. -/
def objBlocks (off : Nat) (data : List Byte) : List (Nat × List Byte) :=
  if data.isEmpty then []
  else (List.range ((off + data.length - 1) / 4096 + 1 - off / 4096)).map fun i =>
    let b := off / 4096 + i
    (b, extentBytes [⟨off, data, [], 0, 0⟩] (b * 4096) (b * 4096 + 4096))

/-- The block whose identity a packed sector carries: the first bucket that starts in it (10 R348), or the one it
continues. -/
def Packing.identity (p : Packing) (i : Nat) : Nat :=
  match (p.done[i]?).bind PackSector.first with
  | some b => b
  | none => match (p.places.filter fun x => decide (x.2.1 < i)).getLast? with
    | some x => x.1
    | none => 0

/-- The sectors of a packing, with their headers. `block` tells block data, whose headers number the group. -/
def Packing.sectors (p : Packing) (h : Header) (block : Bool) : List (Header × List Byte) :=
  (List.range p.done.length).map fun i =>
    let x := p.done.getD i PackSector.empty
    ({ h with
      layout := x.layout % 256, cont := x.cont, logicalLo := p.identity i
      unitSectors := if block then p.done.length else 1, unitIndex := if block then i else 0 }, padTo x.bytes 4096)

/-- Is a class's data placed in rows with parity: block data and the landing copy of a Group-coded stream are, but
for PARITY 1 (10 R353; 12 R424, R429)? -/
def State.classProt (s : State) (cls : Nat) : Bool := s.classParity cls != 1

/-- A header before its sector is known. -/
def headerOf (kind tenant container cls seq keySel : Nat) (hi : Nat) : Header :=
  ⟨kind, false, keySel == 1, false, tenant, container, 0, 0, cls, seq, 0, hi, 1, 0⟩

/-- Counts coded blocks by their bucket codes (07 RLR_CNT). -/
def State.countCoded (s : State) (codes : List Nat) : State :=
  codes.foldl (fun s c => (s.bump .rlrCnt 0).bump .rlrCnt (2 + min c 3)) s

/-- The compression target of object data: Group-coded classes code nothing at placement. -/
def State.objectTarget (s : State) (cls : Nat) : Nat := if s.classParity cls < 2 then s.classTarget cls else 0

/-- Packs and places blocks, as the Rollers have coded them (07 R250), as one group (10 R349): its number, or none where no row can be formed (10
R512). -/
def State.placeBlocks (s : State) (batch cls : Nat) (owner : GroupOwner) (h : Header) (block : Bool)
    (blks : List (Nat × List Byte)) : Option (Nat × State) :=
  let target := if block then s.classTarget cls else s.objectTarget cls
  let coded := blks.map fun x => (x.1, codeBlock target x.2)
  let p := packBlocks coded
  let ng := s.newGroup
  let key := (s.tenantKey h.tenant (b2n h.keySel) 0).getD []
  let g : Group := ⟨ng.1, owner, p.sectors h block, p.places, 0, key, s.classQos cls⟩
  (ng.2.placeGroup batch .host (s.classProt cls) g).map fun t => (ng.1, t)

/-- Places groups one after another: their numbers, or none where one cannot be placed. -/
def State.placeAll (s : State) (batch cls : Nat) (owner : GroupOwner) (h : Header) (block : Bool)
    (gs : List (List (Nat × List Byte))) : Option (List Nat × State) :=
  gs.foldl (fun acc blks => acc.bind fun a =>
    (a.2.placeBlocks batch cls owner h block blks).map fun r => (a.1 ++ [r.1], r.2)) (some ([], s))

/-- Cuts a list into pieces of `n`. -/
def cutList {α : Type} (n : Nat) (l : List α) : List (List α) :=
  (List.range ((l.length + n - 1) / n)).map fun i => (l.drop (i * n)).take n

/-- Places object bytes: groups of up to 64 blocks. -/
def State.placeObject (s : State) (batch cls : Nat) (owner : GroupOwner) (tenant space oid seq off : Nat)
    (data : List Byte) : Option (List Nat × State) :=
  s.placeAll batch cls owner (headerOf 2 tenant space cls seq (s.classKey cls) oid) false (cutList 64 (objBlocks off data))

/-- The extents of a durable group of object data, whose first sector has a number: one for each block, with the
bytes of the range it came from. -/
def groupExtents (g : Group) (first off : Nat) (data : List Byte) : List Extent :=
  g.blocks.map fun b =>
    let lo := max off (b.1 * 4096)
    let hi := min (off + data.length) (b.1 * 4096 + 4096)
    let e : MapEntry := ⟨first + b.2.1, b.2.2.1, b.2.2.2, 0⟩
    ⟨lo, (data.drop (lo - off)).take (hi - lo), e.sectors, e.kib, e.bucket⟩

/-- The home Batch of a new stream: the one with the fewest open write streams, the lowest number on a tie (01 R16).
DESIGN CHOICE: only write streams count (log 127). -/
def State.streamBatch (s : State) : Nat :=
  (leastBy [0, 1, 2, 3] fun b => (s.ctxs.filter fun c => match c.kind with
    | .write w => w.batch == b
    | _ => false).length).getD 0

/-! ## Streams -/

/-- Ends a stream uncommitted (R41): its context and what it staged go, and every command on it that has not
completed fails. DESIGN CHOICE: after ABORT_STREAM, inactivity or Read-Only with STREAM_UNKNOWN (log 128). -/
def State.abortStream (s : State) (tenant h : Nat) (st : Status) (but : Option Nat := none) : State :=
  let mine := s.cmds.filter fun c => c.fn == tenant && c.pkt.stream == h && h != 0 && some c.tag != but
  (mine.foldl (fun s c => s.finish c st 0 0 0) (s.closeCtx h)).pump.reap

/-- The COMMIT that waits on a stream. -/
def State.committer (s : State) (tenant h : Nat) : Option Cmd :=
  s.cmds.find? fun c => c.fn == tenant && c.pkt.stream == h && c.pkt.opcode == 0x42 && c.launched

/-! ## Commits -/

/-- The condition of R47 against the latest version in commit order. -/
def versionOk (expected : Nat) (l : Option Version) : Bool :=
  if expected = 2 ^ 64 - 1 then true
  else if expected = 0 then !(l.any Version.live)
  else l.any fun v => v.version == expected

/-- The version a conflict reports (R47). -/
def latestNo (l : Option Version) : Nat :=
  match l with
  | some v => v.version
  | none => 0

/-- Ends a commit that does not happen: its stream goes, and its command or job gets the status. -/
def State.failOwner (s : State) (o : CommitOwner) (h : Nat) (st : Status) (r1 : Nat) : State :=
  match o with
  | .cmd tag =>
    let s := s.closeCtx h
    match s.cmd? tag with
    | some c => s.complete c st 0 r1 0
    | none => s
  | .job slot =>
    (s.modJob slot fun j => { j with outPhase := 3, ending := some (j.ending.getD (2, st)) }).finishJob slot

/-- Aborts an accepted commit and every later one of its object, which were checked against it (R48). -/
def State.commitFail (s : State) (c : Commit) (st : Status) : State :=
  let after := (s.commitsOf c.ver.tenant c.ver.space c.ver.oid).filter fun x => decide (x.ver.version > c.ver.version)
  let gone := c.id :: after.map Commit.id
  let s := { s with commits := s.commits.filter fun x => !(gone.contains x.id) }
  let s := s.failOwner c.owner c.handle st 0
  after.foldl (fun s x =>
    s.failOwner x.owner x.handle .commitConflict (latestNo (s.latestInOrder c.ver.tenant c.ver.space c.ver.oid))) s

/-- Takes back the accepted output commit of a job, whose version is not visible yet (DESIGN CHOICE, log entry 150: also one
whose record is being programmed or has been); later commits of the object were checked against it and fail (R48; 05
R198). -/
def State.dropJobCommit (s : State) (slot : Nat) : State :=
  match s.commits.find? fun c => c.owner == .job slot with
  | none => s
  | some c =>
    let after := (s.commitsOf c.ver.tenant c.ver.space c.ver.oid).filter fun x => decide (x.ver.version > c.ver.version)
    let gone := c.id :: after.map Commit.id
    let s := { s with commits := s.commits.filter fun x => !(gone.contains x.id) }
    after.foldl (fun s x =>
      s.failOwner x.owner x.handle .commitConflict (latestNo (s.latestInOrder c.ver.tenant c.ver.space c.ver.oid))) s

/-- Ends a job from outside (05 R198): its output version is not committed. -/
def State.stopJob (s : State) (slot fin : Nat) (st : Status) : State := (s.dropJobCommit slot).endJob slot fin st none 0 0

/-- Is the version to be Group-coded (12 R424)? -/
def State.groupCoded (s : State) (v : Version) : Bool := v.live && decide (s.classParity v.pclass ≥ 2)

/-- Accepts a commit: it takes the space's next counter value and the next DATA_SEQ (R39, R48). READ_ONLY when the
counter is spent (R40). -/
def State.addCommit (s : State) (o : CommitOwner) (h : Nat) (v : Version) : Except Status State :=
  match (s.tenant v.tenant).spaces.look v.space with
  | none => .error .containerUnknown
  | some sp =>
    if sp.deleting then .error .containerUnknown
    else if sp.counter ≥ 2 ^ 64 - 2 then .error .readOnly
    else
      let sq := s.takeSeq
      let v := { v with version := sp.counter + 1, seq := sq.1 }
      let s := sq.2.modTenant v.tenant fun t => { t with spaces := t.spaces.adj v.space fun x => { x with counter := x.counter + 1 } }
      let pred := ((s.commitsOf v.tenant v.space v.oid).getLast?).map fun c => c.ver.version
      let c : Commit := ⟨s.nextCommit, o, h, pred, if s.groupCoded v then .shards else .waiting, v, false⟩
      .ok { s with nextCommit := s.nextCommit + 1, commits := s.commits ++ [c] }

/-- Does a stream extend a live log object (R56)? -/
def WriteStream.extends (w : WriteStream) (old : Option Version) : Bool := w.log && old.any fun v => v.live && v.log

/-- The version that a stream would commit: an extension keeps what the object holds below its START. -/
def WriteStream.version (w : WriteStream) (tenant : Nat) (old : Option Version) (seg : List Byte) : Version where
  tenant := tenant
  space := w.space
  oid := w.oid
  version := 0
  live := true
  log := w.log
  length := w.declLen
  segStart := w.start
  alg := w.alg
  digest := contentDigest w.alg seg
  parts := (match old with
    | some v => if w.extends old then v.parts else []
    | none => []) ++ w.parts.flatMap Part.extents
  trimmed := match old with
    | some v => if w.extends old then v.trimmed else []
    | none => []
  pclass := w.pclass
  seq := 0
  group := none
  ext := w.extends old

/-- The checks of R46 on a stream whose appends have all ended, in their order; the version on success. -/
def State.commitCheck (s : State) (tenant : Nat) (w : WriteStream) (expected : Nat) : Except (Status × Nat) Version :=
  let l := s.latestInOrder tenant w.space w.oid
  let seg := w.segment
  let v := w.version tenant l seg
  if w.frontier ≠ w.declLen then .error (.lengthShort, 0)
  else if w.expect.any fun d => d != v.digest then .error (.digestMismatch, 0)
  else if !versionOk expected l then .error (.commitConflict, latestNo l)
  else if l.any fun x => x.live && x.log != w.log then .error (.notLogObject, 0)
  else if w.log && w.start != (match l with | some x => if x.live then x.length else 0 | none => 0) then
    .error (.commitConflict, latestNo l)
  else .ok v

/-- Goes on with a Committing stream once its appends have ended, those in flight at the acceptance with them (R46);
in a space that is being deleted it fails (04 R144). -/
def State.tryCommit (s : State) (tenant h : Nat) : State :=
  match s.stream? tenant h, s.committer tenant h with
  | some w, some c =>
    if w.state ≠ .committing ∨ s.commits.any (fun x => x.handle == h) then s
    else if ((s.tenant tenant).spaces.look w.space).any Space.deleting then s.failOwner (.cmd c.tag) h .containerUnknown 0
    else if w.parts.any (fun p => !p.durable) ∨ w.inFlight.any (fun t => (s.cmd? t).isSome) then s
    else match s.commitCheck tenant w (c.pkt.fld 24 8) with
      | .error e => s.failOwner (.cmd c.tag) h e.1 e.2
      | .ok v => match s.addCommit (.cmd c.tag) h v with
        | .error st => s.failOwner (.cmd c.tag) h st 0
        | .ok s => s
  | _, _ => s

/-- A commit record of 128 bytes (R51), with an EXTENT_ROOT. TYPE 3 is a log extension (R56). -/
def Commit.record (c : Commit) (root : Nat) : List Byte :=
  let v := c.ver
  let b := leBytes 2 (if !v.live then 2 else if v.ext then 3 else 1) ++ leBytes 2 v.tenant ++ leBytes 1 v.space ++
    leBytes 1 (if v.live then v.alg else 0) ++ leBytes 1 v.pclass ++ leBytes 1 (b2n v.log + 2 * b2n v.group.isSome) ++
    leBytes 16 v.oid ++ leBytes 8 v.version ++ leBytes 8 v.length ++ leBytes 8 (if v.ext then v.segStart else 0) ++ leBytes 8 v.seq ++
    leBytes 8 (if v.live && decide (v.length > 0) then root else 0) ++ padTo v.digest 32 ++ zeros 28
  b ++ crcBytes b

/-- The commits whose records may go into the next commit page: waiting, and no earlier commit of the object is
short of durable (R48); at most 32 (10 R362). -/
def State.pageable (s : State) : List Commit :=
  (s.commits.filter fun c => decide (c.phase = .waiting) &&
    (s.commitsOf c.ver.tenant c.ver.space c.ver.oid).all fun x =>
      decide (x.ver.version ≥ c.ver.version) || decide (x.phase = .durable)).take 32

/-- Changes a commit. -/
def State.modCommit (s : State) (id : Nat) (f : Commit → Commit) : State :=
  { s with commits := adjWhere s.commits (fun c => c.id == id) f }

/-- The header of a device page: encrypted under D3 (10 R347, R348). -/
def deviceHeader (kind seq page : Nat) : Header := ⟨kind, false, false, true, 0, 0, 0, 0, 0, seq, page, 0, 1, 0⟩

/-! ## Extent lists (10 R350, R352) -/

/-- The 4 KiB blocks of a version. -/
def Version.blockCount (v : Version) : Nat := (v.length + 4095) / 4096

/-- The sectors of a version's extent list, 170 extents in each, one extent for each block (log 75); a Group-coded
version has its metadata sector instead (12 R428). -/
def Version.listSectors (v : Version) : Nat :=
  if !v.live then 0 else if v.group.isSome then 1 else (v.blockCount + 169) / 170

/-- The header of a sector of an extent list (10 R348), or of the metadata sector of a Group-coded version. -/
def Version.listHeader (v : Version) (seq : Nat) (copy : Bool) : Header :=
  if v.group.isSome then { deviceHeader 9 seq v.version with copy := copy }
  else ⟨5, copy, false, true, v.tenant, v.space, 0, 0, 0, seq, v.version, v.oid, 1, 0⟩

/-- Is this the version that an extent list belongs to? -/
def Version.names (v : Version) (tenant space oid version : Nat) : Bool := v.is tenant space oid && v.version == version

/-- Changes a version, visible or in commit. -/
def State.modVersion (s : State) (tenant space oid version : Nat) (f : Version → Version) : State :=
  { s with
    versions := adjWhere s.versions (fun v => v.names tenant space oid version) f
    commits := s.commits.map fun c => if c.ver.names tenant space oid version then { c with ver := f c.ver } else c }

/-- Places the extent list of a version with a DATA_SEQ, the last part first; its bytes are known when its rows are
programmed. None where no row can be formed. -/
def State.placeList (s : State) (batch : Nat) (kind : RowKind) (v : Version) (seq qos : Nat) (copy : Bool) : Option State :=
  let n := v.listSectors
  let parts := (n + 63) / 64
  if n = 0 then some s
  else
    let s := s.modVersion v.tenant v.space v.oid v.version fun w => { w with fresh := some ⟨seq, parts, []⟩ }
    (List.range parts).reverse.foldl (fun acc p => acc.bind fun s =>
      let ng := s.newGroup
      ng.2.placeGroup batch kind true ⟨ng.1, .extents v.tenant v.space v.oid v.version p,
        List.replicate (min 64 (n - 64 * p)) (v.listHeader seq copy, []), [], 0, [], qos⟩) (some s)

/-- A commit whose page and extent list are durable is durable (10 R355; R49). -/
def Commit.settled (c : Commit) : Commit :=
  if c.phase = .paged ∧ c.pageDone ∧ c.ver.fresh.isNone then { c with phase := .durable } else c

/-- A part of an extent list is durable: with the last one the list is in force (10 R352). -/
def Version.listPart (v : Version) (seq part : Nat) (ids : List Nat) : Version :=
  match v.fresh with
  | some l =>
    if l.seq ≠ seq then v
    else
      let done := l.done.put part ids
      if done.length = l.parts then { v with list := done.vals.flatten, fresh := none }
      else { v with fresh := some { l with done := done } }
  | none => v

/-- Closes the Committed streams whose completion is no longer held back: it has been posted or dropped (R41; 03
R117). -/
def State.sweepCommitted (s : State) : State :=
  let gone := s.ctxs.filterMap fun c => match c.kind with
    | .write w => match w.state, w.unposted with
      | .committed, some q =>
        if s.held.any fun h => h.fn == c.tenant && match h.out with
            | .reply _ _ _ r => r.qid == q.1 && r.cid == q.2
            | _ => false
        then none else some c.handle
      | _, _ => none
    | _ => none
  gone.foldl State.closeCtx s

/-- A version becomes visible (R49): it is the object's latest, its stream is Committed until its completion is posted
(R41), and its command or job is answered. -/
def State.commitVisible (s : State) (c : Commit) : State :=
  let s := ({ s with
    commits := s.commits.filter (fun x => x.id != c.id), versions := s.versions ++ [c.ver] } : State).pruneVersions
  match c.owner with
  | .cmd tag => match s.cmd? tag with
    | some k =>
      if k.pkt.opcode = 0x42 then
        let s := s.modStream c.handle fun w => { w with state := .committed, unposted := some (k.qid, k.pkt.cid) }
        (if k.pkt.dataLen = 32 then s.deliver k c.ver.digest 0 c.ver.version c.ver.length
          else s.complete k .ok 0 c.ver.version c.ver.length).sweepCommitted
      else s.complete k .ok 0 c.ver.version 0
    | none => s.closeCtx c.handle
  | .job slot => ((s.closeCtx c.handle).modJob slot fun j => { j with outPhase := 3, outVersion := c.ver.version }).finishJob slot

/-! ## Trim and delete records -/

/-- A record of 64 bytes (10 R362). -/
def Record.bytes (r : Record) : List Byte :=
  let x : Nat × Nat × Nat := match r.kind with
    | .trim lba n => (0x10, lba, n)
    | .nsDelete => (0x11, 0, 0)
    | .spaceDelete => (0x12, 0, 0)
  let b := leBytes 2 x.1 ++ leBytes 2 r.tenant ++ leBytes 1 r.container ++ zeros 3 ++ leBytes 8 x.2.1 ++
    leBytes 8 x.2.2 ++ leBytes 8 r.seq ++ zeros 28
  b ++ crcBytes b

/-- Places a record in a record page of a metadata row: one record to a page. Each Batch keeps metadata rows of its own
(10 R356); page `n` goes to Batch `n` mod 4 (log 77). None where no row can be formed. -/
def State.addRecord (s : State) (tag tenant container : Nat) (k : RecordKind) (seq : Nat) : Option State :=
  let id := s.nextCommit
  let r : Record := ⟨id, tag, tenant, container, k, seq, false⟩
  let s := { s with nextCommit := id + 1, records := s.records ++ [r] }
  let ng := s.newGroup
  let g : Group := ⟨ng.1, .record id, [(deviceHeader 4 seq id, padTo r.bytes 4096)], [], 0, [], 7⟩
  ng.2.placeGroup (id % 4) .metadata true g

/-- Fails every command of a namespace that has passed its checks and has not taken effect (04 R142). -/
def State.failNs (s : State) (tenant ns : Nat) : State :=
  let mine := s.cmds.filter fun c => c.fn == tenant && c.pkt.container == ns &&
    (c.pkt.opcode == 0x20 || c.pkt.opcode == 0x21 || c.pkt.opcode == 0x23) && c.pendingEffect
  mine.foldl (fun s c => s.finish c .containerUnknown 0 0 0) s

/-- A SPACE_DELETE is accepted: the commits of the space whose records are not durable fail, and so do those of its
streams that still wait for their appends; no later one becomes visible (04 R144). -/
def State.failSpaceCommits (s : State) (tenant space : Nat) : State :=
  let s := s.modTenant tenant fun t => { t with spaces := t.spaces.adj space fun x => { x with deleting := true } }
  let mine := s.commits.filter fun c => c.ver.tenant == tenant && c.ver.space == space && decide (c.phase ≠ .durable)
  let s := mine.foldl (fun s c =>
    if s.commits.any (fun x => x.id == c.id) then
      ({ s with commits := s.commits.filter fun x => x.id != c.id }).failOwner c.owner c.handle .containerUnknown 0
    else s) s
  let streams := s.ctxs.filterMap fun c => match c.kind with
    | .write w => if c.tenant = tenant ∧ w.space = space ∧ w.state = .committing then some c.handle else none
    | _ => none
  streams.foldl (fun s h => s.tryCommit tenant h) s

/-- A SPACE_DELETE has failed: the space stays. -/
def State.undelete (s : State) (tenant space : Nat) : State :=
  s.modTenant tenant fun t => { t with spaces := t.spaces.adj space fun x => { x with deleting := false } }

/-- The streams of a space. -/
def State.spaceHandles (s : State) (tenant space : Nat) : List Nat :=
  s.ctxs.filterMap fun c => if c.tenant = tenant then match c.kind with
    | .write w => if w.space = space then some c.handle else none
    | .read sp _ _ => if sp = space then some c.handle else none
    | _ => none else none

/-- Deletes a space (04 R144): its commits fail, its streams are released, its versions go; its commit counter
stays. -/
def State.dropSpace (s : State) (tenant space : Nat) : State :=
  let s := (s.commits.filter fun c => c.ver.tenant == tenant && c.ver.space == space && decide (c.phase = .durable)).foldl
    State.commitVisible (s.failSpaceCommits tenant space)
  let s := (s.spaceHandles tenant space).foldl (fun s h => s.abortStream tenant h .streamUnknown) s
  { (s.modTenant tenant fun t => { t with spaces := t.spaces.adj space fun x => { x with live := false, deleting := false } }) with
    versions := s.versions.filter fun v => !(v.tenant == tenant && v.space == space) }

/-- Deletes a namespace (04 R142). -/
def State.dropNs (s : State) (tenant ns : Nat) : State :=
  (s.failNs tenant ns).modTenant tenant fun t => { t with nss := t.nss.del ns }

/-- What a record's command does when one of its records is durable: it completes with the last of them. -/
def State.recordReply (s : State) (tag : Nat) : State :=
  match s.cmd? tag with
  | none => s
  | some c =>
    if c.left ≤ 1 then s.complete c .ok 0 0 0
    else s.modCmd tag fun c => { c with left := c.left - 1 }

/-- A record is durable and takes effect (02 R62; 04 R142, R144). -/
def State.recordDurable (s : State) (id : Nat) : State :=
  match s.records.find? fun r => r.id == id with
  | none => s
  | some r =>
    let s := { s with records := adjWhere s.records (fun x => x.id == id) fun x => { x with durable := true } }
    let s := match r.kind with
      | .trim lba n => s.modTenant r.tenant fun t => { t with
          nss := t.nss.adj r.container fun x => { x with trims := x.trims ++ [(⟨lba, n, r.seq⟩ : Trim)] } }
      | .nsDelete => s.dropNs r.tenant r.container
      | .spaceDelete => s.dropSpace r.tenant r.container
    (s.recordReply r.tag).pump.reap

end Sys2Proof.Machine
end

