-- ==== Sys2Proof/Machine/SieveOps.lean ====
section
/-! DEFINITION. The Sieve (09): banks, entries, lookups, ordered updates, the tenants' private regions, and the keys
of classification and admission. -/
namespace Sys2Proof.Machine

/-! ## Banks (R299 to R305) -/

/-- A bank as reset leaves it: bank 0 classification, bank 1 admission in longest-mask mode, 2 and 3 private. -/
def Bank.init (b : Nat) : Bank where
  use := if b = 0 then 1 else if b = 1 then 2 else 3
  longest := b == 1
  entries := []
  shadow := none
  held := false
  copy := []

/-- A bank. -/
def State.bank (s : State) (b : Nat) : Bank := s.banks.lookD b (Bank.init b)

/-- Changes a bank. -/
def State.modBank (s : State) (b : Nat) (f : Bank → Bank) : State := { s with banks := s.banks.upd b (Bank.init b) f }

/-- Changes the entries of a bank, and the firmware's copy of them with it (R329). -/
def State.setEntries (s : State) (b : Nat) (f : AMap SieveEntry → AMap SieveEntry) : State :=
  s.modBank b fun k => { k with entries := f k.entries, copy := f k.entries }

/-- Does an entry match a key (R303)? -/
def SieveEntry.matches (e : SieveEntry) (key : BitVec 320) : Bool := (key ^^^ e.value) &&& e.care == 0

/-- The number of CARE bits set. -/
def careCount (e : SieveEntry) : Nat := ((List.range 320).filter fun i => e.care.getLsbD i).length

/-- The entries a lookup sees: the shadow entry takes part at the index it records (R309). -/
def Bank.seen (k : Bank) : AMap SieveEntry :=
  match k.shadow with
  | some x => AMap.put k.entries x.1 x.2
  | none => k.entries

/-- The entry that wins among matching ones, with its slot: lowest PRIORITY in explicit mode, lowest index in
longest-mask mode and on a tie (R304, R305). -/
def Bank.winner (k : Bank) (key : BitVec 320) : Option (Nat × SieveEntry) :=
  leastBy (List.filter (fun e => e.2.matches key) k.seen) fun e => if k.longest then 0 else e.2.priority

/-- The bank of a use, if there is one. -/
def State.bankOf (s : State) (use : Nat) : Option Nat := (List.range 4).find? fun b => (s.bank b).use.toNat == use

/-- The private banks, in order. -/
def State.privBanks (s : State) : List Nat := (List.range 4).filter fun b => (s.bank b).use == 3

/-- SV_PRIV_CAP (R300). -/
def State.privCap (s : State) : Nat := 65536 * s.privBanks.length

/-- Looks up a private key in every private bank at once: bank, slot and entry (R304). -/
def State.privLookup (s : State) (key : BitVec 320) : Option (Nat × Nat × SieveEntry) :=
  leastBy (s.privBanks.filterMap fun b => ((s.bank b).winner key).map fun w => (b, w.1, w.2)) fun x => x.2.2.priority

/-- A key from its 38 data bytes, TENANT and KIND (R302). -/
def sieveKey (data : List Byte) (tenant kind : Nat) : BitVec 320 :=
  BitVec.ofNat 320 (leNat (sliceB data 0 38) + 2 ^ 304 * (tenant % 8192 + 8192 * (kind % 8)))

/-- Is any of some banks held (R329)? -/
def State.anyHeld (s : State) (bs : List Nat) : Bool := bs.any fun b => (s.bank b).held

/-! ## Private regions (R321) -/

/-- Bank and slot of a place among the private slots. -/
def State.privPlace (s : State) (p : Nat) : Nat × Nat := (s.privBanks.getD (p / 65536) 0, p % 65536)

/-- The place among the private slots of a bank's slot. -/
def State.privIndex (s : State) (b slot : Nat) : Nat := ((s.privBanks.findIdx? (· == b)).getD 0) * 65536 + slot

/-- The entry at a place among the private slots. -/
def State.privEntry (s : State) (p : Nat) : Option SieveEntry :=
  (s.bank (s.privPlace p).1).entries.look (s.privPlace p).2

/-- Sets the entry at a place among the private slots. -/
def State.putPriv (s : State) (p : Nat) (e : SieveEntry) : State :=
  s.setEntries (s.privPlace p).1 fun m => m.put (s.privPlace p).2 e

/-- Clears the entry at a place among the private slots. -/
def State.delPriv (s : State) (p : Nat) : State := s.setEntries (s.privPlace p).1 fun m => m.del (s.privPlace p).2

/-- The tenant entry numbers in use. -/
def State.privUsed (s : State) (n : Nat) : List Nat :=
  let r := (s.tenant n).region
  (List.range r.2).filter fun i => (s.privEntry (r.1 + i)).isSome

/-- Moves a tenant's entries to another run of slots, one entry at a time (R309, R321): the lowest first when the
run lies lower, the highest first when it lies higher. No tenant entry number changes. -/
def State.moveRegion (s : State) (n base : Nat) : State :=
  let r := (s.tenant n).region
  let used := s.privUsed n
  let order := if base ≤ r.1 then used else used.reverse
  let s := order.foldl (fun s i => match s.privEntry (r.1 + i) with
    | some e => if base + i = r.1 + i then s else (s.delPriv (r.1 + i)).putPriv (base + i) e
    | none => s) s
  s.modTenant n fun t => { t with region := (base, r.2) }

/-- The regions of other tenants, as base and length. -/
def State.otherRegions (s : State) (n : Nat) : List (Nat × Nat) :=
  (s.tenants.filter fun t => t.1 != n && t.2.region.2 != 0).map fun t => t.2.region

/-- Is a run of private slots free of other tenants' regions, and inside the private banks? -/
def State.runFree (s : State) (n base len : Nat) : Bool :=
  decide (base + len ≤ s.privCap) &&
    !((s.otherRegions n).any fun r => decide (base < r.1 + r.2) && decide (r.1 < base + len))

/-- Packs the regions of all tenants but one from the first private slot upward, lowest base first. -/
def State.packRegions (s : State) (n : Nat) : State :=
  let order := sortBy (fun t : Nat × Nat × Nat => t.2.1)
    ((s.tenants.filter fun t => t.1 != n && t.2.region.2 != 0).map fun t => (t.1, t.2.region))
  (order.foldl (fun (a : State × Nat) t => (a.1.moveRegion t.1 a.2, a.2 + t.2.2)) (s, 0)).1

/-- The lowest base of a free run of a length: slot 0 or the end of another region. -/
def State.findRun (s : State) (n len : Nat) : Option Nat :=
  leastBy ((0 :: (s.otherRegions n).map fun r => r.1 + r.2).filter fun b => s.runFree n b len) id

/-- Gives a tenant the region its quota asks for (R321): in place where it fits, else moved; where no run is long
enough the other regions are packed first. -/
def State.sizeRegion (s : State) (n quota : Nat) : State :=
  let r := (s.tenant n).region
  let high := (s.privUsed n).foldl (fun m i => max m (i + 1)) 0
  let len := max quota high
  if s.runFree n r.1 len then s.modTenant n fun t => { t with region := (r.1, len) }
  else match s.findRun n len with
    | some b => (s.moveRegion n b).modTenant n fun t => { t with region := (b, len) }
    | none =>
      -- Its own entries stand above the others while they are packed, then follow them.
      let held := (s.privUsed n).filterMap fun i => (s.privEntry (r.1 + i)).map fun e => (i, e)
      let s := (s.privUsed n).foldl (fun s i => s.delPriv (r.1 + i)) s
      let s := s.packRegions n
      let base := (s.otherRegions n).foldl (fun m x => max m (x.1 + x.2)) 0
      (held.foldl (fun s x => s.putPriv (base + x.1) x.2) s).modTenant n fun t => { t with region := (base, len) }

/-- DISABLE and ERASE take a tenant's private entries and its region away (R321, R325). -/
def State.dropRegion (s : State) (n : Nat) : State :=
  let r := (s.tenant n).region
  ((s.privUsed n).foldl (fun s i => s.delPriv (r.1 + i)) s).modTenant n fun t => { t with region := (0, 0) }

/-! ## Longest-mask order (R308 to R311) -/

/-- The groups of a longest-mask bank that hold entries, each packed from its first slot. -/
def toGroups (m : AMap SieveEntry) : AMap (List SieveEntry) :=
  m.foldl (fun g e => AMap.upd g (e.1 / 16) [] fun l => l ++ [e.2]) []

/-- The slots of groups. -/
def ofGroups (g : AMap (List SieveEntry)) : AMap SieveEntry :=
  g.foldl (fun m x => (x.2.zipIdx).foldl (fun m e => AMap.put m (16 * x.1 + e.2) e.1) m) []

/-- A group's entries. -/
def grp (g : AMap (List SieveEntry)) (k : Nat) : List SieveEntry := g.lookD k []

/-- The nearest group with room, the higher on a tie. -/
def nearestRoom (g : AMap (List SieveEntry)) (k : Nat) : Option Nat :=
  (List.range 4096).findSome? fun d =>
    if k + d < 4096 ∧ (grp g (k + d)).length < 15 then some (k + d)
    else if d ≤ k ∧ (grp g (k - d)).length < 15 then some (k - d) else none

/-- The last entry of a group moves to the first slot of the next. -/
def passUp (g : AMap (List SieveEntry)) (k : Nat) : AMap (List SieveEntry) :=
  match (grp g k).getLast? with
  | some e => (g.put k (grp g k).dropLast).put (k + 1) (e :: grp g (k + 1))
  | none => g

/-- The first entry of a group moves to the first free slot of the group before. -/
def passDown (g : AMap (List SieveEntry)) (k : Nat) : AMap (List SieveEntry) :=
  match grp g k with
  | e :: rest => (g.put k rest).put (k - 1) (grp g (k - 1) ++ [e])
  | [] => g

/-- Inserts an entry at a position of a group. -/
def insertAt (g : AMap (List SieveEntry)) (k p : Nat) (e : SieveEntry) : AMap (List SieveEntry) × Nat :=
  (g.put k ((grp g k).take p ++ [e] ++ (grp g k).drop p), 16 * k + p)

/-- The ordered insert of R310: the entries after it, and the slot the entry takes. The position is a group and a
place in it; a place after a full group is the start of the next. Where that start's group is full and room lies
lower, the entry goes to the end of the group before, which the moves have opened. -/
def orderedInsert (m : AMap SieveEntry) (e : SieveEntry) : AMap SieveEntry × Nat :=
  let g := toGroups m
  let c := careCount e
  let s := m.foldl (fun s x => if careCount x.2 ≥ c then x.1 + 1 else s) 0
  let full := s % 16 = 15 ∧ s / 16 + 1 < 4096
  let k := if full then s / 16 + 1 else s / 16
  let p := if full then 0 else s % 16
  let r := if (grp g k).length < 15 then insertAt g k p e
    else match nearestRoom g k with
      | none => (g, s)
      | some h =>
        if h > k then
          insertAt (((List.range (h - k)).map fun i => h - 1 - i).foldl passUp g) k p e
        else if p = 0 then
          let g := ((List.range (k - 1 - h)).map fun i => h + 1 + i).foldl passDown g
          insertAt g (k - 1) (grp g (k - 1)).length e
        else
          insertAt (((List.range (k - h)).map fun i => h + 1 + i).foldl passDown g) k (p - 1) e
  (ofGroups r.1, r.2)

/-- The removal of R311: the higher entries of the group move down. -/
def orderedRemove (m : AMap SieveEntry) (slot : Nat) : AMap SieveEntry :=
  let g := toGroups m
  ofGroups (g.put (slot / 16) ((grp g (slot / 16)).eraseIdx (slot % 16)))

/-- The lowest slot of a bank that holds no entry. -/
def lowestFree (m : AMap SieveEntry) : Nat := freeSlot m 0
where
  /-- The first gap from a number on in a table of rising numbers. -/
  freeSlot : AMap SieveEntry → Nat → Nat
    | [], n => n
    | (k, _) :: r, n => if k = n then freeSlot r (n + 1) else n

/-! ## Classification (R313, R314) and admission (R316, R317) -/

/-- Does the opcode's body carry an object ID? -/
def Packet.hasOid (p : Packet) : Bool :=
  p.opcode ∈ [0x40, 0x45, 0x47, 0x49] || (p.opcode == 0x44 && p.stream == 0) || (p.opcode == 0x48 && !bitOf p.aux 0)

/-- The space and object of the stream a packet names, if it is a write or read stream. -/
def State.streamNames (s : State) (fn h : Nat) : Option (Nat × Nat) :=
  match s.streamObject fn h with
  | .object sp oid :: _ => some (sp, oid)
  | _ => none

/-- The data bytes of a command's classification key. -/
def State.classData (s : State) (fn : Nat) (port : Port) (qid : Nat) (p : Packet) : List Byte :=
  let names := if p.stream = 0 then none else s.streamNames fn p.stream
  let b1 := match names with
    | some (sp, _) => sp
    | none => if p.stream ≠ 0 then 0 else p.container % 16 + (if p.opcode ∈ [0x20, 0x21, 0x23] then 16 else 0)
  let oid := match names with
    | some (_, o) => o
    | none => if p.hasOid then p.fld 24 16 else 0
  let lba := if p.opcode ∈ [0x20, 0x21, 0x23] then p.fld 24 8 else if p.opcode = 0x40 then p.fld 40 8 else 0
  leBytes 1 p.opcode ++ leBytes 1 b1 ++ leBytes 1 (qid + 64 * portNum port) ++ leBytes 1 p.aux ++ leBytes 16 oid ++
    leBytes 8 lba ++ zeros 10

/-- Classifies a key: the class, and the counters (R314). -/
def State.classify (s : State) (fn : Nat) (data : List Byte) : Nat × State :=
  let s := s.bump .svCnt 0
  match (s.bankOf 1).bind fun b => (s.bank b).winner (sieveKey data fn 1) with
  | some w => (w.2.result.toNat % 64, s)
  | none => (0, s.bump .svCnt 1)

/-- The key of a received frame (R316): bytes in wire order. -/
def frameKey (f : RxFrame) : BitVec 320 :=
  sieveKey (sliceB f.ip 8 32 ++ sliceB f.udp 2 2 ++ sliceB f.udp 0 2 ++ leBytes 1 f.eth.val ++ [f.bytes.getD 1 0]) 0 2

/-- Admits a frame: the member index it must claim (R317). -/
def State.admission (s : State) (f : RxFrame) : Option Nat :=
  match (s.bankOf 2).bind fun b => (s.bank b).winner (frameKey f) with
  | some w => if w.2.result.getLsbD 0 then some (bitsOf w.2.result.toNat 5 1) else none
  | none => none

end Sys2Proof.Machine
end

