-- ==== Sys2Proof/Machine/Wire.lean ====
section
/-! DEFINITION. Ethernet frames as they stand on the wire: the MAC, IPv6 and UDP headers in network byte order (00 R5;
12 R411). -/
namespace Sys2Proof.Machine

/-- The sum of the big-endian 16-bit words of a byte string, a last odd byte padded with zero: what the UDP checksum adds. -/
def sum16 : List Byte → Nat
  | [] => 0
  | [a] => 256 * a.toNat
  | a :: b :: r => 256 * a.toNat + b.toNat + sum16 r

/-- The sum that the UDP checksum covers: the pseudo-header (addresses, UDP length, Next Header 17), the UDP header and
its payload. A datagram is intact when it is a nonzero multiple of 65,535. -/
def udpSum (ip udp payload : List Byte) : Nat :=
  sum16 (ip.drop 8) + (8 + payload.length) + 17 + sum16 udp + sum16 payload

/-! ## Received frames -/

/-- The UDP destination port of a received frame. -/
def rxPort (f : RxFrame) : Nat := fieldBe f.udp 2 2

/-- The MAC checks of R411: the FCS, a length of at most 9,216 bytes with the FCS, and an IPv6 frame that is untagged, or
carries one tag with the VLAN ID where one is set. `vlan` is the VLAN setting (R436); with its bit 15 set the frame must be
tagged (DESIGN CHOICE, log entry 158). A MAC control frame has another EtherType. -/
def macFine (vlan : Nat) (f : RxFrame) : Bool :=
  f.fcsOk && decide (f.mac.length + f.ip.length + f.udp.length + f.bytes.length + 4 ≤ 9216) &&
    (if bitOf vlan 15 then
      f.mac.length == 18 && fieldBe f.mac 12 2 == 0x8100 && fieldBe f.mac 14 2 % 4096 == vlan % 4096 && fieldBe f.mac 16 2 == 0x86DD
    else f.mac.length == 14 && fieldBe f.mac 12 2 == 0x86DD)

/-- The IPv6 checks of R411: version 6 in a 40-byte header, Next Header 17 with nothing between, and the payload length of
what follows. Traffic class, flow label and Hop Limit are not checked. -/
def ipFine (f : RxFrame) : Bool :=
  f.ip.length == 40 && fieldBe f.ip 0 1 / 16 == 6 && fieldBe f.ip 4 2 == 8 + f.bytes.length && fieldBe f.ip 6 1 == 17

/-- The UDP checks of R411: the length, and the checksum, which is always there and always checked. -/
def udpFine (f : RxFrame) : Bool :=
  f.udp.length == 8 && fieldBe f.udp 4 2 == 8 + f.bytes.length && fieldBe f.udp 6 2 != 0 &&
    udpSum f.ip f.udp f.bytes % 65535 == 0

/-- The MAC, IPv6 and UDP checks (R411, R415 step 1). -/
def State.wireFine (s : State) (f : RxFrame) : Bool := macFine s.firon.selfCfg.vlan f && ipFine f && udpFine f

/-! ## Sent frames -/

/-- The UDP source port of a frame from one member to another (R411). -/
def sourcePort (src dst : Nat) : Nat := 49152 + (src * 32 + dst) % 16384

/-- The MAC header from a port of this device to the next hop. The port's own address and the priority bits of a tag are
not in the spec: free values (log entry 158). -/
def macHeader (eth vlan mac : Nat) : List Byte :=
  beBytes 6 mac ++ beBytes 6 (Config.ethAddress eth).toNat ++
    (if bitOf vlan 15 then beBytes 2 0x8100 ++ beBytes 2 (Config.vlanPriority.toNat * 4096 + vlan % 4096) else []) ++
    beBytes 2 0x86DD

/-- The IPv6 header of a UDP datagram: Hop Limit 64, the flow label that of the source port (R411). -/
def ipHeader (class' flow len : Nat) (src dst : BitVec 128) : List Byte :=
  beBytes 4 (6 * 2 ^ 28 + class' % 256 * 2 ^ 20 + flow % 2 ^ 20) ++ beBytes 2 len ++ beBytes 1 17 ++ beBytes 1 64 ++
    beBytes 16 src.toNat ++ beBytes 16 dst.toNat

/-- The UDP header with its checksum: what makes the sum a nonzero multiple of 65,535. -/
def udpHeader (sport dport : Nat) (ip payload : List Byte) : List Byte :=
  let h := beBytes 2 sport ++ beBytes 2 dport ++ beBytes 2 (8 + payload.length)
  h ++ beBytes 2 (65535 - udpSum ip h payload % 65535)

/-- The frame that carries a UDP payload to a peer from an Ethernet port (R411). -/
def State.etherFrame (s : State) (eth dst : Nat) (addr : BitVec 128) (mac : Nat) (payload : List Byte) : List Byte :=
  let g := s.firon.selfCfg
  let sport := sourcePort s.firon.member dst
  let ip := ipHeader g.trafficClass sport (8 + payload.length) (g.addrs.getD eth 0) addr
  macHeader eth g.vlan mac ++ ip ++ udpHeader sport g.udpPort ip payload ++ payload

end Sys2Proof.Machine
end

