-- ==== Sys2Proof/Machine/FironOps.lean ====
section
/-! DEFINITION. Firon Link and the Group (12): frames and their checks, reliable delivery, membership, placement of
shards, Group-coded commits, gathering and repair. -/
namespace Sys2Proof.Machine

/-- Changes the Firon part of the state. -/
def State.modFiron (s : State) (f : Firon → Firon) : State := { s with firon := f s.firon }

/-- A member index that is not configured (R421). -/
def Peer.init : Peer where
  st := 0
  vote := false
  late := false
  addr := 0
  macs := []
  nextEth := 0
  session := 0
  nextSeq := 1
  unacked := []
  waiting := []
  ackRcv := 0
  rcvd := []
  sinceAck := 0
  upMask := 0
  lostVote := 0

/-- A peer. -/
def State.peer (s : State) (p : Nat) : Peer := s.firon.peers.lookD p Peer.init

/-- Changes a peer. -/
def State.modPeer (s : State) (p : Nat) (f : Peer → Peer) : State :=
  s.modFiron fun x => { x with peers := x.peers.upd p Peer.init f }

/-- The configured peers, this device left out. -/
def State.members (s : State) : List Nat := (List.range 32).filter fun p => (s.peer p).st != 0

/-- D1, while it holds a key (R418). -/
def State.groupKey (s : State) : Option (List Byte) := (s.keys.device.look 1).map Key.key

/-- Does Firon Link run in the mode shown (R436)? A holder in Read-Only answers shards (R429), so it runs there too;
in Maintenance it sends only for ADOPT. -/
def State.linkRuns (s : State) : Bool :=
  s.groupKey.isSome && match s.modes.mode with
  | .service | .degraded | .thermal | .quiesce | .readOnly => s.firon.enabled
  | .maintenance => s.firon.adopting.isSome
  | _ => false

/-- May Group data be sent: not once this device has seen itself declared Lost (R423)? -/
def State.linkSends (s : State) (type : Nat) : Bool := s.linkRuns && (!s.firon.selfLost || decide (type < 0x10))

/-! ## Sending (R413, R416, R420) -/

/-- Is a frame type reliable (R414)? -/
def reliable (type : Nat) : Bool := decide (type ≥ 0x10)

/-- The 48-byte header of a frame to a peer. -/
def State.frameHeader (s : State) (dst type seq len : Nat) : List Byte :=
  leBytes 1 1 ++ leBytes 1 type ++ [0] ++ leBytes 1 s.firon.member ++ leBytes 1 dst ++ [0] ++ beBytes 2 len ++
  beBytes 4 s.firon.selfCfg.groupId ++ zeros 4 ++ beBytes 8 s.firon.session.toNat ++
  beBytes 8 (s.peer dst).session.toNat ++ beBytes 8 seq ++ beBytes 8 (s.peer dst).ackRcv

/-- The Ethernet ports that are up, in order. -/
def State.upPorts (s : State) : List Nat := (List.range 4).filter fun e => s.firon.links.lookD e false

/-- The port of the next frame to a peer: its ports that are up are taken round robin (R420). -/
def State.nextPort (s : State) (dst : Nat) : Option Nat := leastBy s.upPorts fun e => (e + 4 - (s.peer dst).nextEth) % 4

/-- Puts a frame to a peer on the wire of an Ethernet port, with its tag (R416) in its UDP, IPv6 and MAC headers (R411). -/
def State.emitOn (s : State) (eth dst type seq : Nat) (payload : List Byte) : State :=
  match s.groupKey with
  | some k =>
    if s.upPorts.contains eth && s.linkSends type then
      let b := s.frameHeader dst type seq payload.length ++ payload
      let p := s.peer dst
      (s.emit (.frame eth (s.etherFrame eth dst p.addr (p.macs.getD eth 0) (b ++ (hmacSha256 k b).take 16)))).bump .flCnt 0
    else s
  | none => s

/-- Sends a frame to a peer on the port whose turn it is, if a port is up. A frame is sent in the row that forms it, so none
is queued on a port whose link goes down (R412). -/
def State.emitFrame (s : State) (dst type seq : Nat) (payload : List Byte) : State :=
  match s.nextPort dst with
  | some e => (s.modPeer dst fun p => { p with nextEth := (e + 1) % 4 }).emitOn e dst type seq payload
  | none => s

/-- Sends a reliable message to a peer, or queues it behind 4,096 frames not acknowledged (R420). To a Lost or
absent member nothing is sent (R423). -/
def State.sendMsg (s : State) (dst type : Nat) (payload : List Byte) : State :=
  let p := s.peer dst
  if p.st = 0 ∨ p.st = 3 then s
  else if p.unacked.length ≥ 4096 then s.modPeer dst fun p => { p with waiting := p.waiting ++ [(type, payload)] }
  else
    let f : SentFrame := ⟨p.nextSeq, type, payload, 1⟩
    (s.modPeer dst fun p => { p with nextSeq := p.nextSeq + 1, unacked := p.unacked ++ [f] }).emitFrame dst type f.seq payload

/-- Sends what waited for a place among the frames not acknowledged. -/
def State.sendWaiting (s : State) (dst : Nat) : State :=
  let w := (s.peer dst).waiting
  w.foldl (fun s m => s.sendMsg dst m.1 m.2) (s.modPeer dst fun p => { p with waiting := [] })

/-- LATE (R420): a frame not acknowledged after RETRIES sends. -/
def State.setLate (s : State) (dst : Nat) : State :=
  let n := s.regBits .flCfg 0 23 20
  s.modPeer dst fun p => { p with late := p.unacked.any fun f => decide (f.sends ≥ n) }

/-- Sends a frame again under its SEQ (R420); at RETRIES sends it is late. -/
def State.resend (s : State) (dst seq : Nat) : State :=
  match (s.peer dst).unacked.find? fun f => f.seq == seq with
  | none => s
  | some f =>
    let s := s.modPeer dst fun p => { p with
      unacked := adjWhere p.unacked (fun x => x.seq == seq) fun x => { x with sends := x.sends + 1 } }
    let s := (s.emitFrame dst f.type f.seq f.payload).bump .flCnt 6
    if f.sends + 1 = s.regBits .flCfg 0 23 20 then
      ((s.setLate dst).bump .flCnt 12).record 0x0505 dst (leBytes 8 seq)
    else s

/-- Sends an ACK with the SACK bitmap of what was received beyond the cumulative number (R414, R420). -/
def State.sendAck (s : State) (dst : Nat) : State :=
  let p := s.peer dst
  let bits := p.rcvd.foldl (fun a q => if p.ackRcv < q ∧ q ≤ p.ackRcv + 512 then a ||| 2 ^ (q - p.ackRcv - 1) else a) 0
  (s.modPeer dst fun p => { p with sinceAck := 0 }).emitFrame dst 2 0 (beBytes 8 p.ackRcv ++ leBytes 64 bits ++ zeros 8)

/-- Frames up to a cumulative number are acknowledged. -/
def State.ackUpTo (s : State) (src n : Nat) : State :=
  if (s.peer src).unacked.any fun f => decide (f.seq ≤ n) then
    ((s.modPeer src fun p => { p with unacked := p.unacked.filter fun f => decide (n < f.seq) }).setLate src).sendWaiting src
  else s

/-! ## Receiving (R415 to R421) -/

/-- The fields of a received frame's header. -/
structure Rx where
  type : Nat
  flags : Nat
  src : Nat
  dst : Nat
  len : Nat
  group : Nat
  srcSession : Reg
  dstSession : Reg
  seq : Nat
  ack : Nat
  payload : List Byte
deriving DecidableEq, Repr

/-- The defined frame types. -/
def frameTypes : List Nat := [0x01, 0x02, 0x10, 0x11, 0x12, 0x13, 0x14, 0x15, 0x20, 0x21, 0x30, 0x31]

/-- The header of a frame. -/
def rxHeader (f : RxFrame) : Rx :=
  let b := f.bytes
  ⟨fieldBe b 1 1, fieldBe b 2 1, fieldBe b 3 1, fieldBe b 4 1, fieldBe b 6 2, fieldBe b 8 4,
    BitVec.ofNat 64 (fieldBe b 16 8), BitVec.ofNat 64 (fieldBe b 24 8), fieldBe b 32 8, fieldBe b 40 8,
    (b.drop 48).take (b.length - 64)⟩

/-- The outcome of the checks of R415: not Firon Link, the step that failed, or the header. -/
inductive RxResult where
  | notFiron
  | failed (step : Nat)
  | fine (h : Rx)
deriving DecidableEq, Repr

/-- Are the reserved fields of a version record at an offset zero (R428; 02 R51; 00 R8)? -/
def vrecOk (b : List Byte) (off : Nat) : Bool := zeroAt b (off + 96) 28 && zeroAt b (off + 148) 8

/-- The descriptor of a chunk in its ranges (R425). -/
def descOk (b : List Byte) : Bool :=
  decide (fieldLe b 32 1 < 32) && zeroAt b 33 3 && fieldLe b 36 4 == 8192 && zeroAt b 40 24

/-- The payload of a type: its length, its ranges and its reserved fields (R414, R425; 00 R8). -/
def payloadOk (type : Nat) (b : List Byte) : Bool :=
  let n := b.length
  if type = 0x01 then n == 16 && decide (fieldLe b 8 1 < 12) && zeroAt b 9 7
  else if type = 0x02 then n == 80 && zeroAt b 72 8
  else if type = 0x10 then descOk b && (if fieldLe b 32 1 = 0 then n == 8416 && vrecOk b 64 else n == 8256)
  else if type = 0x11 then n == 40 && zeroAt b 34 6
  else if type = 0x12 then n == 40 && decide (fieldLe b 32 1 + fieldLe b 33 1 ≤ 32) && zeroAt b 34 6
  else if type = 0x13 then n == 8256 && descOk b
  else if type = 0x14 ∨ type = 0x15 then n == 32
  else if type = 0x20 then n == 192 && vrecOk b 32
  else if type = 0x21 then n == 40 && decide (fieldLe b 32 1 < 32) && zeroAt b 33 7
  else if type = 0x30 then n == 40 && decide (fieldLe b 0 1 < 32) && zeroAt b 1 7
  else n == 40 + 160 * fieldLe b 0 2 && zeroAt b 2 6 && (List.range (fieldLe b 0 2)).all fun i => vrecOk b (8 + 160 * i)

/-- Header ranges (R413, R414). -/
def Rx.ranges (h : Rx) (b : List Byte) (member group : Nat) : Bool :=
  decide (b.length ≥ 64) && fieldBe b 0 1 == 1 && frameTypes.contains h.type && decide (h.flags < 2) &&
  decide (h.src < 32) && decide (h.dst < 32) && zeroAt b 5 1 && decide (h.len ≤ 9082) && h.len + 64 == b.length &&
  h.group != 0 && zeroAt b 12 4 && h.srcSession != 0 && (if reliable h.type then h.seq != 0 else h.seq == 0) &&
  payloadOk h.type h.payload && h.dst == member && h.group == group

/-- Does a frame's tag pass, under D1 or, in the overlap, under the previous key (R416, R417)? -/
def State.tagOk (s : State) (b : List Byte) : Bool :=
  let body := b.take (b.length - 16)
  let ok (k : List Byte) : Bool := (hmacSha256 k body).take 16 == b.drop (b.length - 16)
  match s.groupKey with
  | some k => ok k || s.keys.prevD1.any ok
  | none => false

/-- The checks of R415 in order. A frame from a Lost member is dropped after step 5 (R423). -/
def State.checkFrame (s : State) (f : RxFrame) : RxResult :=
  let h := rxHeader f
  if !s.wireFine f then .failed 1
  else if rxPort f ≠ s.firon.selfCfg.udpPort then .notFiron
  else match s.admission f with
    | none => .failed 2
    | some m =>
      if !h.ranges f.bytes s.firon.member s.firon.selfCfg.groupId then .failed 3
      else if h.src ≠ m then .failed 4
      else if !s.tagOk f.bytes then .failed 5
      else
        let p := s.peer h.src
        let toMe := h.dstSession == s.firon.session || (h.type == 1 && h.dstSession == 0)
        if p.st = 0 ∨ p.st = 3 then .failed 8
        else if !toMe || (h.type != 1 && h.srcSession != p.session) then .failed 6
        else if reliable h.type && (decide (h.seq ≤ p.ackRcv) || decide (h.seq > p.ackRcv + 4096) || p.rcvd.contains h.seq) then
          .failed 7
        else .fine h

/-- Counts a frame that is dropped (R415, FL_CNT; 09 R317); a duplicate is answered with an ACK (R420). -/
def State.dropFrame (s : State) (f : RxFrame) (r : RxResult) : State :=
  let admitted := (s.admission f).isSome
  match r with
  | .notFiron => s.bump .flCnt 11
  | .failed n =>
    let s := if n ≥ 3 then s.bump .svCnt 2 else if n = 2 ∧ !admitted then s.bump .svCnt 3 else s
    if n ≤ 4 then s.bump .flCnt 2
    else if n = 5 then s.bump .flCnt 3
    else if n = 6 then s.bump .flCnt 5
    else if n = 7 then (s.bump .flCnt 4).sendAck (rxHeader f).src
    else s
  | .fine _ => s

/-- The cumulative number after some numbers have been received. -/
def advanceAck (rcvd : List Nat) : Nat → Nat → Nat
  | 0, a => a
  | n + 1, a => if rcvd.contains (a + 1) then advanceAck rcvd n (a + 1) else a

/-- A valid frame from a member: it is Up, its loss vote clears, and its acknowledgement releases frames (R420 to
R422). -/
def State.heard (s : State) (h : Rx) : State :=
  ((s.bump .svCnt 2).modPeer h.src fun p => { p with st := if p.st = 2 then 1 else p.st, vote := false }).ackUpTo h.src h.ack

/-- A reliable frame is accepted: it is delivered once, and acknowledged after 8, or at once on ACK_NOW (R420). -/
def State.accept (s : State) (h : Rx) : State :=
  let s := (s.heard h).bump .flCnt 1
  let s := s.modPeer h.src fun p =>
    let r := h.seq :: p.rcvd
    let a := advanceAck r r.length p.ackRcv
    { p with ackRcv := a, rcvd := r.filter fun q => decide (a < q), sinceAck := p.sinceAck + 1 }
  if (s.peer h.src).sinceAck ≥ 8 ∨ bitOf h.flags 0 then s.sendAck h.src else s

/-- Does a frame wait: its lookup is due, and the admission bank is held (09 R329)? -/
def State.frameWaits (s : State) (f : RxFrame) : Bool :=
  s.wireFine f && rxPort f == s.firon.selfCfg.udpPort && s.anyHeld (s.bankOf 2).toList

/-- What a frame of a type does when it passes every check; otherwise the state is unchanged. While the link does not run, a
frame is looked up and counted as admitted (09 R316, R317), and goes no further. -/
def State.onFrame (s : State) (f : RxFrame) (type : Nat) (act : State → Rx → State) : State :=
  if s.frameWaits f || !s.awake then s
  else match s.checkFrame f with
    | .fine h =>
      if h.type ≠ type then s
      else if !s.linkRuns then s.bump .svCnt 2
      else act (if type = 1 then s else if reliable type then s.accept h else s.heard h) h
    | _ => s

/-! ## Keys, records and placement (R425 to R428, R434) -/

/-- A version key: the first 28 bytes of a shard key. -/
def versionKey (origin space tenant oid ver : Nat) : List Byte :=
  leBytes 1 origin ++ leBytes 1 space ++ leBytes 2 tenant ++ leBytes 16 oid ++ leBytes 8 ver

/-- A shard key (R425). -/
def shardKey (vk : List Byte) (stripe shard : Nat) : List Byte := vk ++ leBytes 3 stripe ++ leBytes 1 shard

/-- Stripe and shard of a key. -/
def keyStripe (k : List Byte) : Nat := fieldLe k 28 3
/-- The shard number of a key. -/
def keyShard (k : List Byte) : Nat := fieldLe k 31 1
/-- The origin of a key. -/
def keyOrigin (k : List Byte) : Nat := fieldLe k 0 1

/-- The key of a version of this origin. -/
def State.keyOf (s : State) (v : Version) : List Byte := versionKey s.firon.member v.space v.tenant v.oid v.version

/-- The Group extension of a version record (R428). -/
def GroupInfo.bytes (g : GroupInfo) : List Byte :=
  let b := leBytes 1 g.k ++ leBytes 1 g.m ++ leBytes 1 g.base ++ leBytes 1 g.origin ++ leBytes 4 g.mask.toNat ++
    leBytes 4 g.stripes ++ leBytes 8 g.gseq ++ zeros 8
  b ++ crcBytes b

/-- The extension in a version record. -/
def vrecInfo (b : List Byte) : GroupInfo :=
  ⟨fieldLe b 128 1, fieldLe b 129 1, fieldLe b 130 1, fieldLe b 131 1, BitVec.ofNat 32 (fieldLe b 132 4),
    fieldLe b 136 4, fieldLe b 140 8⟩

/-- A version record: the commit record and the extension. -/
def Commit.vrec (c : Commit) (root : Nat) (g : GroupInfo) : List Byte := c.record root ++ g.bytes

/-- The version a version record describes, with no content here (R435). -/
def vrecVersion (b : List Byte) : Version where
  tenant := fieldLe b 2 2
  space := fieldLe b 4 1
  oid := fieldLe b 8 16
  version := fieldLe b 24 8
  live := fieldLe b 0 2 != 2
  log := bitOf (fieldLe b 7 1) 0
  length := fieldLe b 32 8
  segStart := fieldLe b 40 8
  alg := fieldLe b 5 1
  digest := sliceB b 64 32
  parts := []
  trimmed := []
  pclass := fieldLe b 6 1
  seq := fieldLe b 48 8
  group := some (vrecInfo b)

/-- The members of a mask, ascending. -/
def maskMembers (m : BitVec 32) : List Nat := (List.range 32).filter fun i => m.getLsbD i

/-- MASK (R427): the configured members that are not Lost, this device included. -/
def State.groupMask (s : State) : BitVec 32 :=
  (s.members.filter fun p => (s.peer p).st != 3).foldl (fun m p => m ||| (1#32 <<< p)) (1#32 <<< s.firon.member)

/-- The holder of a shard by R427. -/
def GroupInfo.holder (g : GroupInfo) (stripe shard : Nat) : Nat :=
  let m := maskMembers g.mask
  m.getD ((g.base + stripe + shard) % max m.length 1) 0

/-- The holder in force: that of the newest override for the shard, or R427's (R434). -/
def State.holderOf (s : State) (g : GroupInfo) (key : List Byte) : Nat :=
  match (s.firon.overrides.filter fun o => o.key == key).getLast? with
  | some o => o.holder
  | none => g.holder (keyStripe key) (keyShard key)

/-- The keys of a stripe's shards. -/
def stripeKeys (g : GroupInfo) (key : List Byte) : List (List Byte) :=
  (List.range (g.k + g.m)).map fun i => shardKey (key.take 28) (keyStripe key) i

/-- A shard this device holds. -/
def State.shard? (s : State) (key : List Byte) : Option Shard := s.firon.shards.find? fun x => x.key == key

/-- Changes a shard. -/
def State.modShard (s : State) (key : List Byte) (f : Shard → Shard) : State :=
  s.modFiron fun x => { x with shards := adjWhere x.shards (fun y => y.key == key) f }

/-- The bytes of a shard whose chunks are all here. -/
def chunkBytes (c : AMap (List Byte)) : List Byte := (List.range 32).flatMap fun i => c.lookD i (zeros 8192)

/-- The chunks of a shard's bytes. -/
def chunkMap (b : List Byte) : AMap (List Byte) :=
  (List.range 32).map fun i => (i, sliceB b (8192 * i) 8192)

/-- The descriptor of a chunk (R425). -/
def chunkDesc (key : List Byte) (i : Nat) : List Byte := key ++ leBytes 1 i ++ zeros 3 ++ leBytes 4 8192 ++ zeros 24

/-- The content of a stripe's K data shards: ciphertext under the tenant key, zeros beyond the end (R426). -/
def stripeData (v : Version) (g : GroupInfo) (key : List Byte) (t : Nat) : List (List Byte) :=
  let u := 262144
  (List.range g.k).map fun i =>
    (List.range 64).flatMap fun j =>
      let blk := ((t * g.k + i) * u) / 4096 + j
      if blk * 4096 < v.length then
        xts false key (leBytes 8 g.gseq ++ leBytes 8 blk) (padTo (extentBytes v.parts (blk * 4096) (min v.length (blk * 4096 + 4096))) 4096)
      else zeros 4096

/-! ## Shards on flash (R428, R429) -/

/-- Sends STATUS for a shard to its origin (R429 step 3). -/
def State.shardStatus (s : State) (key : List Byte) (st : Nat) : State :=
  s.sendMsg (keyOrigin key) 0x11 (key ++ leBytes 2 st ++ zeros 6)

/-- Drops a shard that cannot be kept, telling its origin why. -/
def State.refuseShard (s : State) (x : Shard) (st : Nat) : State :=
  let s := s.modFiron fun f => { f with shards := f.shards.filter fun y => y.key != x.key }
  if x.after = .tellOrigin then s.shardStatus x.key st else s

/-- Places a whole shard: 64 raw sectors of object data under D3 (R428), with internal parity for PARITY 3. -/
def State.placeShard (s : State) (key : List Byte) : State :=
  match s.shard? key with
  | none => s
  | some x =>
    if x.placed ∨ x.chunks.length < 32 ∨ x.vrec = [] then s
    else if x.after = .tellOrigin ∧ s.readOnlyOn then s.refuseShard x 0x0601
    else match s.spaceFor 262144 with
      | some st => s.refuseShard x st.code
      | none =>
        let cls := fieldLe x.vrec 6 1
        let sq := s.takeSeq
        let b := chunkBytes x.chunks
        let hi := fieldLe (sha256 key) 0 16
        let ng := sq.2.newGroup
        let secs := (List.range 64).map fun i =>
          (({ deviceHeader 2 sq.1 i with pclass := cls, logicalHi := hi } : Header), sliceB b (4096 * i) 4096)
        let g : Group := ⟨ng.1, .shard key, secs, [], 0, [], s.classQos cls⟩
        match ng.2.placeGroup (keyStripe key % 4) .host (s.classParity cls == 3) g with
        | none => s.refuseShard x Status.writeFailed.code
        | some t => t.modShard key fun y => { y with placed := true }

/-- Holds a shard of which all bytes are known, and places it. -/
def State.holdShard (s : State) (key bytes vrec : List Byte) (after : ShardAfter) : State :=
  let x : Shard := ⟨key, chunkMap bytes, vrec, false, false, [], after⟩
  (s.modFiron fun f => { f with shards := (f.shards.filter fun y => y.key != key) ++ [x] }).placeShard key

/-- Sends a shard to its holder in 32 SHARD_PUT chunks; chunk 0 carries the version record (R429 step 2). -/
def State.sendShard (s : State) (key bytes vrec : List Byte) (dst : Nat) : State :=
  (List.range 32).foldl (fun s i =>
    s.sendMsg dst 0x10 (chunkDesc key i ++ (if i = 0 then vrec else []) ++ sliceB bytes (8192 * i) 8192)) s

/-! ## Group-coded commits (R427, R429) -/

/-- BASE for an object in a group of N members (R427). -/
def State.groupBase (s : State) (v : Version) (n : Nat) : Nat :=
  let m := [0x56#8, 0x4B#8, 0x47#8, 0x50#8] ++ leBytes 4 s.firon.selfCfg.groupId ++ leBytes 2 v.tenant ++
    leBytes 1 v.space ++ [0] ++ leBytes 16 v.oid
  fieldLe (sha256 m) 0 8 % max n 1

/-- K and M of a class (SV_PCLASS). -/
def State.classKM (s : State) (c : Nat) : Nat × Nat := (bitsOf (s.pclass c) 14 10, bitsOf (s.pclass c) 18 16)

/-- Steps 1 and 2 of R429 for a commit: its placement is fixed, its stripes are coded, and its shards go out. -/
def State.shipCommit (s : State) (c : Commit) : State :=
  let km := s.classKM c.ver.pclass
  let mask := s.groupMask
  let n := (maskMembers mask).length
  if n < km.1 + km.2 then (s.bump .flCnt 9).commitFail c .groupQuorum
  else match s.tenantKey c.ver.tenant (s.classKey c.ver.pclass) 0 with
    | none => s.commitFail c .notPermitted
    | some key =>
      let sq := s.takeSeq
      let stripes := (c.ver.length + km.1 * 262144 - 1) / (km.1 * 262144)
      let g : GroupInfo := ⟨km.1, km.2, s.groupBase c.ver n, s.firon.member, mask, stripes, sq.1⟩
      let c := { c with ver := { c.ver with group := some g } }
      let vk := s.keyOf c.ver
      let vrec := c.vrec s.free.toNat g
      let keys := (List.range stripes).flatMap fun t => (List.range (g.k + g.m)).map fun i => shardKey vk t i
      let s := sq.2.tick.modCommit c.id fun _ => c
      let s := s.modFiron fun f => { f with pendingShards := f.pendingShards ++ keys, shipped := f.shipped ++ [(vk, g)] }
      (List.range stripes).foldl (fun s t =>
        let ds := stripeData c.ver g key t
        (List.range (g.k + g.m)).foldl (fun s i =>
          let k := shardKey vk t i
          let b := shardOf g.k i ds
          if g.holder t i = s.firon.member then s.holdShard k b vrec .nothing else s.sendShard k b vrec (g.holder t i)) s) s

/-- Shards of a stripe of a version that are durable. -/
def State.stripeDurable (s : State) (g : GroupInfo) (vk : List Byte) (t : Nat) : Nat :=
  ((List.range (g.k + g.m)).filter fun i => !s.firon.pendingShards.contains (shardKey vk t i)).length

/-- Is every stripe at its quorum (R429 step 4)? -/
def State.atQuorum (s : State) (g : GroupInfo) (vk : List Byte) : Bool :=
  (List.range g.stripes).all fun t => decide (s.stripeDurable g vk t ≥ g.k + min g.m (s.regBits .flCfg 0 18 16))

/-- Is every shard durable? -/
def State.allDurable (s : State) (g : GroupInfo) (vk : List Byte) : Bool :=
  (List.range g.stripes).all fun t => decide (s.stripeDurable g vk t = g.k + g.m)

/-- The releases that a version calls for: one for each member that holds a shard of it (R430). -/
def State.releasesOf (s : State) (vk : List Byte) (g : GroupInfo) : List (Nat × List Byte) :=
  let holders := ((List.range g.stripes).flatMap fun t => (List.range (g.k + g.m)).map fun i =>
    s.holderOf g (shardKey vk t i)).eraseDups
  (holders.filter fun h => h != s.firon.member).map fun h => (h, shardKey vk 0xFFFFFF 0xFF)

/-- Releases a version's shards everywhere (R430): the release is recorded, sent, and kept until it is answered. -/
def State.releaseShards (s : State) (vk : List Byte) (g : GroupInfo) : State :=
  let due := s.releasesOf vk g
  let s := s.modFiron fun f => { f with
    shards := f.shards.filter fun x => x.key.take 28 != vk
    pendingShards := f.pendingShards.filter fun x => x.take 28 != vk
    shipped := f.shipped.filter fun x => x.1 != vk
    releases := f.releases ++ due }
  due.foldl (fun s r => s.sendMsg r.1 0x14 r.2) s

/-- Gives back the landing copies whose shards are all durable (R430). -/
def State.dropLanding (s : State) : State :=
  { s with versions := s.versions.map fun v => match v.group with
      | some g => if s.allDurable g (s.keyOf v) then { v with parts := v.parts.map fun e => { e with sectors := [] } } else v
      | none => v }

/-- The Group work that a change of commits or versions calls for: commits waiting to be coded are shipped, one
whose shards are all durable goes on to its commit page, versions that are gone are released, and landing copies
that are no longer needed go (R429, R430). -/
def State.pumpGroup (s : State) : State :=
  let s := (s.commits.filter fun c => decide (c.phase = .shards) && c.ver.group.isNone).foldl State.shipCommit s
  let s := (s.commits.filter fun c => decide (c.phase = .shards)).foldl (fun s c => match c.ver.group with
    | some g => if s.allDurable g (s.keyOf c.ver) then s.modCommit c.id fun c => { c with phase := .waiting } else s
    | none => s) s
  let live := (s.versions.map fun v => s.keyOf v) ++ (s.commits.map fun c => s.keyOf c.ver)
  ((s.firon.shipped.filter fun x => !live.contains x.1).foldl (fun s x => s.releaseShards x.1 x.2) s).dropLanding

/-! ## Gathering (R431, R433) -/

/-- A gather of a number. -/
def State.gather? (s : State) (id : Nat) : Option Gather := s.firon.gathers.find? fun g => g.id == id

/-- Changes a gather. -/
def State.modGather (s : State) (id : Nat) (f : Gather → Gather) : State :=
  s.modFiron fun x => { x with gathers := adjWhere x.gathers (fun g => g.id == id) f }

/-- Ends a gather. -/
def State.dropGather (s : State) (id : Nat) : State :=
  s.modFiron fun x => { x with gathers := x.gathers.filter fun g => g.id != id }

/-- Do the units of a shard's sectors leave it readable (10 R364)? -/
def State.shardReadable (s : State) (x : Shard) : Bool :=
  x.sectors.all fun i => match s.sector? i with
    | some y => s.recoverable y
    | none => true

/-- Asks for one shard of a gather: from this device's own store, or with SHARD_GET. A member that is not Up, or is
late, is not asked (R420, R431). -/
def State.askShard (s : State) (id shard : Nat) : State :=
  match s.gather? id with
  | none => s
  | some g =>
    let key := shardKey (g.key.take 28) (keyStripe g.key) shard
    let h := s.holderOf g.info key
    if g.asked.contains shard then s
    else if h = s.firon.member then match s.shard? key with
      | some x =>
        if x.durable && s.shardReadable x then
          s.modGather id fun g => { g with asked := g.asked ++ [shard], got := g.got.put shard x.chunks }
        else s
      | none => s
    else if (s.peer h).st = 1 ∧ !(s.peer h).late then
      (s.modGather id fun g => { g with asked := g.asked ++ [shard] }).sendMsg h 0x12 (key ++ [0, 32] ++ zeros 6)
    else s

/-- Shards of a gather that are complete. -/
def Gather.whole (g : Gather) : List (Nat × List Byte) :=
  (g.got.filter fun x => decide (x.2.length ≥ 32)).map fun x => (x.1, chunkBytes x.2)

/-- Asks for further shards of a stripe until `n` have been asked for, lowest first. -/
def State.askMore (s : State) (id n : Nat) : State :=
  match s.gather? id with
  | none => s
  | some g => (List.range (g.info.k + g.info.m)).foldl (fun s i => match s.gather? id with
    | some g => if g.asked.length < n then s.askShard id i else s
    | none => s) s

/-- The data shards of a stripe that a byte range of it touches. -/
def neededShards (lo hi : Nat) : List Nat :=
  if hi ≤ lo then [] else (List.range ((hi - 1) / 262144 + 1 - lo / 262144)).map fun i => lo / 262144 + i

/-- Begins a gather: the shards needed are asked for, and where one of their holders cannot be asked, further ones up
to K (R431). A repair asks for any K (R433). -/
def State.beginGather (s : State) (o : GatherFor) (key vrec : List Byte) (g : GroupInfo) (lo hi : Nat) : State :=
  let id := s.firon.nextGather
  let need := neededShards lo hi
  let x : Gather := ⟨id, o, key, vrec, g, need, [], [], lo, hi⟩
  let s := s.modFiron fun f => { f with nextGather := id + 1, gathers := f.gathers ++ [x] }
  let s := need.foldl (fun s i => s.askShard id i) s
  match s.gather? id with
  | some y => if need.isEmpty ∨ y.asked.length < need.length then s.askMore id g.k else s
  | none => s

/-- Can a gather be decoded: its needed shards are here, or K of any? -/
def Gather.enough (g : Gather) : Bool :=
  let w := g.whole
  (!g.need.isEmpty && g.need.all fun i => w.any fun x => x.1 == i) || decide (w.length ≥ g.info.k)

/-- The data shards of a gather that can be decoded; those not needed may be missing. -/
def Gather.data (g : Gather) : List (List Byte) :=
  let w := g.whole
  if !g.need.isEmpty && g.need.all fun i => w.any fun x => x.1 == i then
    (List.range g.info.k).map fun i => match w.find? fun x => x.1 == i with
      | some x => x.2
      | none => zeros 262144
  else recoverData g.info.k w

/-- The plaintext of the byte range of a read's stripe (R426). -/
def Gather.plain (g : Gather) (key : List Byte) : List Byte :=
  let ct := g.data.flatten
  let first := g.lo / 4096
  let n := (g.hi + 4095) / 4096 - first
  let pt := (List.range n).flatMap fun j =>
    let blk := keyStripe g.key * g.info.k * 64 + first + j
    xts true key (leBytes 8 g.info.gseq ++ leBytes 8 blk) (sliceB ct (4096 * (first + j)) 4096)
  (pt.drop (g.lo - 4096 * first)).take (g.hi - g.lo)

/-! ## Membership and repair (R421 to R423, R433) -/

/-- The members that vote a member lost: this device's vote and the last heartbeat of each other member. -/
def State.lossVotes (s : State) (p : Nat) : Nat :=
  b2n (s.peer p).vote + (s.members.filter fun q => q != p && (s.peer q).lostVote.getLsbD p).length

/-- The members that vote this device lost. -/
def State.selfVotes (s : State) : Nat := (s.members.filter fun q => (s.peer q).lostVote.getLsbD s.firon.member).length

/-- Do some votes declare a member Lost: more than half of the configured members, this device included (R423)? -/
def State.majority (s : State) (votes : Nat) : Bool := decide (2 * votes > s.members.length + 1)

/-- The surviving holder of the lowest-numbered surviving shard of a stripe: the lead (R433). -/
def State.leadOf (s : State) (g : GroupInfo) (key : List Byte) : Option Nat :=
  (((stripeKeys g key).filter fun k => k != key).map fun k => s.holderOf g k).find? fun h =>
    h == s.firon.member || ((s.peer h).st != 0 && (s.peer h).st != 3)

/-- The substitute for a missing shard (R433). -/
def State.substitute (s : State) (g : GroupInfo) (key : List Byte) : Option Nat :=
  let m := maskMembers g.mask
  let n := m.length
  let holders := (stripeKeys g key).filter (fun k => k != key) |>.map fun k => s.holderOf g k
  let cands := (List.range n).map fun i => m.getD ((g.base + keyStripe key + keyShard key + 1 + i) % max n 1) 0
  cands.find? fun h => (h == s.firon.member || ((s.peer h).st != 0 && (s.peer h).st != 3)) && !holders.contains h &&
    !(s.firon.overrides.any fun o => o.key.take 31 == key.take 31 && o.holder == h)

/-- A shard awaits repair (FL_REPAIR). -/
def State.awaitRepair (s : State) (key : List Byte) : State :=
  if s.firon.repairs.contains key then s else s.modFiron fun f => { f with repairs := f.repairs ++ [key] }

/-- Begins the repair of a missing shard on this device: it fetches any K shards of the stripe. -/
def State.startRepair (s : State) (key vrec : List Byte) (lead : Nat) : State :=
  if s.firon.gathers.any fun g => g.owner == .repair lead && g.key == key then s
  else (s.awaitRepair key).beginGather (.repair lead) key vrec (vrecInfo vrec) 0 0

/-- An override is recorded (R434): the shard awaits repair no more, and a copy held here goes where another member
is its holder. -/
def State.override (s : State) (key : List Byte) (holder : Nat) : State :=
  s.modFiron fun x => { x with
    overrides := x.overrides ++ [(⟨key, holder⟩ : Override)]
    repairs := x.repairs.filter (· != key)
    pendingShards := x.pendingShards.filter (· != key)
    shards := if holder = x.member then x.shards else x.shards.filter fun y => y.key != key }

/-- Sends a missing shard to its substitute; with none the shard waits. -/
def State.sendRepair (s : State) (key vrec : List Byte) : State :=
  match s.substitute (vrecInfo vrec) key with
  | some h => if h = s.firon.member then s.startRepair key vrec h else s.sendMsg h 0x20 (key ++ vrec)
  | none => s

/-- As lead, sends a missing shard to its substitute. -/
def State.requestRepair (s : State) (key vrec : List Byte) : State :=
  if s.leadOf (vrecInfo vrec) key = some s.firon.member then s.sendRepair key vrec else s

/-- Finds the stripes of which this device holds a shard and a lost member held one, and starts their repair (R433). -/
def State.repairFor (s : State) (p : Nat) : State :=
  let mine := s.firon.shards.filter fun x => x.durable && x.vrec != []
  let lost := (mine.flatMap fun x =>
    ((stripeKeys (vrecInfo x.vrec) x.key).filter fun k => s.holderOf (vrecInfo x.vrec) k == p).map fun k => (k, x.vrec))
  let lost := lost.foldl (fun l x => if l.any (fun y => y.1 == x.1) || s.firon.repairs.contains x.1 then l else l ++ [x])
    ([] : List (List Byte × List Byte))
  lost.foldl (fun s x => (s.awaitRepair x.1).requestRepair x.1 x.2) s

/-- Shards that await repair are asked for again, where this device is their lead: a substitute may have gone, or there may
be one now (R433; log 162). -/
def State.retryRepairs (s : State) : State :=
  s.firon.repairs.foldl (fun s k => match s.firon.shards.find? fun x => x.durable && x.vrec != [] && x.key.take 31 == k.take 31 with
    | some x => s.requestRepair k x.vrec
    | none => s) s

/-- Declares a member Lost (R423): no frame goes to it any more, and repair of its stripes starts. -/
def State.declareLost (s : State) (p : Nat) : State :=
  let votes := s.lossVotes p
  let s := s.modPeer p fun x => { x with st := 3, unacked := [], waiting := [], late := false }
  let s := s.modFiron fun f => { f with
    releases := f.releases.filter (fun r => r.1 != p), vrecFrom := f.vrecFrom.filter (· != p) }
  ((s.record 0x0503 p [BitVec.ofNat 8 votes]).repairFor p).retryRepairs.settle

/-- Counts the votes again: members that a majority votes lost are declared Lost, and this device sees its own
declaration (R423). -/
def State.countVotes (s : State) : State :=
  let s := (s.members.filter fun p => (s.peer p).st != 3 && s.majority (s.lossVotes p)).foldl State.declareLost s
  if s.majority s.selfVotes && !s.firon.selfLost then
    (s.modFiron fun f => { f with selfLost := true }).record 0x0504 s.firon.member []
  else s

end Sys2Proof.Machine
end

