-- ==== Sys2Proof/Machine/ReadOps.lean ====
section
/-! DEFINITION. Reads of flash and of shards, for commands and for slices: their ladder (10 R359), what they are put
together to (03 R93; 02 R53), and gathers that end (12 R431, R433). -/
namespace Sys2Proof.Machine

/-! ## Places of a sector -/

/-- The channel of a slot's card channel, 0 to 191 (01 R14). -/
def chanNo (slot chan : Nat) : Nat := slot * 8 + chan

/-- The channel number of a sector. -/
def State.chanOf (s : State) (x : Sector) : Nat :=
  match s.memberOf x with
  | some m => chanNo m.slot m.chan
  | none => chanNo x.slot 0

/-- A media address (10 R346). -/
def mediaAddr (sector page block die chan kib : Nat) : Nat :=
  2 ^ 63 + kib * 2 ^ 46 + chan * 2 ^ 38 + die * 2 ^ 33 + block * 2 ^ 17 + page * 8 + sector

/-- The media address of a place in a member's program unit: sectors run through the page, then the planes, then the
pages of the wordline. -/
def CardInfo.unitAddr (g : CardInfo) (m : Member) (row pos kib : Nat) : Nat :=
  let per := max (g.pageBytes / 4096) 1
  let i := pos / per
  mediaAddr (pos % per) (row * g.bitsPerCell + i / max g.planes 1) (m.block + i % max g.planes 1) m.die (chanNo m.slot m.chan) kib

/-- The media address of a sector. -/
def State.addrOf (s : State) (x : Sector) : Nat :=
  match s.memberOf x, s.geom with
  | some m, some g => g.unitAddr m x.row x.pos 0
  | _, _ => 0

/-! ## The ladder (R359) -/

/-- The read-level setting at a step: the die's current one, the later ones, the default levels, the earlier ones. -/
def ladderSetting (base rr step : Nat) : Nat :=
  let l := base :: ((List.range rr).map (· + 1)).filter (fun k => decide (base < k)) ++
    (if base = 0 then [] else [0]) ++ ((List.range rr).map (· + 1)).filter fun k => decide (k < base)
  l.getD step 0

/-- The QOS of a read: that of its command's class, of the class of the job a slice belongs to, or of garbage collection
(R335). -/
def State.readQos (s : State) (o : ReadFor) : Nat :=
  match o with
  | .cmd tag _ => ((s.cmd? tag).map Cmd.qos).getD 0
  | .slice buf => (((s.buf? buf).bind fun b => s.job? b.entry.job).map fun j => s.classQos j.pclass).getD 0
  | .copy set => if (s.set? set).any StripeSet.urgent then 7 else s.gcQos

/-- Begins the read of a sector; where its unit is lost the rebuild from parity starts at once. -/
def State.beginRead (s : State) (o : ReadFor) (sec : Nat) : State :=
  match s.sector? sec with
  | none => s
  | some x =>
    let lost := s.unitLost x
    let r : FlashRead := ⟨s.flash.nextRead, o, sec, if lost then softStep (s.retrySteps x.slot) + 1 else 0, lost,
      (s.die (s.dieOf x)).retry, s.readQos o⟩
    s.modFlash fun f => { f with nextRead := f.nextRead + 1, reads := f.reads ++ [r] }

/-- Begins the reads of several sectors; the channels serve what they can. -/
def State.beginReads (s : State) (o : ReadFor) (l : List Nat) : State :=
  (l.eraseDups.foldl (fun s i => s.beginRead o i) s).serve

/-- Removes a read. -/
def State.dropRead (s : State) (id : Nat) : State :=
  s.modFlash fun f => { f with reads := f.reads.filter fun r => r.id != id }

/-! ## Pieces of an object -/

/-- A byte range cut at multiples of `n`. -/
def cutRange (n lo hi : Nat) : List (Nat × Nat) :=
  if hi ≤ lo then [] else (List.range ((hi - 1) / n + 1 - lo / n)).map fun i =>
    (max lo ((lo / n + i) * n), min hi ((lo / n + i + 1) * n))

/-- The sectors that hold a byte range of a version; none for extents that a trim has released. -/
def Version.sectorsAt (v : Version) (lo hi : Nat) : List Nat :=
  ((v.parts.filter fun e => decide (e.off < hi) && decide (lo < e.off + e.data.length)).flatMap Extent.sectors).eraseDups

/-- Bytes of a version from an offset on: those of trimmed ranges are each zero or the content, freely (02 R57). -/
def State.maskTrim (s : State) (v : Version) (lo : Nat) (b : List Byte) : List Byte :=
  if v.trimmed.isEmpty then b
  else (List.range b.length).map fun i =>
    let p := lo + i
    if (v.trimmed.any fun t => decide (t.1 ≤ p) && decide (p < t.2)) && (Config.freeByte s.fresh p).getLsbD 0 then 0#8
    else b.getD i 0

/-- The bytes of a range of a version as stored. -/
def State.versionBytes (s : State) (v : Version) (lo hi : Nat) : List Byte := s.maskTrim v lo (extentBytes v.parts lo hi)

/-- The version of this origin that a key names: visible, in commit, or pinned by a job. -/
def State.versionOfKey (s : State) (vk : List Byte) : Option Version :=
  (s.versions ++ s.commits.map Commit.ver ++ s.jobs.flatMap fun j => j.desc.inputs.filterMap JobInput.pin).find? fun v =>
    s.keyOf v == vk

/-- The record that stands for a version of this origin in a read's gather: its tenant and class. -/
def Version.stub (v : Version) : List Byte := (⟨0, .cmd 0, 0, none, .durable, v, false⟩ : Commit).record 0

/-- The tenant key slots that a version's content needs: those of its sectors' headers, or of its class for a
Group-coded one (08 R294, R295). -/
def State.keyedFor (s : State) (tenant : Nat) (secs : List Nat) : Bool :=
  secs.all fun i => match s.sector? i with
    | some x => (s.tenantKey tenant (b2n x.header.keySel) 0).isSome
    | none => true

/-- May a range of a version be read: its keys are loaded? -/
def State.versionKeyed (s : State) (v : Version) (lo hi : Nat) : Bool :=
  match v.group with
  | some _ => hi ≤ lo || (s.tenantKey v.tenant (s.classKey v.pclass) 0).isSome
  | none => s.keyedFor v.tenant (v.sectorsAt lo hi)

/-! ## Coded blocks (01 R18, R19) -/

/-- Do coded buckets start in a sector (10 R347)? -/
def State.codedSector (s : State) (i : Nat) : Bool := (s.sector? i).any fun x => x.header.layout != 0

/-- The Loaf nearest the channel of a sector (01 R14). -/
def State.nearLoaf (s : State) (i : Nat) : Nat := ((s.sector? i).map fun x => s.chanOf x / 3).getD 0

/-- The coded piece that some blocks make, each given by its sectors; none where no block of them is coded. -/
def State.codedPiece (s : State) (idx : Nat) (blocks : List (List Nat)) : Option CodedPiece :=
  let l := blocks.filter fun b => b.head?.any s.codedSector
  (l.head?.bind List.head?).map fun i => ⟨idx, s.nearLoaf i, l, []⟩

/-- The sectors of each block that holds bytes of a range of a version. -/
def Version.blocksAt (v : Version) (lo hi : Nat) : List (List Nat) :=
  (v.parts.filter fun e => decide (e.off < hi) && decide (lo < e.off + e.data.length)).map Extent.sectors

/-- The decompress job of a piece goes to the Loaf nearest its channel: STREAM for a command, SLOT for a slice (07 R258,
R262). -/
def State.submitPiece (s : State) (o : RollerOwner) (tenant : Nat) (p : CodedPiece) : State :=
  s.submitRoller p.loaf o 2 0 (match o with
    | .slice _ => 0
    | _ => 2) tenant p.blocks.length []

/-- Begins the rebuild of a sector from parity alone. -/
def State.beginRebuild (s : State) (o : ReadFor) (sec : Nat) : State :=
  match s.sector? sec with
  | none => s
  | some x => s.modFlash fun f => { f with nextRead := f.nextRead + 1, reads := f.reads ++
      [(⟨f.nextRead, o, sec, softStep (s.retrySteps x.slot) + 1, true, (s.die (s.dieOf x)).retry, s.readQos o⟩ : FlashRead)] }

/-- Begins the rebuilds of a block's sectors. -/
def State.beginRebuilds (s : State) (o : ReadFor) (l : List Nat) : State :=
  (l.eraseDups.foldl (fun s i => s.beginRebuild o i) s).serve

/-! ## Commands that read -/

/-- Removes what a command still reads. -/
def State.dropReads (s : State) (tag : Nat) : State :=
  let s := s.modFlash fun f => { f with reads := f.reads.filter fun r => match r.owner with
    | .cmd t _ => t != tag
    | _ => true }
  s.modFiron fun f => { f with gathers := f.gathers.filter fun g => match g.owner with
    | .cmd t _ => t != tag
    | _ => true }

/-- Does a command still read? -/
def State.reading (s : State) (tag : Nat) : Bool :=
  (s.flash.reads.any fun r => match r.owner with
    | .cmd t _ => t == tag
    | _ => false) ||
  s.firon.gathers.any fun g => match g.owner with
    | .cmd t _ => t == tag
    | _ => false

/-- The pieces of a read from the first, up to one that is missing: the bytes, and whether all are here. -/
def Cmd.pieces (c : Cmd) : List Byte × Bool :=
  (List.range c.ref).foldl (fun (a : List Byte × Bool) i =>
    if !a.2 then a
    else match c.got.look i with
      | some b => (a.1 ++ b, true)
      | none => (a.1, false)) ([], true)

/-- Ends a read command once nothing of it is outstanding or still to be decoded: the bytes before the first sector that could not be
recovered are delivered (03 R94). -/
def State.finishRead (s : State) (tag : Nat) : State :=
  match s.cmd? tag with
  | none => s
  | some c =>
    if !c.launched || s.reading tag || !c.coded.isEmpty || (c.pkt.opcode != 0x20 && c.pkt.opcode != 0x44) then s
    else
      let p := c.pieces
      let s := s.modFlash fun f => { f with health := { f.health with hostRead := f.health.hostRead + p.1.length } }
      if p.2 then s.deliver c p.1 p.1.length c.results.1 c.results.2
      else if !p.1.isEmpty && !s.usable c.port c.fn then s.fail c .hostDmaError
      else (if c.doomed then s else s.writeBuf c 0 p.1).complete c .unrecoveredRead p.1.length 0 0

/-- A block of a piece could not be recovered: the piece is missing. -/
def State.missPiece (s : State) (tag idx : Nat) : State :=
  s.modCmd tag fun c => { c with got := c.got.del idx, coded := c.coded.filter fun p => p.idx != idx }

/-- The sectors of a piece of a command are all here: what is coded of it goes to a decompressor. -/
def State.pieceRead (s : State) (tag idx : Nat) : State :=
  if s.flash.reads.any fun r => r.owner == .cmd tag idx then s
  else match (s.cmd? tag).bind fun c => (c.coded.find? fun p => p.idx == idx).map fun p => (c.fn, p) with
    | some x => s.submitPiece (.read tag idx) x.1 x.2
    | none => s

/-! ## Slices that are loaded -/

/-- A part of a slice's data has arrived: with the last one, what is coded of it goes to the decompressor of its Loaf (01
R19). -/
def State.sliceArrived (s : State) (buf : Nat) : State :=
  let s := { s with bufs := adjWhere s.bufs (fun b => b.id == buf) fun b => { b with left := b.left - 1 } }
  match s.buf? buf with
  | some b => match b.coded with
    | some p => if b.left = 0 then s.submitPiece (.slice buf) b.entry.tenant p else s
    | none => s
  | none => s

/-- A part of a slice's data cannot be had: the job ends (05 R190). -/
def State.sliceFailed (s : State) (buf : Nat) (st : Status) : State :=
  match s.buf? buf with
  | none => s
  | some b =>
    let s := s.endJob b.entry.job 2 st (some b.entry.slice) 0 0
    s

/-! ## Gathers that end (12 R431, R433) -/

/-- The bytes that a gather for a read wanted, under the tenant's key. -/
def State.gatherPlain (s : State) (g : Gather) : Option (List Byte) :=
  (s.tenantKey (fieldLe g.key 2 2) (s.classKey (fieldLe g.vrec 6 1)) 0).map fun k => match s.versionOfKey (g.key.take 28) with
    | some v => s.maskTrim v (keyStripe g.key * g.info.k * 262144 + g.lo) (g.plain k)
    | none => g.plain k

/-- Ends a gather that can be decoded: a command or slice takes its bytes, a repair stores its shard. -/
def State.gatherStep (s : State) (id : Nat) : State :=
  match s.gather? id with
  | none => s
  | some g =>
    if !g.enough then s
    else
      let s := (s.dropGather id).tick
      match g.owner with
      | .cmd tag idx =>
        let s := match s.gatherPlain g with
          | some b => s.modCmd tag fun c => { c with got := c.got.put idx b }
          | none => s
        s.finishRead tag
      | .slice buf off =>
        let s := match s.gatherPlain g with
          | some b => { s with bufs := adjWhere s.bufs (fun x => x.id == buf) fun x => { x with data := overlay x.data off b } }
          | none => s
        s.sliceArrived buf
      | .repair lead =>
        let b := shardOf g.info.k (keyShard g.key) g.data
        (s.bump .flCnt 8).holdShard g.key b g.vrec (.repaired lead)

/-- Ends every gather that can be decoded. -/
def State.gatherSteps (s : State) : State := (s.firon.gathers.map Gather.id).foldl State.gatherStep s

/-- Ends a gather that fewer than K shards reached in time (R431). -/
def State.gatherFail (s : State) (g : Gather) : State :=
  let s := s.dropGather g.id
  match g.owner with
  | .cmd tag _ => match s.cmd? tag with
    | some c => ((s.dropReads tag).bump .flCnt 10).fail c .peerUnreachable
    | none => s
  | .slice buf _ => (s.bump .flCnt 10).sliceFailed buf .peerUnreachable
  | .repair _ => s

end Sys2Proof.Machine
end

