-- ==== Sys2Proof/Machine/FironCmds.lean ====
section
/-! DEFINITION. The meanings of Firon Link's frames and timers, and of GROUP_CONFIG (12). -/
namespace Sys2Proof.Machine

/-! ## Sessions and acknowledgements (R419, R420) -/

/-- Restarts the sequence numbers with a peer, and sends again, as new frames, what it had not acknowledged. -/
def State.restartPeer (s : State) (p : Nat) (session : Reg) : State :=
  let old := s.peer p
  let s := s.modPeer p fun x => { x with
    session := session, nextSeq := 1, unacked := [], waiting := [], ackRcv := 0, rcvd := [], sinceAck := 0, late := false }
  (old.unacked.map (fun f => (f.type, f.payload)) ++ old.waiting).foldl (fun s m => s.sendMsg p m.1 m.2) s

/-- Does a message to a member still wait for its acknowledgement? -/
def State.inFlight (s : State) (p type : Nat) (body : List Byte) : Bool :=
  let x := s.peer p
  (x.unacked.any fun f => f.type == type && f.payload.take body.length == body) ||
    x.waiting.any fun m => m.1 == type && m.2.take body.length == body

/-- Sends a shard of this origin again from the landing copy (R430), or holds its own again. -/
def State.sendAgain (s : State) (key : List Byte) : State :=
  match s.versionOfKey (key.take 28) with
  | some v => match v.group, s.tenantKey v.tenant (s.classKey v.pclass) 0 with
    | some g, some k =>
      let c : Commit := ⟨0, .cmd 0, 0, none, .durable, v, false⟩
      let b := shardOf g.k (keyShard key) (stripeData v g k (keyStripe key))
      let vrec := c.vrec s.free.toNat g
      (if s.holderOf g key = s.firon.member then
        (if (s.shard? key).isSome then s else s.holdShard key b vrec .nothing)
      else s.sendShard key b vrec (s.holderOf g key)).tick
    | _, _ => s
  | none => s

/-- The holder of a shard that this origin has shipped. -/
def State.shippedHolder (s : State) (key : List Byte) : Option Nat :=
  (s.firon.shipped.find? fun x => x.1 == key.take 28).map fun x => s.holderOf x.2 key

/-- The origin keeps sending a holder what is still due to it: each shard not yet durable and each release not yet answered,
unless they are on their way (R430; log 162). -/
def State.sendDue (s : State) (p : Nat) : State :=
  let s := (s.firon.releases.filter fun r => r.1 == p && !s.inFlight p 0x14 r.2).foldl (fun s r => s.sendMsg p 0x14 r.2) s
  (s.firon.pendingShards.filter fun k => s.shippedHolder k == some p &&
    (List.range 32).any fun i => !s.inFlight p 0x10 (chunkDesc k i)).foldl State.sendAgain s

/-- A peer whose heartbeat carries another session has started again (R419). -/
def State.learnSession (s : State) (h : Rx) : State :=
  if h.srcSession = (s.peer h.src).session then s else (s.restartPeer h.src h.srcSession).sendDue h.src

/-- HEARTBEAT (R419, R422, R423). -/
def execHeartbeat (f : RxFrame) (s : State) : Host.Outcome State Fault Refusal :=
  .next (s.onFrame f 0x01 fun s h =>
    (((s.learnSession h).heard h).modPeer h.src fun p => { p with
      upMask := BitVec.ofNat 32 (fieldBe h.payload 0 4), lostVote := BitVec.ofNat 32 (fieldBe h.payload 4 4) }).countVotes)

/-- The sequence numbers a SACK marks. -/
def sackSeqs (b : List Byte) : List Nat :=
  let base := fieldBe b 0 8
  let bits := fieldLe b 8 64
  ((List.range 512).filter fun i => bitOf bits i).map fun i => base + 1 + i

/-- ACK: frames up to its number and those it marks are acknowledged; a frame with three marked behind it is sent
again (R420). -/
def execAck (f : RxFrame) (s : State) : Host.Outcome State Fault Refusal :=
  .next (s.onFrame f 0x02 fun s h =>
    let marked := sackSeqs h.payload
    let s := ((s.modPeer h.src fun p => { p with unacked := p.unacked.filter fun x => !marked.contains x.seq }).setLate
      h.src).sendWaiting h.src
    let again := (s.peer h.src).unacked.filter fun x => decide ((marked.filter fun q => decide (x.seq < q)).length ≥ 3)
    again.foldl (fun s x => s.resend h.src x.seq) s)

/-- A frame that fails a check is dropped and counted (R415). A heartbeat that passes the first five checks still
tells that its sender has started again (R419). -/
def execFrameDropped (f : RxFrame) (s : State) : Host.Outcome State Fault Refusal :=
  if !s.awake || s.frameWaits f then .next s
  else
    let r := s.checkFrame f
    let s := s.dropFrame f r
    if r = .failed 6 ∧ (rxHeader f).type = 1 then .next (s.learnSession (rxHeader f)) else .next s

/-! ## Shards (R428 to R431) -/

/-- SHARD_PUT (R429): the chunk is kept; with all 32 the shard is placed. A shard that is durable already is
answered so. -/
def execShardPut (f : RxFrame) (s : State) : Host.Outcome State Fault Refusal :=
  .next (s.onFrame f 0x10 fun s h =>
    let key := h.payload.take 32
    let i := fieldLe h.payload 32 1
    let body := h.payload.drop 64
    let data := if i = 0 then body.drop 160 else body
    let s := if (s.shard? key).isSome then s
      else s.modFiron fun x => { x with shards := x.shards ++ [(⟨key, [], [], false, false, [], .tellOrigin⟩ : Shard)] }
    match s.shard? key with
    | some x =>
      if x.durable then s.shardStatus key 0
      else (s.modShard key fun x => { x with
        chunks := x.chunks.put i data, vrec := if i = 0 then body.take 160 else x.vrec }).placeShard key
    | none => s)

/-- SHARD_DURABLE (R429, R430): STATUS 0 takes the shard off the list of those not durable; a shard that was
refused is sent again. -/
def execShardDurable (f : RxFrame) (s : State) : Host.Outcome State Fault Refusal :=
  .next (s.onFrame f 0x11 fun s h =>
    let key := h.payload.take 32
    if fieldLe h.payload 32 2 = 0 then
      (s.modFiron fun x => { x with pendingShards := x.pendingShards.filter (· != key) }).pumpGroup
    else if s.firon.pendingShards.contains key then s.sendAgain key else s)

/-- SHARD_GET (R431): the chunks asked for go back. A shard that does not decode here is missing and is rebuilt
under R433. -/
def execShardGet (f : RxFrame) (s : State) : Host.Outcome State Fault Refusal :=
  .next (s.onFrame f 0x12 fun s h =>
    let key := h.payload.take 32
    match s.shard? key with
    | some x =>
      if !x.durable then s
      else if s.shardReadable x then
        (List.range (fieldLe h.payload 33 1)).foldl (fun s i =>
          let n := fieldLe h.payload 32 1 + i
          s.sendMsg h.src 0x13 (chunkDesc key n ++ x.chunks.lookD n (zeros 8192))) s
      else if s.firon.repairs.contains key then s
      else (s.awaitRepair key).sendRepair key x.vrec
    | none => s)

/-- A chunk of a shard goes to a gather that asked for it. -/
def Gather.take (g : Gather) (key : List Byte) (i : Nat) (b : List Byte) : Gather :=
  if (g.key.take 31 == key.take 31) && g.asked.contains (keyShard key) then
    { g with got := g.got.upd (keyShard key) [] fun c => AMap.put c i b }
  else g

/-- SHARD_DATA (R431): the chunk goes to the gathers that asked for its shard. -/
def execShardData (f : RxFrame) (s : State) : Host.Outcome State Fault Refusal :=
  .next (s.onFrame f 0x13 fun s h =>
    let key := h.payload.take 32
    let i := fieldLe h.payload 32 1
    (s.modFiron fun x => { x with
      gathers := x.gathers.map fun g => g.take key i (h.payload.drop 64) }).gatherSteps)

/-- SHARD_RELEASE (R430): every shard of the version goes, and RELEASE_DONE answers. -/
def execShardRelease (f : RxFrame) (s : State) : Host.Outcome State Fault Refusal :=
  .next (s.onFrame f 0x14 fun s h =>
    let vk := h.payload.take 28
    ((s.modFiron fun x => { x with
      shards := x.shards.filter fun y => y.key.take 28 != vk
      repairs := x.repairs.filter fun y => y.take 28 != vk
      overrides := x.overrides.filter fun y => y.key.take 28 != vk
      gathers := x.gathers.filter fun y => y.key.take 28 != vk }).sendMsg h.src 0x15 (h.payload.take 32)).settle)

/-- RELEASE_DONE ends the resending of a release (R430). -/
def execReleaseDone (f : RxFrame) (s : State) : Host.Outcome State Fault Refusal :=
  .next (s.onFrame f 0x15 fun s h => s.modFiron fun x => { x with
    releases := x.releases.filter fun r => !(r.1 == h.src && r.2 == h.payload.take 32) })

/-! ## Repair and adoption (R433 to R435) -/

/-- REPAIR_REQ (R433): this device is the substitute. A shard it has rebuilt already is reported again. -/
def execRepairReq (f : RxFrame) (s : State) : Host.Outcome State Fault Refusal :=
  .next (s.onFrame f 0x20 fun s h =>
    let key := h.payload.take 32
    match s.shard? key with
    | some x => if x.durable then s.sendMsg h.src 0x21 (key ++ leBytes 1 s.firon.member ++ zeros 7) else s
    | none => ((s.startRepair key (h.payload.drop 32) h.src).gatherSteps).settle)

/-- REPAIR_DONE (R434). -/
def execRepairDone (f : RxFrame) (s : State) : Host.Outcome State Fault Refusal :=
  .next (s.onFrame f 0x21 fun s h => ((s.override (h.payload.take 32) (fieldLe h.payload 32 1)).pumpGroup).settle)

/-- The version records of an origin that this device holds, one for each version. -/
def State.vrecsOf (s : State) (origin : Nat) : List (List Byte) :=
  if origin = s.firon.member then
    s.versions.filterMap fun v => v.group.map fun g => (⟨0, .cmd 0, 0, none, .durable, v, false⟩ : Commit).vrec 0 g
  else (s.firon.shards.filter fun x => keyOrigin x.key == origin && x.vrec != []).map Shard.vrec |>.eraseDups

/-- VREC_PULL is answered with records from the cursor on, up to 56 to a frame; the origin itself also tells the
overrides of its versions (R434, R435). -/
def execVrecPull (f : RxFrame) (s : State) : Host.Outcome State Fault Refusal :=
  .next (s.onFrame f 0x30 fun s h =>
    let origin := fieldLe h.payload 0 1
    let from' := fieldLe h.payload 8 32
    let all := s.vrecsOf origin
    let part := (all.drop from').take 56
    let upto := from' + part.length
    let s := s.sendMsg h.src 0x31 (leBytes 2 part.length ++ zeros 6 ++ part.flatten ++
      leBytes 32 (if upto < all.length then upto else 0))
    if origin = s.firon.member ∧ from' = 0 then
      s.firon.overrides.foldl (fun s o =>
        if keyOrigin o.key = origin then s.sendMsg h.src 0x21 (o.key ++ leBytes 1 o.holder ++ zeros 7) else s) s
    else s)

/-- The highest record of each object among some (R435). -/
def bestRecords (l : List (List Byte)) : List (List Byte) :=
  l.filter fun a => l.all fun b => !(sliceB a 2 3 == sliceB b 2 3 && sliceB a 8 16 == sliceB b 8 16) ||
    decide (fieldLe b 24 8 ≤ fieldLe a 24 8)

/-- The shards of a version that this device holds by R427 and does not have. -/
def State.missingShards (s : State) (vrec : List Byte) : List (List Byte) :=
  let v := vrecVersion vrec
  let g := vrecInfo vrec
  ((List.range g.stripes).flatMap fun t => (List.range (g.k + g.m)).map fun i => shardKey (s.keyOf v) t i).filter fun k =>
    s.holderOf g k == s.firon.member && (s.shard? k).isNone

/-- Every member's list has ended (R435): the index is rebuilt, the commit counters go on above the versions
recovered, and the shards of this member are rebuilt. -/
def State.finishAdopt (s : State) : State :=
  match s.firon.adopting with
  | none => s
  | some tag =>
    if !s.firon.vrecFrom.isEmpty then s
    else
      let best := (bestRecords s.firon.vrecs).eraseDups
      let s := best.foldl (fun s b =>
        let v := vrecVersion b
        let s := { s with versions := s.versions.filter (fun w : Version => !w.is v.tenant v.space v.oid) ++ [v] }
        let s := s.modTenant v.tenant fun t => { t with
          spaces := t.spaces.upd v.space ⟨false, 0, 0, 0, false⟩ fun x => { x with counter := max x.counter v.version } }
        s.modFiron fun x => { x with shipped := x.shipped ++ [(s.keyOf v, vrecInfo b)] }) s
      let s := best.foldl (fun s b => (s.missingShards b).foldl (fun s k => s.startRepair k b s.firon.member) s) s
      let s := s.modFiron fun x => { x with adopting := none, vrecs := [] }
      let s := s.gatherSteps.settle
      match s.cmd? tag with
      | some c => s.complete c .ok 0 0 0
      | none => s

/-- VREC_LIST (R435): its records are collected, and the next ones are asked for. -/
def execVrecList (f : RxFrame) (s : State) : Host.Outcome State Fault Refusal :=
  .next (s.onFrame f 0x31 fun s h =>
    match s.firon.adopting with
    | none => s
    | some _ =>
      let n := fieldLe h.payload 0 2
      let recs := (List.range n).map fun i => sliceB h.payload (8 + 160 * i) 160
      let cursor := (h.payload.drop (8 + 160 * n)).take 32
      let s := s.modFiron fun x => { x with vrecs := x.vrecs ++ recs }
      if allZero cursor then (s.modFiron fun x => { x with vrecFrom := x.vrecFrom.filter (· != h.src) }).finishAdopt
      else s.sendMsg h.src 0x30 (leBytes 1 s.firon.member ++ zeros 7 ++ cursor))

/-! ## Timers -/

/-- HEARTBEAT_SEND (R422): to every member, on every port that is up; none to a Lost member (R423). -/
def execHeartbeatSend (s : State) : Host.Outcome State Fault Refusal :=
  let up := (s.members.filter fun p => (s.peer p).st == 1).foldl (fun m p => m + 2 ^ p) 0
  let votes := (s.members.filter fun p => (s.peer p).vote).foldl (fun m p => m + 2 ^ p) 0
  let b := beBytes 4 up ++ beBytes 4 votes ++ leBytes 1 s.modes.mode.num ++ zeros 7
  .next ((s.members.filter fun p => (s.peer p).st != 3).foldl (fun s p =>
    s.upPorts.foldl (fun s e => s.emitOn e p 1 0 b) s) s)

/-- ACK_TIMER: 20 µs with an accepted frame not acknowledged (R420). -/
def execAckTimer (member : Fin 32) (s : State) : Host.Outcome State Fault Refusal :=
  .next (if (s.peer member).sinceAck > 0 then s.sendAck member else s)

/-- RETRANSMIT_TIMEOUT (R420). -/
def execRetransmitTimeout (member : Fin 32) (seq : Nat) (s : State) : Host.Outcome State Fault Refusal :=
  .next (if s.linkRuns then s.resend member seq else s)

/-- PEER_SUSPECT: no frame for SUSPECT_MS (R421). -/
def execPeerSuspect (member : Fin 32) (s : State) : Host.Outcome State Fault Refusal :=
  .next (s.modPeer member fun p => { p with st := if p.st = 1 then 2 else p.st })

/-- LOSS_VOTE: no valid frame for LOSS_MS (R422, R423). -/
def execLossVote (member : Fin 32) (s : State) : Host.Outcome State Fault Refusal :=
  let p := s.peer member
  if p.st = 0 ∨ p.st = 3 ∨ !s.linkRuns then .next s
  else .next (((s.modPeer member fun p => { p with vote := true }).countVotes).finishAdopt)

/-- QUORUM_TIMEOUT: ACK_MS after a Group commit's shards went out (R429 steps 4 and 5). -/
def execQuorumTimeout (id : Nat) (s : State) : Host.Outcome State Fault Refusal :=
  match s.commits.find? fun c => c.id == id with
  | none => .next s
  | some c => match c.ver.group with
    | none => .next s
    | some g =>
      if c.phase ≠ .shards then .next s
      else if s.atQuorum g (s.keyOf c.ver) then .next (s.modCommit id fun c => { c with phase := .waiting })
      else .next (((s.bump .flCnt 9).commitFail c .groupQuorum).pumpGroup)

/-- SHARD_READ_TIMEOUT: READ_MS without a shard, and further shards are fetched (R431). -/
def execShardReadTimeout (id : Nat) (s : State) : Host.Outcome State Fault Refusal :=
  match s.gather? id with
  | none => .next s
  | some g => .next ((s.askMore id (g.info.k + g.info.m)).gatherStep id)

/-- READ_GATHER_TIMEOUT: ACK_MS with fewer than K shards (R431). -/
def execReadGatherTimeout (id : Nat) (s : State) : Host.Outcome State Fault Refusal :=
  match s.gather? id with
  | none => .next s
  | some g => .next (if g.enough then s.gatherStep id else s.gatherFail g)

/-- KEY_OVERLAP_EXPIRY: the previous D1 is destroyed (R417). -/
def execKeyOverlapExpiry (s : State) : Host.Outcome State Fault Refusal :=
  .next { s with keys := { s.keys with prevD1 := none } }

/-- An Ethernet link goes down. -/
def State.ethDown (s : State) (eth : Nat) : State :=
  if s.firon.links.lookD eth false then
    (s.modFiron fun x => { x with links := x.links.put eth false, linkDown := x.linkDown.put eth true }).record 0x0501 eth []
  else s

/-- ETH_LINK_DOWN (R412). -/
def execEthLinkDown (eth : Fin 4) (s : State) : Host.Outcome State Fault Refusal := .next (s.ethDown eth)

/-- ETH_LINK_UP. -/
def execEthLinkUp (eth : Fin 4) (s : State) : Host.Outcome State Fault Refusal :=
  .next (if s.awake && s.modes.serdesLock.lookD (2 + eth) true then s.modFiron fun x => { x with links := x.links.put eth true }
    else s)

/-! ## GROUP_CONFIG (R436) -/

/-- The GROUP_CONFIG command of a tag with an OP. -/
def State.groupCmd (s : State) (tag op : Nat) : Option Cmd := (s.ready tag 0xFE).filter fun c => c.pkt.aux % 8 == op

/-- The setting in the data of SET_SELF. -/
def selfOf (b : List Byte) : GroupSelf :=
  ⟨fieldLe b 0 4, fieldLe b 4 2, fieldLe b 6 2, fieldLe b 8 1,
    (List.range 4).map fun i => BitVec.ofNat 128 (fieldBe b (16 + 16 * i) 16)⟩

/-- Does the data of SET_SELF keep its ranges? -/
def selfOk (b : List Byte) : Bool :=
  fieldLe b 0 4 != 0 && decide (fieldLe b 4 2 ≥ 1024) && bitsOf (fieldLe b 6 2) 14 12 == 0 && zeroAt b 9 7 && zeroAt b 80 16

/-- SET_SELF: only while Firon Link is disabled. -/
def execSetSelf (tag : Nat) (s : State) : Host.Outcome State Fault Refusal :=
  match s.groupCmd tag 0 with
  | none => .next s
  | some c =>
    if s.firon.enabled || !selfOk c.data then .next (s.fail c .invalidField)
    else .next ((s.modFiron fun x => { x with
      member := c.pkt.fld 24 1, selfCfg := selfOf c.data, peers := x.peers.del (c.pkt.fld 24 1) }).complete c .ok 0 0 0)

/-- The member in the data of SET_MEMBER. -/
def memberOf (b : List Byte) : GroupMember :=
  ⟨BitVec.ofNat 128 (fieldBe b 0 16), (List.range 4).map fun i => fieldBe b (16 + 8 * i) 6⟩

/-- Configures a member: Suspect until its first frame; a Lost member stays Lost until it has been removed (R423). -/
def State.setMember (s : State) (p : Nat) (m : GroupMember) : State :=
  s.modPeer p fun x => { x with addr := m.addr, macs := m.macs, st := if x.st = 3 then 3 else 2 }

/-- SET_MEMBER. -/
def execSetMember (tag : Nat) (s : State) : Host.Outcome State Fault Refusal :=
  match s.groupCmd tag 1 with
  | none => .next s
  | some c =>
    let p := c.pkt.fld 24 1
    let bad := p == s.firon.member || !zeroAt c.data 48 16 || (List.range 4).any fun i => !zeroAt c.data (22 + 8 * i) 2
    if bad then .next (s.fail c .invalidField)
    else .next (((s.setMember p (memberOf c.data)).retryRepairs).complete c .ok 0 0 0)

/-- REMOVE_MEMBER: the member is Absent, and its stripes are repaired as for a Lost member. -/
def execRemoveMember (tag : Nat) (s : State) : Host.Outcome State Fault Refusal :=
  match s.groupCmd tag 2 with
  | none => .next s
  | some c =>
    let p := c.pkt.fld 24 1
    if (s.peer p).st = 0 then .next (s.complete c .ok 0 0 0)
    else
      let s := s.modFiron fun x => { x with
        peers := x.peers.del p, releases := x.releases.filter (fun r => r.1 != p), vrecFrom := x.vrecFrom.filter (· != p) }
      .next ((((s.repairFor p).retryRepairs.countVotes).settle.gatherSteps.pumpGroup).complete c .ok 0 0 0)

/-- A session number that is not 0. -/
def State.newSession (s : State) : Reg × State := (if s.free = 0 then 1 else s.free, s.tick)

/-- Starts Firon Link with a new session. A device that comes back asks the origins of its shards for their
overrides (R434). -/
def State.enableLink (s : State) : State :=
  let r := s.newSession
  let s := r.2.modFiron fun x => { x with enabled := true, session := r.1, selfLost := false }
  let s := s.members.foldl (fun s p => (s.restartPeer p (s.peer p).session).sendDue p) s
  let s := s.sendDue s.firon.member
  let origins := ((s.firon.shards.map fun x => keyOrigin x.key).eraseDups).filter (· != s.firon.member)
  origins.foldl (fun s o => s.sendMsg o 0x30 (leBytes 1 o ++ zeros 39)) s

/-- ENABLE: NOT_PERMITTED while D1 is empty (R418). -/
def execGroupConfigEnable (tag : Nat) (s : State) : Host.Outcome State Fault Refusal :=
  match s.groupCmd tag 3 with
  | none => .next s
  | some c =>
    if s.groupKey.isNone then .next (s.fail c .notPermitted)
    else .next (s.enableLink.complete c .ok 0 0 0)

/-- Stops Firon Link: the Group commits in flight end with GROUP_QUORUM. -/
def State.disableLink (s : State) : State :=
  let s := s.modFiron fun x => { x with enabled := false }
  let mine := s.commits.filter fun c => decide (c.phase = .shards)
  (mine.foldl (fun s c => if s.commits.any (fun x => x.id == c.id) then (s.bump .flCnt 9).commitFail c .groupQuorum else s) s).pumpGroup

/-- DISABLE. -/
def execGroupConfigDisable (tag : Nat) (s : State) : Host.Outcome State Fault Refusal :=
  match s.groupCmd tag 4 with
  | none => .next s
  | some c => .next (s.disableLink.complete c .ok 0 0 0)

/-- ADOPT (R435): this device takes the member's index and asks every member for the records of that origin. -/
def execAdopt (tag : Nat) (s : State) : Host.Outcome State Fault Refusal :=
  match s.groupCmd tag 5 with
  | none => .next s
  | some c =>
    let p := c.pkt.fld 24 1
    if s.firon.adopting.isSome then .next (s.fail c .invalidField)
    else
      let r := s.newSession
      let s := r.2.launch tag
      let s := s.modFiron fun x => { x with
        member := p, peers := x.peers.del p, adopting := some tag, vrecs := []
        session := if x.session = 0 then r.1 else x.session }
      let ms := s.members.filter fun q => (s.peer q).st != 3
      let s := s.modFiron fun x => { x with vrecFrom := ms }
      .next ((ms.foldl (fun s q => s.sendMsg q 0x30 (leBytes 1 p ++ zeros 39)) s).finishAdopt)

end Sys2Proof.Machine
end

