-- ==== Sys2Proof/Machine/Checks.lean ====
section
/-! DEFINITION. The checks 1 to 8 of a fetched packet (03 R89, R90, R91, R111, R112, R514). -/
namespace Sys2Proof.Machine

/-- A failed check: its status, its number, and the packet offset of the field that failed. -/
structure CheckFail where
  status : Status
  check : Nat
  field : Nat
deriving DecidableEq, Repr

/-- A list of rules in order: the rule, and what its breach gives. -/
def firstBreach (l : List (Bool × CheckFail)) : Option CheckFail := (l.find? fun x => !x.1).map Prod.snd

/-- The opcodes of R90. -/
def opcodes : List Nat :=
  [0x00, 0x01, 0x02, 0x03, 0x04, 0x05, 0x06, 0x20, 0x21, 0x22, 0x23] ++
  [0x40, 0x41, 0x42, 0x43, 0x44, 0x45, 0x46, 0x47, 0x48, 0x49, 0x4A, 0x70, 0x71, 0x72, 0x73, 0x74] ++
  [0x90, 0x91, 0x92, 0xA0, 0xA1, 0xA2, 0xA3] ++
  [0xF0, 0xF1, 0xF2, 0xF3, 0xF4, 0xF5, 0xF6, 0xF7, 0xF8, 0xF9, 0xFA, 0xFB, 0xFC, 0xFD, 0xFE, 0xFF]

/-- Check 2: the function's rule before the queue pair's (R73). -/
def queueCheck (fn qid op : Nat) : Option CheckFail :=
  let admin := decide (op ≤ 0x1F)
  let mgmt := decide (op ≥ 0xF0)
  if fn != 0 && mgmt then some ⟨.notPermitted, 2, 0xFFFF⟩
  else if fn == 0 && !(admin || mgmt) then some ⟨.invalidOpcode, 2, 0xFFFF⟩
  else if op != 0 && ((qid == 0) != (admin || mgmt)) then some ⟨.invalidQueue, 2, 0xFFFF⟩
  else none

/-- Does the packet name a block namespace (R514)? -/
def Packet.namesNs (p : Packet) : Bool := p.opcode ∈ [0x20, 0x21, 0x23]

/-- Does the packet name an object space (R514)? -/
def Packet.namesSpace (p : Packet) : Bool :=
  p.opcode ∈ [0x40, 0x45, 0x47, 0x49, 0x4A] || (p.opcode == 0x44 && p.stream == 0) || (p.opcode == 0x48 && !bitOf p.aux 0)

/-- AUX holds only defined values (R90, and the layouts of the management opcodes). -/
def Packet.auxOk (p : Packet) : Bool :=
  let a := p.aux
  match p.opcode with
  | 0x01 => decide (a ≤ 3)
  | 0x04 | 0x48 | 0xF0 | 0xF1 | 0xF3 => decide (a ≤ 1)
  | 0x40 => decide (a ≤ 15) && bitsOf a 1 0 != 0
  | 0x90 => decide (a < 64) && decide (1 ≤ bitsOf a 2 0) && decide (bitsOf a 2 0 ≤ 4) && !(bitOf a 3 && bitsOf a 2 0 == 4)
  | 0xF8 | 0xF9 => decide (a ≤ 2)
  | 0xFB | 0xFE => decide (a ≤ 5)
  | 0xFD => decide (a < 16) && decide (1 ≤ bitsOf a 2 0) && decide (bitsOf a 2 0 ≤ 4)
  | 0xFF => decide (a ≤ 4)
  | _ => a == 0

/-- Check 3. -/
def Packet.headerCheck (p : Packet) : Option CheckFail :=
  firstBreach [
    (decide (p.flags < 8), ⟨.invalidField, 3, 1⟩),
    (if p.namesNs || p.namesSpace then decide (p.container < 16) else p.container == 0, ⟨.invalidField, 3, 4⟩),
    (p.auxOk, ⟨.invalidField, 3, 5⟩),
    (p.reserved == 0, ⟨.invalidField, 3, 6⟩)]

/-- Check 4. -/
def State.containerCheck (s : State) (fn : Nat) (p : Packet) : Option CheckFail :=
  if (p.namesNs && (s.ns? fn p.container).isNone) || (p.namesSpace && (s.space? fn p.container).isNone) then
    some ⟨.containerUnknown, 4, 4⟩
  else none

/-- The length rule of RAW_MEDIA (10 R376); a slot whose page size is not known has no rule for its pages. -/
def State.rawLenOk (s : State) (p : Packet) : Bool :=
  let page := (s.card (bitsOf (p.fld 24 8) 45 41)).info.map fun g => g.pageBytes + g.spareBytes
  match bitsOf p.aux 2 0 with
  | 0 => p.dataLen == 4160
  | 2 => p.dataLen == 256
  | 3 => p.dataLen == 16
  | 5 => p.dataLen == 0
  | _ => page.all fun n => p.dataLen == n

/-- The length rule of FW_DOWNLOAD (13 R456). -/
def Packet.downloadLenOk (p : Packet) : Bool :=
  decide (p.dataLen > 0) && (p.fld 28 4 + p.dataLen == p.fld 32 4 || (p.dataLen % 4096 == 0 && decide (p.fld 28 4 + p.dataLen < p.fld 32 4)))

/-- The opcode's length rule (R90, R91). -/
def State.lenOk (s : State) (p : Packet) : Bool :=
  let n := p.dataLen
  match p.opcode with
  | 0x01 => n == 4096
  | 0x04 => n % 4096 == 0
  | 0x20 | 0x21 => n == (p.fld 32 2 + 1) * 4096
  | 0x40 => n == if bitOf p.aux 3 then 32 else 0
  | 0x41 | 0x44 => decide (1 ≤ n)
  | 0x42 => n == 0 || n == 32
  | 0x48 => n == 0 || (!bitOf p.aux 0 && n == 32)
  | 0x4A => n % 24 == 0 && decide (n ≤ 1048560)
  | 0x70 | 0x72 | 0x90 => true
  | 0x91 => n % 4096 == 0 && decide (4096 ≤ n) && decide (n ≤ 1044480)
  | 0x92 => decide (1104 ≤ n) && decide (n ≤ 1044560)
  | 0xA0 | 0xA3 => n == 64
  | 0xF5 => p.downloadLenOk
  | 0xF8 => n == if p.aux = 0 then 16 + p.fld 28 2 + 8 else 0
  | 0xFB => s.rawLenOk p
  | 0xFD => decide (256 ≤ n) && (n - 256) % algBlock (bitsOf p.aux 2 0) == 0
  | 0xFE => n == if p.aux == 0 then 96 else if p.aux == 1 then 64 else 0
  | 0xFF => n == if p.aux == 0 || p.aux == 2 then 96 else if p.aux == 3 then 40 else 0
  | _ => n == 0

/-- The output buffer of COMPRESS_DIRECT and DECOMPRESS_DIRECT (R91): the maximum coded size of a stream is its length
and 80 bytes (07 R249, R265). -/
def Packet.outBufOk (p : Packet) : Bool :=
  match p.opcode with
  | 0x91 => p.fld 24 8 % 4 == 0 && decide (p.fld 32 4 ≥ p.dataLen + 80)
  | 0x92 => p.fld 24 8 % 4 == 0
  | _ => true

/-- Check 5 (R87). -/
def State.bufferCheck (s : State) (p : Packet) : Option CheckFail :=
  firstBreach [
    (if p.dataLen = 0 then p.dataAddr == 0 else p.dataAddr % (if p.list then 4096 else 4) == 0, ⟨.invalidBuffer, 5, 8⟩),
    (decide (p.dataLen ≤ 1048576), ⟨.invalidBuffer, 5, 16⟩),
    (s.lenOk p, ⟨.invalidBuffer, 5, 16⟩),
    (p.outBufOk, ⟨.invalidBuffer, 5, 24⟩)]

/-- The body bytes an opcode defines, as ranges of packet offset and length. -/
def Packet.bodyFields (p : Packet) : List (Nat × Nat) :=
  match p.opcode with
  | 0x02 => [(24, 23)]
  | 0x03 => [(24, 1)]
  | 0x04 => [(24, if p.aux = 0 then 8 else 0)]
  | 0x05 => [(24, 1), (26, 2)]
  | 0x20 | 0x21 => [(24, 10)]
  | 0x23 => [(24, 12)]
  | 0x40 => [(24, 32)]
  | 0x41 | 0x42 => [(24, 8)]
  | 0x44 => [(24, 32)]
  | 0x45 | 0x47 => [(24, 24)]
  | 0x48 => [(24, if bitOf p.aux 0 then 0 else 16)]
  | 0x49 => [(24, 32)]
  | 0x4A => [(24, 16)]
  | 0x71 | 0x73 | 0x74 | 0xA1 | 0xA3 => [(24, 4)]
  | 0x90 => [(24, 1), (32, 8)]
  | 0x91 => [(24, 13)]
  | 0x92 => [(24, 12)]
  | 0xA2 => [(24, 38)]
  | 0xF0 => [(24, 4)]
  | 0xF1 => [(24, 3), (32, 16)]
  | 0xF2 | 0xF4 => [(24, 3)]
  | 0xF3 => [(24, 3), (32, 8)]
  | 0xF5 => [(24, 1), (28, 8)]
  | 0xF6 | 0xF7 | 0xFE => [(24, 1)]
  | 0xF8 => [(24, 6)]
  | 0xF9 => [(24, 3), (32, 8)]
  | 0xFA | 0xFC => [(24, 8), (32, 16)]
  | 0xFB => [(24, 9)]
  | 0xFD => [(24, 1), (32, 8)]
  | 0xFF => [(24, 1), (28, 4)]
  | _ => []

/-- The first body byte outside the opcode's fields that is not zero. -/
def Packet.strayByte (p : Packet) : Option Nat :=
  (List.range 40).findSome? fun i =>
    let o := 24 + i
    if p.body.getD i 0 != 0 && !p.bodyFields.any (fun f => decide (f.1 ≤ o) && decide (o < f.1 + f.2)) then some o else none

/-- A body field that must lie within a range. -/
def Packet.within (p : Packet) (off len lo hi : Nat) : Bool × CheckFail :=
  (decide (lo ≤ p.fld off len) && decide (p.fld off len ≤ hi), ⟨.invalidField, 6, off⟩)

/-- A body field with a rule. -/
def bodyRule (ok : Bool) (off : Nat) : Bool × CheckFail := (ok, ⟨.invalidField, 6, off⟩)

/-- TENANT and the container number of the bodies of 04 R142. -/
def Packet.containerBody (p : Packet) : List (Bool × CheckFail) := [p.within 24 2 1 4096, p.within 26 1 0 15]

/-- The LBA range lies in the namespace (R91). -/
def State.lbaRule (s : State) (fn : Nat) (p : Packet) (nlb : Nat) : Bool × CheckFail :=
  ((s.ns? fn p.container).all fun n => decide (p.fld 24 8 + nlb < n.size), ⟨.lbaRange, 6, 24⟩)

/-! ## The body of KEY_LOAD (08 R290, R291 check 1) -/

/-- OP of a KEY_LOAD. -/
def Packet.keyOp (p : Packet) : Nat := bitsOf p.aux 1 0

/-- TENANT of a KEY_LOAD. -/
def Packet.keyTenant (p : Packet) : Nat := p.fld 24 2
/-- KEY. -/
def Packet.keyKey (p : Packet) : Nat := p.fld 26 1
/-- WRAP. -/
def Packet.keyWrap (p : Packet) : Nat := p.fld 27 1
/-- KEY_LEN. -/
def Packet.keyLen (p : Packet) : Nat := p.fld 28 2

/-- The number of the slot a body names, as KEY_LOAD_FAILED gives it: a tenant slot, 8,192 + *d*, or 0xFFFF. -/
def Packet.keySource (p : Packet) : Nat :=
  let t := p.keyTenant
  let k := p.keyKey
  if p.keyOp = 1 then (if 1 ≤ t ∧ t ≤ 4096 then keySlot t 0 else 0xFFFF)
  else if t = 0 then (if k ≤ 2 then 8192 + k else 0xFFFF)
  else if t ≤ 4096 ∧ k ≤ 1 then keySlot t k else 0xFFFF

/-- The wrapping a target requires (08 R291): D0 for tenant slots and D1, D2 for D0, and for D2 itself D2 while it is
loaded. -/
def State.wrapFor (s : State) (p : Packet) : Nat :=
  if p.keyTenant ≠ 0 ∨ p.keyKey = 1 then 1
  else if p.keyKey = 0 then 2
  else if (s.keys.device.look 2).isSome then 2 else 0

/-- The lengths R288 allows for a target: a tenant slot takes an XTS key of 64 bytes or an HMAC key of 16 to 128. -/
def keyLenOk (p : Packet) : Bool :=
  let n := p.keyLen
  if n % 8 ≠ 0 then false
  else if p.keyTenant ≠ 0 then decide (16 ≤ n) && decide (n ≤ 128)
  else if p.keyKey = 1 then decide (32 ≤ n) && decide (n ≤ 64)
  else n == 32

/-- Check 1 of 08 R291, by field: the body ranges, and for a LOAD the wrapping its target requires and the lengths it may
have. -/
def State.keyRules (s : State) (p : Packet) : List (Bool × CheckFail) :=
  match p.keyOp with
  | 0 => [p.within 24 2 0 4096, p.within 26 1 0 (if p.keyTenant = 0 then 2 else 1), bodyRule (p.keyWrap == s.wrapFor p) 27,
      bodyRule (keyLenOk p) 28]
  | 1 => [p.within 24 2 1 4096, p.within 26 1 0 0, p.within 27 1 0 0, p.within 28 2 0 0]
  | _ => [p.within 24 2 0 0, p.within 26 1 0 1, p.within 27 1 0 0, p.within 28 2 0 0]

/-- May the key store be changed so only in Maintenance (08 R291 check 2): a load without wrapping, and ERASE_DEVICE? -/
def Packet.keyMaint (p : Packet) : Bool := p.opcode == 0xF8 && (p.keyOp == 2 || (p.keyOp == 0 && p.keyWrap == 0))

/-- The ranges of the body fields of an opcode (R90, R91, and the layouts of the management opcodes). -/
def State.bodyRules (s : State) (fn : Nat) (p : Packet) : List (Bool × CheckFail) :=
  match p.opcode with
  | 0x02 => [bodyRule (p.fld 24 8 % 4096 == 0) 24, bodyRule (p.fld 32 8 % 4096 == 0) 32, p.within 40 1 4 16, p.within 41 1 4 16,
      p.within 42 1 0 63, p.within 46 1 1 8]
  | 0x03 => [p.within 24 1 1 63]
  | 0x04 => if p.aux = 0 then [bodyRule (p.fld 24 8 % 4096 == 0 && decide (p.fld 24 8 + p.dataLen ≤ 65536)) 24] else []
  | 0x20 | 0x21 => [p.within 32 2 0 255, s.lbaRule fn p (p.fld 32 2)]
  | 0x23 => [s.lbaRule fn p (p.fld 32 4)]
  | 0x40 => [p.within 40 8 0 (2 ^ 40), bodyRule (decide (p.fld 48 8 ≤ p.fld 40 8) && (bitOf p.aux 2 || p.fld 48 8 == 0)) 48]
  | 0x44 => if p.stream = 0 then [] else [bodyRule (p.fld 24 16 == 0) 24, bodyRule (p.fld 48 8 == 0) 48]
  | 0x49 => [p.within 48 8 1 (2 ^ 40), bodyRule (decide (p.fld 40 8 + p.fld 48 8 ≤ 2 ^ 40)) 40]
  | 0x90 => [p.within 24 1 0 1, bodyRule (p.fld 32 8 % 4 == 0) 32]
  | 0x91 => [p.within 36 1 1 4]
  | 0xF0 => [p.within 24 2 1 4096, p.within 26 1 1 5,
      bodyRule (if p.fld 26 1 = 5 then decide (p.fld 27 1 ≤ 2) else p.fld 27 1 == 0) 27,
      bodyRule (p.aux == 0 || p.fld 26 1 == 5 && p.fld 27 1 == 2) 5]
  | 0xF1 => p.containerBody ++ [p.within 32 8 0 (2 ^ 50), p.within 40 8 0 3000000000]
  | 0xF2 | 0xF4 => p.containerBody
  | 0xF3 => p.containerBody ++ [p.within 32 8 1 7812500000]
  | 0xF5 => [p.within 24 1 0 1, bodyRule (p.fld 28 4 % 4096 == 0) 28,
      if p.fld 24 1 = 0 then p.within 32 4 4608 8388608 else p.within 32 4 40 524288]
  | 0xF6 => [p.within 24 1 0 3]
  | 0xF7 => [p.within 24 1 1 4]
  | 0xF8 => s.keyRules p
  | 0xF9 => if p.aux = 0 then [p.within 24 2 1 4096, p.within 26 1 8 20, bodyRule (p.fld 32 8 % 4096 == 0) 32]
      else [p.within 24 2 1 4096, bodyRule (p.fld 26 1 == 0) 26, bodyRule (p.fld 32 8 == 0) 32]
  | 0xFD => [bodyRule (decide (p.fld 24 1 ≤ 3) && (s.engine (p.fld 24 1)).st == 1) 24, bodyRule (p.fld 32 8 % 8 == 0) 32]
  | 0xFE => [p.within 24 1 0 31]
  | 0xFF => [p.within 24 1 0 3, bodyRule (if p.aux = 3 ∨ p.aux = 4 then p.fld 28 4 == 0 else true) 28]
  | _ => []

/-- Check 6. -/
def State.bodyCheck (s : State) (fn : Nat) (p : Packet) : Option CheckFail :=
  match p.strayByte with
  | some o => some ⟨.invalidField, 6, o⟩
  | none => firstBreach (s.bodyRules fn p)

/-- The kinds of stream an opcode takes. -/
inductive StreamKind where
  | write | read | digest
deriving DecidableEq, Repr

/-- The kind of stream the packet must name: none where the opcode takes no stream. -/
def Packet.streamKind (p : Packet) : Option StreamKind :=
  match p.opcode with
  | 0x41 | 0x42 | 0x43 => some .write
  | 0x48 => if bitOf p.aux 0 then some .write else none
  | 0x46 => some .read
  | 0x44 => if p.stream = 0 then none else some .read
  | 0x90 => if bitOf p.aux 4 then none else some .digest
  | _ => none

/-- Check 7: a later segment of a digest stream carries the parameters of its first (R91). -/
def State.streamCheck (s : State) (fn : Nat) (p : Packet) : Option CheckFail :=
  match p.streamKind with
  | none => if p.stream = 0 then none else some ⟨.invalidField, 7, 20⟩
  | some k => match s.ctx? fn p.stream with
    | none => some ⟨.streamUnknown, 7, 0xFFFF⟩
    | some x => match x.kind, k with
      | .write _, .write => none
      | .read _ _ _, .read => none
      | .digest d, .digest =>
        if d.alg = bitsOf p.aux 2 0 ∧ d.hmac = bitOf p.aux 3 ∧ d.key = p.fld 24 1 then none else some ⟨.invalidField, 7, 5⟩
      | .job _, _ => some ⟨.streamUnknown, 7, 0xFFFF⟩
      | .transient _, _ => some ⟨.streamUnknown, 7, 0xFFFF⟩
      | _, _ => some ⟨.wrongStreamKind, 7, 0xFFFF⟩

/-- The modes in which MODE_REQUEST takes an OP (13 R455). -/
def modeAccepts (m : Mode) (op : Nat) : Bool :=
  match op with
  | 1 => m ∈ [.service, .degraded, .thermal, .readOnly]
  | 2 => m == .maintenance
  | _ => true

/-- Check 8: what the mode shown allows (R111, R112; 08 R291; 12 R436). -/
def State.modeCheck (s : State) (p : Packet) : Option CheckFail :=
  let maint := s.modes.mode == .maintenance
  let op := p.opcode
  if s.modes.mode = .readOnly ∧ op ∈ [0x21, 0x23, 0x40, 0x41, 0x42, 0x47, 0x49] then some ⟨.readOnly, 8, 0xFFFF⟩
  else if maint && decide (0x20 ≤ op) && decide (op < 0xF0) then some ⟨.wrongMode, 8, 0xFFFF⟩
  else if op == 0xF7 && !(modeAccepts s.modes.mode (p.fld 24 1)) then some ⟨.invalidField, 8, 24⟩
  else if !maint && (op ∈ [0xFB, 0xFC, 0xFD] || (op == 0xFE && p.aux == 5) || p.keyMaint) then some ⟨.wrongMode, 8, 0xFFFF⟩
  else none

/-- Checks 1 to 8, in order: the first that fails (R89). -/
def State.checkPacket (s : State) (fn qid : Nat) (p : Packet) : Option CheckFail :=
  if !opcodes.contains p.opcode then some ⟨.invalidOpcode, 1, 0xFFFF⟩
  else (queueCheck fn qid p.opcode).or (p.headerCheck.or ((s.containerCheck fn p).or ((s.bufferCheck p).or
    ((s.bodyCheck fn p).or ((s.streamCheck fn p).or (s.modeCheck p))))))

end Sys2Proof.Machine
end

