-- ==== Sys2Proof/Machine/KeyOps.lean ====
section
/-! DEFINITION. The key store (08 R288 to R292): what a key blob says, how a slot takes a key, and the key record of
the boot flash (13 R443). -/
namespace Sys2Proof.Machine

/-- Changes the key store. -/
def State.modKeys (s : State) (f : KeyStore → KeyStore) : State := { s with keys := f s.keys }

/-! ## KEY_LOAD (R290) -/

/-- The plaintext of a blob: unwrapped under the slot that WRAP names, or as it is with its last 8 bytes checked. -/
def State.keyPlain (s : State) (p : Packet) (blob : List Byte) : Option (List Byte) :=
  if p.keyWrap = 0 then
    if blob.drop (blob.length - 8) = List.replicate 8 0xA6#8 then some (blob.take (blob.length - 8)) else none
  else match s.keys.device.look (if p.keyWrap = 1 then 0 else 2) with
    | some k => keyUnwrap k.key blob
    | none => none

/-- The usages R288 allows for a target and a length. -/
def usageOk (p : Packet) (usage : Nat) : Bool :=
  if p.keyTenant ≠ 0 then (usage == 1 && p.keyLen == 64) || usage == 2
  else if p.keyKey = 0 then usage == 4 else if p.keyKey = 1 then usage == 2 else usage == 12

/-- Check 4 of R291 on the key header. -/
def keyHeaderOk (p : Packet) (b : List Byte) : Bool :=
  let dev := p.keyTenant == 0
  usageOk p (fieldLe b 0 1) && fieldLe b 1 1 == b2n dev &&
  fieldLe b 2 2 == (if dev then p.keyKey else keySlot p.keyTenant p.keyKey) && fieldLe b 4 2 == p.keyLen &&
  zeroAt b 6 10 && b.length == 16 + p.keyLen

/-- D3 MEDIA (R289). -/
def mediaKey : List Byte := (List.range 64).map fun i => Config.mediaKey i

/-- The fingerprint of a key header and key (R292). -/
def fingerprint (b : List Byte) : List Byte := (hmacSha256 mediaKey b).take 8

/-- The first failing check of R291 with its status, or the key header and key. Check 1 is judged with the packet, and here
again as the slots stand; check 2 only with the packet (03 R115). -/
def State.keyCheck (s : State) (p : Packet) (blob : List Byte) : Except (Nat × Status) (List Byte) :=
  if (s.keyRules p).any fun r => !r.1 then .error (1, .invalidField)
  else if p.keyWrap ≠ 0 ∧ (s.keys.device.look (if p.keyWrap = 1 then 0 else 2)).isNone then .error (3, .notPermitted)
  else match s.keyPlain p blob with
    | none => .error (4, .notPermitted)
    | some b =>
      let slot := keySlot p.keyTenant p.keyKey
      if !keyHeaderOk p b then .error (4, .notPermitted)
      else if bitOf (fieldLe b 0 1) 0 ∧ (b.drop 16).take 32 = (b.drop 48).take 32 then .error (5, .invalidField)
      else if p.keyTenant ≠ 0 && (s.keys.fingerprints.look slot).any fun f => f != fingerprint b then .error (6, .notPermitted)
      else .ok b

/-- A tenant slot takes a key, and its fingerprint (R292). -/
def State.installTenant (s : State) (p : Packet) (b : List Byte) : State :=
  let slot := keySlot p.keyTenant p.keyKey
  s.modKeys fun k => { k with
    tenant := k.tenant.put slot ⟨BitVec.ofNat 4 (fieldLe b 0 1), b.drop 16⟩
    fingerprints := k.fingerprints.put slot (fingerprint b) }

/-- A device slot takes a key; the key D1 held is accepted for `FL_CFG.KEY_OVERLAP_S` seconds (12 R417). -/
def State.installDevice (s : State) (p : Packet) (b : List Byte) : State :=
  let old := (s.keys.device.look 1).map Key.key
  s.modKeys fun k => { k with
    device := k.device.put p.keyKey ⟨BitVec.ofNat 4 (fieldLe b 0 1), b.drop 16⟩
    prevD1 := if p.keyKey = 1 then (if s.regBits .flCfg 0 31 24 = 0 then none else old) else k.prevD1 }

/-- Ends a key load or erase that fails a check: KEY_LOAD_FAILED carries the check, and KS_FAIL counts checks 3 to 6. -/
def State.failKey (s : State) (c : Cmd) (check : Nat) (st : Status) : State :=
  let s := s.record 0x010E c.pkt.keySource (leBytes 1 check)
  (if check ≥ 3 then s.bump .ksFail 0 else s).fail c st

/-- The metadata sector with a first fingerprint is durable: the slot takes the key and the load is answered. -/
def State.keyDurable (s : State) (tag : Nat) : State :=
  match s.cmd? tag with
  | none => s
  | some c => match s.keyCheck c.pkt c.data with
    | .ok b => (s.installTenant c.pkt b).complete c .ok 0 0 0
    | .error e => s.failKey c e.1 e.2

/-! ## The key record (13 R443) -/

/-- The valid copy of the key record with the higher SEQ. -/
def Boot.keyRec (b : Boot) : Option KeyRecord :=
  match b.keyA, b.keyB with
  | some x, some y => some (if x.seq < y.seq then y else x)
  | some x, none => some x
  | none, y => y

/-- The fuse root key. -/
def rootKey : List Byte := (List.range 32).map fun i => Config.fuseRootKey i

/-- A device key as the key record holds it (R289): its KEY_LOAD plaintext, wrapped under the fuse root key. -/
def wrapDevice (d : Nat) (k : Key) : List Byte :=
  keyWrap rootKey (leBytes 1 k.usage.toNat ++ [1] ++ leBytes 2 d ++ leBytes 2 k.key.length ++ zeros 10 ++ k.key)

/-- A device key out of the key record; none where the unwrap fails. -/
def unwrapDevice (blob : List Byte) : Option Key :=
  (keyUnwrap rootKey blob).map fun b => ⟨BitVec.ofNat 4 (fieldLe b 0 1), b.drop 16⟩

/-- The keys D0 to D2 as the record holds them. -/
def KeyStore.record (k : KeyStore) : AMap (List Byte) :=
  (List.filter (fun e => decide (e.1 < 3)) k.device).map fun e => (e.1, wrapDevice e.1 e.2)

/-- Starts the write of a key record with the keys as they are, and the SANITIZE flag, for the command that waits. -/
def State.writeKeyRecord (s : State) (sanitize : Bool) (tag : Nat) : State :=
  { s with boot := { s.boot with ops := s.boot.ops ++ [.keyRecord ⟨0, sanitize, s.keys.record⟩ (some tag)] } }

/-- A key record has been programmed: it overwrites the copy that is not in use, with the next SEQ. -/
def Boot.putKeyRec (b : Boot) (r : KeyRecord) : Boot :=
  match b.keyRec with
  | none => { b with keyA := some { r with seq := 1 } }
  | some cur =>
    let r := { r with seq := cur.seq + 1 }
    if b.keyA = some cur then { b with keyB := some r } else { b with keyA := some r }

end Sys2Proof.Machine
end

