-- ==== Sys2Proof/Machine/SectorOps.lean ====
section
/-! DEFINITION. The sectors of a row as they go to flash (10): data, commit pages and extent lists with the media
addresses they name (R350, R352), filler (R356), parity (R354) and block summaries (R361). -/
namespace Sys2Proof.Machine

/-! ## A sector as stored -/

/-- The 64 bytes of a sector header (R347). -/
def Header.bytes (h : Header) : List Byte :=
  let b := leBytes 1 h.kind ++ leBytes 1 (b2n h.copy + 2 * b2n h.keySel + 4 * b2n h.devKey) ++ leBytes 2 h.tenant ++
    leBytes 1 h.container ++ leBytes 1 h.layout ++ leBytes 1 h.cont ++ leBytes 1 h.pclass ++ leBytes 8 h.seq ++
    leBytes 8 h.logicalLo ++ leBytes 16 h.logicalHi ++ leBytes 1 h.unitSectors ++ leBytes 1 h.unitIndex ++ zeros 18
  b ++ crcBytes b

/-- The data bytes of a sector as stored: under its key, tweaked with its DATA_SEQ and identity (08 R295); those of parity
and filler are not encrypted (R348). -/
def Sector.cipher (x : Sector) : List Byte :=
  if x.header.kind = 7 ∨ x.header.kind = 8 then padTo x.data 4096
  else
    let key := if x.header.devKey then mediaKey else x.key
    xts false key (leBytes 8 x.header.seq ++ leBytes 8 x.header.logicalLo) (padTo x.data 4096)

/-- A sector as stored: its data bytes and its header. -/
def Sector.stored (x : Sector) : List Byte := x.cipher ++ x.header.bytes

/-- Does a header's DATA_SEQ date data or a record of the device? Those of parity, filler and block summaries, which the
spec does not give, date nothing (log 129). -/
def Header.hasSeq (h : Header) : Bool := !(h.kind == 6 || h.kind == 7 || h.kind == 8)

/-! ## Places in a row -/

/-- The data members of a row, ascending by slot (R351, R353). -/
def StripeSet.dataMembers (x : StripeSet) (row : Nat) : List Member :=
  (List.range x.members.length).filterMap fun i => if x.isParity row i then none else x.members[i]?

/-- The slot and place of data position `k` of a row. -/
def StripeSet.place (x : StripeSet) (g : CardInfo) (row k : Nat) : Nat × Nat :=
  let u := max g.unit 1
  (((x.dataMembers row)[k / u]?.map Member.slot).getD 0, k % u)

/-- The media address of data position `k` of a row. -/
def StripeSet.placeAddr (x : StripeSet) (g : CardInfo) (row k : Nat) : Nat :=
  let p := x.place g row k
  match x.members.find? fun m => m.slot == p.1 with
  | some m => g.unitAddr m row p.2 0
  | none => 0

/-- The groups of a row with their first data positions. -/
def Row.placed (r : Row) : List (Nat × Group) :=
  (r.groups.foldl (fun (a : Nat × List (Nat × Group)) g => (a.1 + g.sectors.length, a.2 ++ [(a.1, g)])) (0, [])).2

/-! ## Media addresses in extent lists and commit pages -/

/-- Does a group hold a part of the extent list that a version takes with a DATA_SEQ? -/
def Group.isList (g : Group) (tenant space oid version part seq : Nat) : Bool :=
  g.owner == .extents tenant space oid version part && (g.sectors.head?.any fun e => e.1.seq == seq)

/-- The media address of sector `k` of the extent list that a version takes with a DATA_SEQ: in the row it is placed in,
or on flash. -/
def State.listAddr (s : State) (v : Version) (seq k : Nat) : Nat :=
  let part := k / 64
  let inRow := s.flash.rows.findSome? fun r =>
    if r.dead then none
    else match r.placed.find? fun p => p.2.isList v.tenant v.space v.oid v.version part seq with
      | some p => match s.set? r.set, s.geom with
        | some x, some g => some (x.placeAddr g r.index (p.1 + k % 64))
        | _, _ => none
      | none => none
  match inRow with
  | some a => a
  | none =>
    let id := match v.fresh with
      | some l => if l.seq = seq then (l.done.look part).bind fun ids => ids[k % 64]? else none
      | none => v.list[k]?
    ((id.bind s.sector?).map s.addrOf).getD 0

/-- START of the extent of block `b` of a version: the media address of its bucket, or 0 where a trim has released it. -/
def State.blockStart (s : State) (v : Version) (b : Nat) : Nat × Nat :=
  match v.parts.reverse.find? fun e => e.off / 4096 == b with
  | some e => match e.sectors.head?.bind s.sector? with
    | some x => (s.addrOf x + e.kib * 2 ^ 46, e.bucket)
    | none => (0, e.bucket)
  | none => (0, 0)

/-- Sector `k` of the extent list of a version (R350): its head and up to 170 extents of one block each. -/
def State.extentPage (s : State) (v : Version) (seq k : Nat) : List Byte :=
  let next := if k + 1 < v.listSectors then s.listAddr v seq (k + 1) else 0
  let n := min 170 (v.blockCount - 170 * k)
  leBytes 8 next ++ leBytes 2 n ++ zeros 6 ++ (List.range n).flatMap fun i =>
    let b := 170 * k + i
    let st := s.blockStart v b
    leBytes 8 st.1 ++ leBytes 4 b ++ leBytes 4 1 ++ leBytes 1 st.2 ++ zeros 7

/-- A version, visible or in commit. -/
def State.versionNamed (s : State) (tenant space oid version : Nat) : Option Version :=
  (s.versions ++ s.commits.map Commit.ver).find? fun v => v.names tenant space oid version

/-- A commit record with its EXTENT_ROOT: the media address of the extent list written with it (R352). -/
def State.sealRecord (s : State) (b : List Byte) : List Byte :=
  if fieldLe b 0 2 = 0 ∨ fieldLe b 0 2 = 2 ∨ fieldLe b 32 8 = 0 then b
  else
    let root := match s.versionNamed (fieldLe b 2 2) (fieldLe b 4 1) (fieldLe b 8 16) (fieldLe b 24 8) with
      | some v => s.listAddr v (fieldLe b 48 8) 0
      | none => 0
    let c := overlay b 56 (leBytes 8 root)
    c.take 124 ++ crcBytes (c.take 124)

/-- The sectors of a group with the addresses they name. -/
def State.sealed (s : State) (g : Group) : List (Header × List Byte) :=
  match g.owner with
  | .commits _ => g.sectors.map fun e => (e.1, (chunks 128 e.2).flatMap s.sealRecord)
  | .extents tn sp oid ver part => match s.versionNamed tn sp oid ver with
    | some v => (List.range g.sectors.length).filterMap fun i => (g.sectors[i]?).map fun e =>
        (e.1, match v.group with
          | some gi => padTo gi.bytes 4096
          | none => padTo (s.extentPage v e.1.seq (64 * part + i)) 4096)
    | none => g.sectors
  | _ => g.sectors

/-! ## Rows as programmed -/

/-- A header of a sector that belongs to no tenant: its DATA_SEQ is free, the spec giving none. -/
def bareHeader (kind lo hi addr : Nat) (dev : Bool) : Header :=
  ⟨kind, false, false, dev, 0, 0, 0, 0, 0, (Config.headerSeq addr).toNat, lo, hi, 1, 0⟩

/-- The data sectors of a row, in the order of its data positions: those of its groups, then filler (R356). -/
def State.dataSectors (s : State) (x : StripeSet) (g : CardInfo) (r : Row) : List Sector :=
  let held := r.groups.flatMap fun y => (s.sealed y).map fun e => (e, y.key)
  (List.range (x.rowCap g)).map fun k =>
    let p := x.place g r.index k
    match held[k]? with
    | some e => ⟨r.base + k, x.no, r.index, p.1, p.2, e.1.1, e.1.2, e.2⟩
    | none => ⟨r.base + k, x.no, r.index, p.1, p.2, bareHeader 8 0 0 (x.placeAddr g r.index k) false, zeros 4096, []⟩

/-- The coefficient of data unit `i` in parity unit `j` (R354). -/
def parityCoef (j i : Nat) : Nat := gfInv (j ^^^ (i + 2))

/-- Parity unit `j` at one sector place: over the ciphertext of the data units, in order of R351. -/
def parityBytes (j : Nat) (units : List (List Byte)) : List Byte :=
  gfCombine ((List.range units.length).map fun i => parityCoef j i) units

/-- The parity sectors of a row (R353, R354): P0 at position (n + r) mod N, P1 at (n + r + ⌊N ÷ 2⌋) mod N. -/
def StripeSet.paritySectors (x : StripeSet) (g : CardInfo) (r : Row) (ds : List Sector) : List Sector :=
  let n := max x.members.length 1
  let u := g.unit
  if !x.prot then []
  else (List.range 2).flatMap fun j => match x.members[(x.no + r.index + j * (n / 2)) % n]? with
    | some m => (List.range u).map fun p =>
        let units := (ds.filter fun d => d.pos == p).map Sector.cipher
        ⟨r.base + x.rowCap g + j * u + p, x.no, r.index, m.slot, p,
          bareHeader 7 x.no r.index (g.unitAddr m r.index p 0) false, parityBytes j units, []⟩
    | none => []

/-- The places of a member's block in address order: row, place in the program unit. -/
def CardInfo.blockPlaces (g : CardInfo) (m : Member) : List (Nat × Nat) :=
  sortBy (fun p => g.unitAddr m p.1 p.2 0) ((List.range g.rows).flatMap fun r => (List.range g.unit).map fun p => (r, p))

/-- The block summary of a member's block (R361): head and entries. -/
def State.summary (s : State) (x : StripeSet) (g : CardInfo) (m : Member) : List Byte :=
  let mine := s.flash.sectors.filter fun y => y.set == x.no && y.slot == m.slot
  let seqs := (mine.filter fun y => y.header.hasSeq).map fun y => y.header.seq
  let places := g.blockPlaces m
  let b := leBytes 4 0x4D534B56 ++ leBytes 4 x.no ++ leBytes 1 m.slot ++ leBytes 1 x.members.length ++
    leBytes 2 (b2n !x.prot) ++ leBytes 4 (s.flash.wear.lookD (blockKey m.slot m.chan m.die m.block) 0) ++
    leBytes 8 ((leastBy seqs id).getD 0) ++ leBytes 8 ((greatestBy seqs id).getD 0) ++ leBytes 4 places.length ++ zeros 24
  b ++ crcBytes b ++ places.flatMap fun p => match mine.find? fun y => y.row == p.1 && y.pos == p.2 with
    | some y => y.header.bytes.take 48
    | none => zeros 48

/-- The sectors of the block summary in a member's last wordline: pieces of 4,096 bytes, as many as it holds (log 129),
then filler. -/
def State.summarySectors (s : State) (x : StripeSet) (g : CardInfo) (r : Row) (m : Member) (i : Nat) : List Sector :=
  let ps := chunks 4096 (s.summary x g m)
  (List.range g.unit).map fun p =>
    let a := g.unitAddr m r.index p 0
    match ps[p]? with
    | some b => ⟨r.base + i * g.unit + p, x.no, r.index, m.slot, p,
        bareHeader 6 (mediaAddr 0 0 m.block m.die (chanNo m.slot m.chan) 0) 0 a true, padTo b 4096, []⟩
    | none => ⟨r.base + i * g.unit + p, x.no, r.index, m.slot, p, bareHeader 8 0 0 a false, zeros 4096, []⟩

/-- Every sector that a row puts on flash. -/
def State.rowSectors (s : State) (x : StripeSet) (g : CardInfo) (r : Row) : List Sector :=
  if r.index ≥ g.rows then
    (List.range x.members.length).flatMap fun i => ((x.members[i]?).map fun m => s.summarySectors x g r m i).getD []
  else
    let ds := s.dataSectors x g r
    ds ++ x.paritySectors g r ds

/-- A program has succeeded: its sectors are on flash. -/
def State.layMember (s : State) (r : Row) (slot : Nat) : State :=
  match s.set? r.set, s.geom with
  | some x, some g =>
    let l := (s.rowSectors x g r).filter fun y => y.slot == slot
    s.modFlash fun f => { f with sectors := f.sectors ++ l }
  | _, _ => s

end Sys2Proof.Machine
end

