-- ==== Sys2Proof/Machine/MediaOps.lean ====
section
/-! DEFINITION. What ends flash operations and what follows (10): programs and their failures (R355 to R357), reads and
the ladder (R359), dies, channels and cards that fail (R364), and garbage collection (R365 to R369). -/
namespace Sys2Proof.Machine

/-! ## Power of a card slot (R341, R342) -/

/-- Switches CARD_PWR_EN of a slot: from power-on the card's channels run in SDR timing mode 0 (R332). -/
def State.cardPower (s : State) (slot : Nat) (on : Bool) : State :=
  if (s.card slot).powered = on then s
  else (s.modCard slot fun c => { c with powered := on, iface := 0, odt := false, trained := false }).emit (.pin "CARD_PWR_EN" slot on)

/-- Is an operation issued to a card still running? -/
def State.cardBusy (s : State) (slot : Nat) : Bool := s.flash.ops.any fun o => o.run && o.die / 256 == slot

/-- An Offline card whose operations have finished loses its power (R342). -/
def State.offlinePower (s : State) (slot : Nat) : State :=
  let s := s.syncOps
  if (s.card slot).state = 5 ∧ !s.cardBusy slot then s.cardPower slot false else s

/-! ## Failed rows (R357, R512) -/

/-- Does an owner still wait for a group to be durable? -/
def State.awaited (s : State) (g : Group) : Bool :=
  match g.owner with
  | .write tag => (s.cmd? tag).any fun c => c.groups.contains g.id
  | .append tag => (s.cmd? tag).any fun c => c.groups.contains g.id
  | .commits ids => s.commits.any fun c => ids.contains c.id && c.phase == .paged && !c.pageDone
  | .extents tn sp oid ver part => ((s.versionNamed tn sp oid ver).bind Version.fresh).any fun l =>
      (g.sectors.head?.any fun e => e.1.seq == l.seq) && !l.done.has part
  | .record id => s.records.any fun r => r.id == id && !r.durable
  | .jobOut slot => (s.job? slot).any fun j => j.outGroups.contains g.id
  | .shard key => (s.shard? key).any fun x => !x.durable
  | .copy _ => true
  | .metadata tag => (s.cmd? tag).any fun c => c.groups.contains g.id

/-- Removes an append whose data could not be written: its stream goes on without it (R357; 02 R43). -/
def State.dropPart (s : State) (c : Cmd) : State :=
  s.modStream c.pkt.stream fun w => { w with parts := w.parts.filter fun p => p.tag != c.tag }

/-- A BLOCK_WRITE could not be written: nothing of it is ever mapped (R512; 03 R94; log 72). -/
def State.voidWrite (s : State) (c : Cmd) : State :=
  (s.modFlash fun f => { f with void := f.void ++ [c.dataSeq] }).fail c .writeFailed

/-- A commit whose page or extent list could not be written fails (02 R48). -/
def State.failCommitIds (s : State) (ids : List Nat) : State :=
  (ids.foldl (fun s i => match s.commits.find? fun c => c.id == i with
    | some c => s.commitFail c .writeFailed
    | none => s) s).pumpGroup

/-- What a group comes to that no row can hold: its command fails with WRITE_FAILED (R357, R512). -/
def State.failGroup (s : State) (g : Group) : State :=
  match g.owner with
  | .write tag => match s.cmd? tag with
    | some c => s.voidWrite c
    | none => s
  | .append tag => match s.cmd? tag with
    | some c => (((s.dropPart c).fail c .writeFailed).tryCommit c.fn c.pkt.stream).pumpGroup
    | none => s
  | .commits ids => s.failCommitIds ids
  | .extents tn sp oid ver _ =>
    let s := s.modVersion tn sp oid ver fun v => if v.list.isEmpty then v else { v with fresh := none }
    s.failCommitIds ((s.commits.filter fun c => c.ver.names tn sp oid ver && c.phase == .paged).map Commit.id)
  | .record id => match s.records.find? fun r => r.id == id with
    | some r =>
      let s := { s with records := s.records.filter fun x => x.id != id }
      let s := if r.kind = .spaceDelete then s.undelete r.tenant r.container else s
      match s.cmd? r.tag with
      | some c => s.fail c .writeFailed
      | none => s
    | none => s
  | .jobOut slot =>
    (s.modJob slot fun j => { j with outPhase := 3, ending := some (j.ending.getD (2, .writeFailed)) }).finishJob slot
  | .shard key => match s.shard? key with
    | some x => s.refuseShard x Status.writeFailed.code
    | none => s
  | .copy src => match src.head?.bind s.sector? with
    | some x => s.modSet x.set fun y => { y with victim := false }
    | none => s
  | .metadata tag => match s.cmd? tag with
    | some c => s.fail c .writeFailed
    | none => s

/-- Writes a group again into a row of another stripe set, counting the failed row. -/
def State.rewriteGroup (s : State) (r : Row) (g : Group) : State :=
  if !s.awaited g then s
  else
    let g := { g with fails := g.fails + 1 }
    if g.fails ≥ 4 then s.failGroup g
    else match s.placeGroup r.batch r.kind r.prot g with
      | some t => t
      | none => s.failGroup g

/-- Closes a set to new rows; what its open rows hold moves to a row of another set. -/
def State.closeSet (s : State) (no : Nat) : State :=
  let s := s.modSet no fun x => { x with closed := true }
  let opened := s.flash.rows.filter fun r => r.set == no && !r.issued
  let s := s.modFlash fun f => { f with rows := f.rows.filter fun r => !(r.set == no && !r.issued) }
  opened.foldl (fun s r => r.groups.foldl (fun s g => match s.placeGroup r.batch r.kind r.prot g with
    | some t => t
    | none => s.failGroup g) s) s

/-- Do other rows hold a group too (14 R464)? -/
def State.elsewhere (s : State) (row : Nat) (g : Group) : Bool :=
  (s.flash.rows.any fun r => r.id != row && !r.dead && r.groups.any fun x => x.id == g.id) ||
  s.flash.stalled.any fun x => x.group.id == g.id

/-- A program operation of a row failed (R357): every group of the row is written again elsewhere, the set is closed
and will be reclaimed at QOS 7. A block summary that fails leaves its blocks open. -/
def State.rowFailed (s : State) (id : Nat) : State :=
  match s.row? id with
  | none => s
  | some r =>
    if r.dead then s
    else
      let again := r.groups.filter fun g => !s.elsewhere id g
      let s := s.modRow id fun r => { r with dead := true }
      let s := (s.modSet r.set fun x => { x with gcMark := true, urgent := true }).closeSet r.set
      again.foldl (fun s g => s.rewriteGroup r g) s

/-- Every data row of a full set has ended: its block summaries are programmed (R361). -/
def State.summarise (s : State) (no : Nat) : State :=
  match s.set? no, s.geom with
  | some x, some g =>
    if decide (x.nextRow < g.rows) || x.summary || x.victim || (s.flash.rows.any fun r => r.set == no) || x.members.any Member.lost then s
    else
      let id := s.flash.nextRow
      (s.modFlash fun f => { f with
        nextRow := id + 1, rows := f.rows ++ [⟨id, no, g.rows, x.batch, x.kind, false, false, [], [], 0, false, false, none⟩] }).issueRow id
  | _, _ => s

/-- Removes a row that has failed once none of its programs runs. -/
def State.endRow (s : State) (id : Nat) : State :=
  match s.row? id with
  | none => s
  | some r =>
    if r.issued && (r.progs.any fun p => p.2 == .failed) && !(r.progs.any fun p => p.2 == .outstanding) then
      s.modFlash fun f => { f with rows := f.rows.filter fun x => x.id != id }
    else s

/-- A program of a row ends without success; one of a repair ends, and the unit stays lost (R364). -/
def State.programFails (s : State) (id slot : Nat) : State :=
  if (s.row? id).any fun r => r.repair.isSome then s.modFlash fun f => { f with rows := f.rows.filter fun x => x.id != id }
  else ((s.modRow id fun r => { r with progs := r.progs.put slot .failed }).rowFailed id).endRow id

/-! ## Erased sets (R366 to R369) -/

/-- The lowest DATA_SEQ on flash, record pages left out. -/
def State.lowSeq (s : State) : Nat :=
  (s.flash.sectors.filter fun x => x.header.kind != 4 && x.header.hasSeq).foldl (fun m x => min m x.header.seq) s.flash.seq

/-- Drops the records that nothing older than they needs any more, and the tombstones of objects of which no commit page
holds an older record (R369; 02 R55). -/
def State.purge (s : State) : State :=
  let low := s.lowSeq
  let recs := s.records.filter fun r => !(r.durable && decide (r.seq < low))
  let older (v : Version) : Bool := s.flash.sectors.any fun x => x.header.kind == 3 && (chunks 128 x.data).any fun b =>
    fieldLe b 0 2 != 0 && v.is (fieldLe b 2 2) (fieldLe b 4 1) (fieldLe b 8 16) && decide (fieldLe b 48 8 < v.seq)
  { s with
    records := recs
    tenants := s.tenants.mapVal fun _ t => { t with nss := t.nss.mapVal fun _ n => { n with
      map := n.mapped, trims := n.trims.filter fun x => decide (low ≤ x.seq) } }
    versions := s.versions.filter fun v => v.live || older v }

/-- Retires a block (R367): it never enters a free set again. -/
def State.retireBlock (s : State) (m : Member) : State :=
  let s := s.modFlash fun f => { f with
    bad := blockKey m.slot m.chan m.die m.block :: f.bad
    health := { f.health with grownBad := f.health.grownBad + 1 } }
  let s := ((s.modCard m.slot fun c => { c with grownBad := c.grownBad + 1 }).bump .ftCnt 6).writeRoots
  s.record 0x030A (chanNo m.slot m.chan) (leBytes 8 (mediaAddr 0 0 m.block m.die (chanNo m.slot m.chan) 0))

/-- Places again, in their order, the groups that waited for a free set (R365); one that finds none waits on. -/
def State.unstall (s : State) : State :=
  let l := s.flash.stalled
  let s := s.modFlash fun f => { f with stalled := [] }
  l.foldl (fun s x =>
    if !s.awaited x.group then s
    else match s.placeGroup x.batch x.kind x.prot x.group with
      | some t => t
      | none => s.failGroup x.group) s

/-- Frees a set whose blocks have all been erased or are lost (R366 step 5): the stripe-set table changes, and its good
blocks are erased ones. -/
def State.freeSet (s : State) (no : Nat) : State :=
  match s.set? no with
  | none => s
  | some x =>
    if x.victim && x.members.any (fun m => m.erase != 0 || m.lost) && x.members.all fun m => m.lost && m.erase != 1 || m.erase == 2 then
      let keys := (x.members.filter fun m => !m.lost).map fun m => blockKey m.slot m.chan m.die m.block
      let s := s.modFlash fun f => { f with
        sets := f.sets.filter fun y => y.no != no, sectors := f.sectors.filter fun y => y.set != no
        clean := (f.clean.filter fun k => !keys.contains k) ++ keys.filter fun k => !f.bad.contains k }
      ((((s.writeRoots.bump .ftCnt 7).purge.clearWear).settle).unstall).serve
    else s

/-- Starts the erase of every block of a set; in Power-Fail none is issued (R375). -/
def State.eraseSet (s : State) (no : Nat) : State :=
  if s.modes.powerFail then s
  else ((s.modSet no fun x => { x with members := x.members.map fun m => if m.lost then m else { m with erase := 1 } }).freeSet no).serve

/-! ## Valid sectors (R366, R371) -/

/-- The sectors that map entries, versions, streams, jobs and shards name. -/
def State.namedSectors (s : State) : List Nat :=
  let ex (l : List Extent) : List Nat := l.flatMap Extent.sectors
  (s.tenants.flatMap fun t => t.2.nss.flatMap fun n => n.2.mapped.flatMap fun e => e.2.sectors) ++
  (s.cmds.flatMap fun c => c.placed.flatMap fun e => e.2.sectors) ++
  ((s.versions ++ s.commits.map Commit.ver).flatMap fun v => ex v.parts ++ v.list ++
    ((v.fresh.map fun l => l.done.vals.flatten).getD [])) ++
  (s.ctxs.flatMap fun c => match c.kind with
    | .write w => w.parts.flatMap fun p => ex p.extents
    | _ => []) ++
  (s.jobs.flatMap fun j => ex j.outExtents ++ j.desc.inputs.flatMap fun i => match i.pin with
    | some v => ex v.parts
    | none => []) ++
  s.firon.shards.flatMap Shard.sectors

/-- Does a commit page hold a record that is still needed? -/
def State.pageNeeded (s : State) (x : Sector) : Bool :=
  (chunks 128 x.data).any fun b =>
    fieldLe b 0 2 != 0 && (s.versions ++ s.commits.map Commit.ver).any fun v =>
      v.is (fieldLe b 2 2) (fieldLe b 4 1) (fieldLe b 8 16) && v.version == fieldLe b 24 8

/-- Is a sector valid: named, or a page of the device that is needed and has no newer copy? -/
def State.validSector (s : State) (named : List Nat) (x : Sector) : Bool :=
  let k := x.header.kind
  let newest := !(s.flash.sectors.any fun y => y.header.kind == k && y.header.logicalLo == x.header.logicalLo && decide (y.id > x.id))
  if k = 1 ∨ k = 2 ∨ k = 5 then named.contains x.id
  else if k = 3 then newest && s.pageNeeded x
  else if k = 4 then newest && s.records.any fun r => r.id == x.header.logicalLo
  else k == 9 && (newest || named.contains x.id)

/-- The valid sectors of a set; those of extent lists among them are not copied but written anew. -/
def State.validOf (s : State) (no : Nat) : List Sector :=
  let named := s.namedSectors
  s.flash.sectors.filter fun x => x.set == no && s.validSector named x

/-- Erases a victim set once every copy from it is durable and no read is pending on it (R366 step 4). -/
def State.tryErase (s : State) (no : Nat) : State :=
  match s.set? no with
  | none => s
  | some x =>
    let inSet (i : Nat) : Bool := (s.sector? i).any fun y => y.set == no
    let copying := s.flash.rows.any fun r => r.groups.any fun g => match g.owner with
      | .copy src => !r.dead && src.any inSet
      | _ => false
    let waiting := s.flash.stalled.any fun y => match y.group.owner with
      | .copy src => src.any inSet
      | _ => false
    let relisting := s.versions.any fun v => v.fresh.isSome
    if x.victim && !(x.members.any fun m => m.erase != 0) && !(s.flash.reads.any fun r => inSet r.sector) && !copying && !waiting && !relisting &&
        (s.validOf no).isEmpty then s.eraseSet no
    else s

/-- Erases the victim sets that may be erased. -/
def State.tryErases (s : State) : State := ((s.flash.sets.filter StripeSet.victim).map StripeSet.no).foldl State.tryErase s

/-! ## Garbage collection (R365, R366) -/

/-- What the sectors of one group of a copy share: kind, owner, sequence, and atomic unit or object. -/
def Sector.unitKey (x : Sector) : List Nat :=
  let h := x.header
  [h.kind, h.tenant, h.container, h.seq] ++
    (if h.kind = 1 then [h.logicalLo / 64] else if h.kind = 2 then [h.logicalHi] else [h.logicalLo])

/-- Gathers valid sectors into the groups they are copied as; a sector that continues a bucket stays with the one
before it. -/
def copyGroups (l : List Sector) : List (List Sector) :=
  l.foldl (fun gs x => match gs.getLast? with
    | some g =>
      let same := (g.head?.any fun y => y.unitKey == x.unitKey) && (decide (g.length < 64) || x.header.cont != 0)
      if same then gs.dropLast ++ [g ++ [x]] else gs ++ [[x]]
    | none => [[x]]) []

/-- The sectors of a copy, with COPY set and their place in the new group (R366 step 2). -/
def copySectors (g : List Sector) : List (Header × List Byte) :=
  (List.range g.length).filterMap fun i => (g[i]?).map fun x =>
    let h := { x.header with copy := true }
    (if h.kind = 1 then { h with unitSectors := g.length, unitIndex := i } else h, x.data)

/-- Writes new extent lists, with new DATA_SEQs, for versions that a test picks (R352). -/
def State.relist (s : State) (batch qos : Nat) (p : Version → Bool) : State :=
  ((s.versions ++ s.commits.map Commit.ver).filter p).foldl (fun s v =>
    let sq := s.takeSeq
    (sq.2.placeList batch .copies v sq.1 qos true).getD s) s

/-- Places the copies of a victim set's valid sectors, and the new extent lists for those that lie in it; where no row
can be formed the set is left as it is. -/
def State.placeCopies (s : State) (no : Nat) : State :=
  match s.set? no with
  | none => s
  | some x =>
    let qos := if x.urgent then 7 else s.gcQos
    let lists := (s.flash.sectors.filter fun y => y.set == no && y.header.kind == 5).map Sector.id
    let s := s.relist x.batch qos fun v => v.list.any lists.contains && v.fresh.isNone
    let t := (copyGroups ((s.validOf no).filter fun y => y.header.kind != 5)).foldl (fun (acc : Option State) g => acc.bind fun s =>
      let ng := s.newGroup
      ng.2.placeGroup x.batch .copies x.prot
        ⟨ng.1, .copy (g.map Sector.id), copySectors g, [], 0, (g.head?.map Sector.key).getD [], qos⟩) (some s)
    match t with
    | some t => t.tryErase no
    | none => s.modSet no fun y => { y with victim := false }

/-- Renumbers the sectors of some extents. -/
def moveExtents (f : Nat → Nat) (l : List Extent) : List Extent := l.map fun e => { e with sectors := e.sectors.map f }

/-- Renumbers the sectors of a version. -/
def Version.move (f : Nat → Nat) (v : Version) : Version := { v with parts := moveExtents f v.parts }

/-- Renumbers the sectors of a write stream. -/
def WriteStream.move (f : Nat → Nat) (w : WriteStream) : WriteStream :=
  { w with parts := w.parts.map fun p => { p with extents := moveExtents f p.extents } }

/-- Renumbers the sectors of a job's pins and output. -/
def Job.move (f : Nat → Nat) (j : Job) : Job :=
  { j with
    outExtents := moveExtents f j.outExtents
    desc := { j.desc with inputs := j.desc.inputs.map fun i => { i with pin := i.pin.map (Version.move f) } } }

/-- Switches everything that names the sources of durable copies to the copies (R358, R366 step 3): each live version
that is changed takes a new extent list with a new DATA_SEQ (R352). -/
def State.switchCopies (s : State) (batch qos : Nat) (pairs : List (Nat × Nat)) : State :=
  let f (i : Nat) : Nat := match pairs.find? fun p => p.1 == i with
    | some p => p.2
    | none => i
  let moved (v : Version) : Bool := v.live && v.parts.any fun e => e.sectors.any fun i => pairs.any fun p => p.2 == i
  let ent (e : MapEntry) : MapEntry := { e with sector := f e.sector }
  let s := s.modFiron fun x => { x with shards := x.shards.map fun y => { y with sectors := y.sectors.map f } }
  let s : State := { s with
    tenants := s.tenants.mapVal fun _ t => { t with nss := t.nss.mapVal fun _ n => { n with map := n.map.mapVal fun _ e => ent e } }
    cmds := s.cmds.map fun c => { c with placed := c.placed.map fun p => (p.1, ent p.2) }
    versions := s.versions.map (Version.move f)
    commits := s.commits.map fun c => { c with ver := c.ver.move f }
    ctxs := s.ctxs.map fun c => match c.kind with
      | .write w => { c with kind := .write (w.move f) }
      | _ => c
    jobs := s.jobs.map (Job.move f) }
  s.relist batch qos fun v => moved v && s.versions.any fun w => w.names v.tenant v.space v.oid v.version

/-! ## Dies, channels, cards that fail (R342, R364) -/

/-- Changes a die. -/
def State.modDie (s : State) (key : Nat) (f : Die → Die) : State :=
  s.modFlash fun x => { x with dies := x.dies.upd key Die.init f }

/-- Units become lost: their reads go to the rebuild from parity, and a set that was open is closed. `running` tells that
operations already issued are to finish first; those that wait end at once. -/
def State.loseUnits (s : State) (hit : Member → Bool) (running : Bool) : State :=
  let hitSets := s.flash.sets.filter fun x => x.members.any fun m => hit m && !m.lost
  let sets := hitSets.map StripeSet.no
  let stays (r : FlashOpRef) : Bool := running && s.runs r
  let rows := (s.flash.rows.filter fun r => r.issued && sets.contains r.set).map Row.id
  let ends := rows.flatMap fun id => match s.row? id with
    | some r =>
      let gone := ((s.set? r.set).map fun x => (x.members.filter hit).map Member.slot).getD []
      (gone.filter fun k => r.progs.look k == some .outstanding && !stays (.program id (Fin.ofNat 24 k))).map fun k => (id, k)
    | none => []
  let lose (no : Nat) (m : Member) : Member :=
    if hit m then
      let erase := if m.erase = 1 ∧ !stays (.erase no (Fin.ofNat 24 m.slot)) then 0 else m.erase
      { m with lost := true, repair := false, erase := erase }
    else m
  let s := s.modFlash fun f => { f with
    sets := f.sets.map fun x => { x with members := x.members.map (lose x.no) }
    clean := f.clean.filter fun k => !hit ⟨k / 65536 / 256, k / 65536 / 32 % 8, k / 65536 % 32, k % 65536, false, 0, false, false⟩
    reads := f.reads.map fun r => match s.sector? r.sector with
      | some x => if (s.memberOf x).any hit && !stays (.read r.id) then
          { r with step := softStep (s.retrySteps x.slot) + 1, parity := true } else r
      | none => r }
  let s := ends.foldl (fun s e => s.programFails e.1 e.2) s
  (sets.foldl State.closeSet s).serve

/-- A card leaves service: its units are lost; what follows of capacity and mode is evaluated. -/
def State.cardLeaves (s : State) (slot : Nat) (running : Bool) : State :=
  let s := s.loseUnits (fun m => m.slot == slot) running
  let sets := s.flash.sets.map StripeSet.no
  ((sets.foldl State.freeSet s).takeUsable).settle

/-- Is a card in service? -/
def Card.serves (c : Card) : Bool := c.state == 3 || c.state == 4

/-- A card is declared Failed for a cause (R364). -/
def State.failCard (s : State) (slot cause : Nat) : State :=
  if !(s.card slot).serves then s
  else
    let s := ((s.modCard slot fun c => { c with state := 6 }).cardPower slot false).record 0x0304 slot (leBytes 1 cause)
    s.cardLeaves slot false

/-- Is every existing die of a card's channel failed? -/
def State.chanFailed (s : State) (slot chan : Nat) : Bool :=
  match (s.card slot).info with
  | some g => g.dieList.all fun d => (s.die (dieKey slot chan d)).failed
  | none => false

/-- A die is declared failed (R364): its units are lost, its sets close and are marked for garbage collection; then
its channel may have failed, and with two channels its card. -/
def State.failDie (s : State) (slot chan die : Nat) : State :=
  let key := dieKey slot chan die
  if (s.die key).failed then s
  else
    let hit (m : Member) : Bool := m.slot == slot && m.chan == chan && m.die == die
    let s := (s.modDie key fun d => { d with failed := true }).record 0x0307 (chanNo slot chan) (leBytes 1 die)
    let s := s.modFlash fun f => { f with sets := adjWhere f.sets (fun x => x.members.any hit) fun x => { x with gcMark := true } }
    let s := s.loseUnits hit false
    let s := ((s.flash.sets.map StripeSet.no).foldl State.freeSet s)
    if s.chanFailed slot chan then
      let s := s.record 0x0308 (chanNo slot chan) []
      if ((List.range 8).filter fun c => s.chanFailed slot c).length ≥ 2 then s.failCard slot 0 else s.settle
    else s.settle

/-- An operation on a die ends: failures in a row are counted, and 8 of them fail the die. -/
def State.dieResult (s : State) (m : Member) (ok : Bool) : State :=
  let key := dieKey m.slot m.chan m.die
  let s := s.modDie key fun d => { d with fails := if ok then 0 else d.fails + 1 }
  if (s.die key).fails ≥ 8 then s.failDie m.slot m.chan m.die else s

/-! ## Reads (R359, 14 R465) -/

/-- A sector has been recovered for what asked for it: it lands in the staging of the Batch that owns its card (01 R18). -/
def State.readDelivered (s : State) (r : FlashRead) : State :=
  let s := s.dropRead r.id
  match r.owner with
  | .cmd tag idx =>
    let s := match s.sector? r.sector with
      | some x => s.modCmd tag fun c => { c with staged := c.staged ++ [(x.slot / 6, 4096)] }
      | none => s
    ((s.pieceRead tag idx).finishRead tag).pump.reap
  | .slice buf => s.sliceArrived buf
  | .copy set => if s.flash.reads.any fun x => x.owner == .copy set then s else s.placeCopies set

/-- A sector could not be recovered. -/
def State.readLost (s : State) (r : FlashRead) : State :=
  let s := s.dropRead r.id
  let s := match s.sector? r.sector with
    | some x =>
      let s := (s.bump .ftCnt 3).modFlash fun f => { f with health := { f.health with unrecovered := f.health.unrecovered + 1 } }
      let s := s.modCard x.slot fun c => { c with uncorrectable := c.uncorrectable + 1 }
      s.record 0x030B (s.chanOf x) (leBytes 8 (s.addrOf x))
    | none => s
  match r.owner with
  | .cmd tag idx => ((s.missPiece tag idx).finishRead tag).pump.reap
  | .slice buf => s.sliceFailed buf .unrecoveredRead
  | .copy set =>
    let s := s.modFlash fun f => { f with reads := f.reads.filter fun x => x.owner != .copy set }
    s.modSet set fun y => { y with victim := false }

/-- The rebuild from parity succeeds (R359 step 4). -/
def State.rebuilt (s : State) (r : FlashRead) : State :=
  let s := (s.bump .ftCnt 2).modFlash fun f => { f with health := { f.health with rebuilds := f.health.rebuilds + 1 } }
  s.readDelivered r

/-- Counts a read of the ladder at its step: retries and soft decodes. -/
def State.countStep (s : State) (step rr : Nat) : State :=
  if step = 0 ∨ step > softStep rr then s
  else if step = softStep rr then s.bump .ftCnt 1
  else (s.bump .ftCnt 0).modFlash fun f => { f with health := { f.health with retries := f.health.retries + 1 } }

/-- A read of the ladder decodes: for a hard decode its setting becomes the die's. -/
def State.ladderOk (s : State) (r : FlashRead) (x : Sector) (rr : Nat) : State :=
  let s := if r.step ≤ rr then
      let k := ladderSetting r.base rr r.step
      (s.modDie (s.dieOf x) fun d => { d with retry := k, hardFails := 0, fails := 0 }).modFlash fun f =>
        { f with chanRetry := f.chanRetry.put (s.chanOf x) k }
    else s
  s.readDelivered r

/-- Replaces a read; its next step joins its channel's queue. -/
def State.setRead (s : State) (r : FlashRead) : State :=
  (s.modFlash fun f => { f with reads := adjWhere f.reads (fun x => x.id == r.id) fun _ => r }).serve

/-- A read of the ladder does not decode: the next step follows, with the rebuild from parity beside it after three
failures, or where four hard decodes on the die have failed in a row. Where the rebuild runs beside and can succeed,
which ends first is a free choice. -/
def State.ladderNext (s : State) (r : FlashRead) (x : Sector) (rr : Nat) : State :=
  let key := s.dieOf x
  let s := if r.step ≤ rr then s.modDie key fun d => { d with hardFails := d.hardFails + 1 } else s
  if r.parity && s.rebuildable x && s.choice 2 == 0 then s.tick.rebuilt r
  else s.tick.setRead { r with step := r.step + 1, parity := r.parity || decide (r.step + 1 ≥ 3) || decide ((s.die key).hardFails ≥ 4) }

/-- A flash read ends (R359). -/
def State.readDone (s : State) (r : FlashRead) (ok : Bool) : State :=
  match s.sector? r.sector with
  | none => s.dropRead r.id
  | some x =>
    let rr := s.retrySteps x.slot
    let s := s.countStep r.step rr
    let s := if r.step > softStep rr then
        if ok && s.rebuildable x then s.rebuilt r else s.readLost r
      else if ok then s.ladderOk r x rr
      else s.ladderNext r x rr
    ((s.offlinePower x.slot).tryErases).serve

/-- A read's die or card has timed out, or it waits behind an operation that is too slow: the rebuild from parity
starts at once (R359; 14 R465). -/
def State.toParity (s : State) (r : FlashRead) (alone : Bool) : State :=
  match s.sector? r.sector with
  | none => s
  | some x => s.setRead { r with
      parity := true, step := if alone then softStep (s.retrySteps x.slot) + 1 else r.step }

/-! ## Durable rows (R355) -/

/-- Commits the output object of a job whose data is durable (05 R194). -/
def State.commitJobOut (s : State) (slot : Nat) : State :=
  match s.job? slot with
  | none => s
  | some j =>
    let sp := j.desc.outSpace
    let oid := j.desc.outOid
    let l := s.latestInOrder j.tenant sp oid
    let v : Version := ⟨j.tenant, sp, oid, 0, true, false, j.records.length, 0, 1, sha256 j.records, j.outExtents, [], j.pclass, 0, none, false, [], none⟩
    let o := CommitOwner.job slot
    if !versionOk j.desc.outExpected l then s.failOwner o j.handle .commitConflict 0
    else if (l.any fun x => x.live && x.log) then s.failOwner o j.handle .notLogObject 0
    else match s.addCommit o j.handle v with
      | .error st => s.failOwner o j.handle st 0
      | .ok s => (s.modJob slot fun j => { j with outPhase := 2 }).pumpGroup

/-- A shard is durable (12 R428, R429, R433). -/
def State.shardPlaced (s : State) (key : List Byte) (ids : List Nat) : State :=
  match s.shard? key with
  | none => s
  | some x =>
    let s := (s.modShard key fun y => { y with durable := true, sectors := ids, after := .nothing }).bump .flCnt 7
    match x.after with
    | .nothing => (s.modFiron fun f => { f with pendingShards := f.pendingShards.filter (· != key) }).pumpGroup
    | .tellOrigin => s.shardStatus key 0
    | .repaired lead =>
      let g := vrecInfo x.vrec
      let me := s.firon.member
      let told := ([lead, keyOrigin key] ++ (stripeKeys g key).map fun k => s.holderOf g k).eraseDups.filter (· != me)
      let s := s.override key me
      ((told.foldl (fun s h => s.sendMsg h 0x21 (key ++ leBytes 1 me ++ zeros 7)) s).pumpGroup).settle

/-- Takes a durable group out of the groups a command waits for. -/
def State.groupOff (s : State) (tag id : Nat) : State :=
  s.modCmd tag fun c => { c with groups := c.groups.filter (· != id) }

/-- A group of an append is durable (02 R43): with the last one the append completes. -/
def State.appendDurable (s : State) (c : Cmd) (g : Group) (first : Nat) : State :=
  let h := c.pkt.stream
  let s := s.groupOff c.tag g.id
  let s := s.modStream h fun w => { w with parts := adjWhere w.parts (fun p => p.tag == c.tag) fun p =>
    { p with extents := p.extents ++ groupExtents g first p.off p.data } }
  if (s.cmd? c.tag).any fun c => c.groups.isEmpty then
    let s := s.modStream h fun w => { w with parts := adjWhere w.parts (fun p => p.tag == c.tag) fun p => { p with durable := true } }
    let s := s.modFlash fun f => { f with health := { f.health with hostWritten := f.health.hostWritten + c.pkt.dataLen } }
    ((s.complete c .ok c.pkt.dataLen 0 0).tryCommit c.fn h).pumpGroup
  else s

/-- What a durable group, whose sectors are numbered from `first`, does for its owner. -/
def State.groupDurable (s : State) (g : Group) (first : Nat) : State :=
  match g.owner with
  | .write tag =>
    let s := s.modCmd tag fun c => { c with
      groups := c.groups.filter (· != g.id)
      placed := c.placed ++ g.blocks.map fun b => (b.1, (⟨first + b.2.1, b.2.2.1, b.2.2.2, c.dataSeq⟩ : MapEntry)) }
    s.pump.reap
  | .append tag => match s.cmd? tag with
    | some c => s.appendDurable c g first
    | none => s
  | .commits ids => { s with commits := s.commits.map fun c => if ids.contains c.id then ({ c with pageDone := true }).settled else c }
  | .extents tn sp oid ver part =>
    let seq := (g.sectors.head?.map fun e => e.1.seq).getD 0
    let s := s.modVersion tn sp oid ver fun v => v.listPart seq part ((List.range g.sectors.length).map fun i => first + i)
    { s with commits := s.commits.map Commit.settled }
  | .record id => (s.recordDurable id).pumpGroup
  | .jobOut slot =>
    let s := s.modJob slot fun j => { j with
      outGroups := j.outGroups.filter (· != g.id), outExtents := j.outExtents ++ groupExtents g first 0 j.records }
    if (s.job? slot).any fun j => j.outGroups.isEmpty && j.outPhase == 1 then s.commitJobOut slot else s
  | .shard key => s.shardPlaced key ((List.range g.sectors.length).map fun i => first + i)
  | .copy src => s.switchCopies (((src.head?.bind s.sector?).bind fun x => (s.set? x.set).map StripeSet.batch).getD 0) g.qos
      ((List.range src.length).map fun i => (src.getD i 0, first + i))
  | .metadata tag => s.keyDurable tag

/-- A row is durable: every group in it takes effect. The slower of two copies marks its set (14 R464). With its last data
row ended, a full set takes its block summaries; with those durable its blocks are closed (R361). -/
def State.rowDurable (s : State) (r : Row) (x : StripeSet) (geo : CardInfo) : State :=
  let s := s.modFlash fun f => { f with rows := f.rows.filter fun y => y.id != r.id }
  let s := r.placed.foldl (fun s p =>
    if s.awaited p.2 then s.groupDurable p.2 (r.base + p.1) else s.modSet x.no fun y => { y with gcMark := true }) s
  let s := if r.index ≥ geo.rows then s.modSet x.no fun y => { y with summary := true } else s.summarise x.no
  s.tryErases.serve

end Sys2Proof.Machine
end

