-- ==== Sys2Proof/Machine/QueueCmds.lean ====
section
/-! DEFINITION. Queue pairs, doorbells, the fetching of commands and their host reads, and the administration
commands (03 R70 to R83, R100, R103, R116, R118, R511, R513; 04 R128, R146). -/
namespace Sys2Proof.Machine

/-! ## Doorbells and the admin queue pair -/

/-- Does an access reach a function's tenant registers on a port: the link is up, Discovery has ended, and the function
is in D0 with its memory space enabled (04 R121, R123; 13 R450; 15 R503)? Function 0 reaches them through BAR2. -/
def State.tfReach (s : State) (port : Port) (fn : Nat) : Bool :=
  s.mmio port && !(s.fp port fn).d3hot && (fn == 0 || ((s.hp port).vfEnable && decide (fn ≤ (s.hp port).numVfs) && (s.fp port fn).mse))

/-- The BAR that holds a function's tenant registers (04 R123). -/
def tfBar (fn : Nat) : Bar := if fn = 0 then .bar2 else .bar0

/-- Counts a doorbell write that is ignored (TF_STRAY_DB). -/
def State.strayDoorbell (s : State) (port : Port) (fn : Nat) : State :=
  s.modFp port fn fun p => { p with stray := min (p.stray + 1) 0xFFFFFFFF }

/-- Halts a queue pair (R77): an event, and QP_HALTED for the function, but for QID 0 (R78). -/
def State.haltQp (s : State) (q : QueuePair) (reason : Nat) : State :=
  let s := s.modQp q.port q.fn q.qid fun q => { q with halted := true }
  let s := s.record 0x0110 q.fn (leBytes 1 (portNum q.port) ++ leBytes 1 q.qid ++ leBytes 1 reason)
  if q.qid = 0 then s else s.asyncEvent q.port q.fn 0x0001 (q.qid + 256 * portNum q.port + 65536 * reason)

/-- The queue pair a doorbell write acts on: it exists, is not halted, and its function is usable. -/
def State.rung (s : State) (port : Port) (fn qid : Nat) : Option QueuePair :=
  (s.qp port fn qid).filter fun q => !q.halted && s.usable port fn

/-- A submission tail doorbell (R74, R76). -/
def State.sqDoorbell (s : State) (port : Port) (fn qid v : Nat) : State :=
  match s.rung port fn qid with
  | none => s.strayDoorbell port fn
  | some q => if v < 2 ^ q.sqLog2 then s.modQp port fn qid fun q => { q with sqTail := v } else s.haltQp q 1

/-- The replies a completion head doorbell releases. -/
def QueuePair.released (q : QueuePair) (v : Nat) : Nat := (v + 2 ^ q.cqLog2 - q.cqHead) % 2 ^ q.cqLog2

/-- A completion head doorbell (R74, R76). -/
def State.cqDoorbell (s : State) (port : Port) (fn qid v : Nat) : State :=
  match s.rung port fn qid with
  | none => s.strayDoorbell port fn
  | some q =>
    if v < 2 ^ q.cqLog2 ∧ q.released v ≤ q.unreleased then
      s.modQp port fn qid fun q => { q with cqHead := v, unreleased := q.unreleased - q.released v }
    else s.haltQp q 2

/-- SUBMISSION_TAIL_DOORBELL (R76). -/
def execSubmissionTailDoorbell (port : Port) (fn qid : Nat) (value : BitVec 32) (s : State) : Host.Outcome State Fault Refusal :=
  if s.tfReach port fn && decide (fn ≤ 4096) && decide (qid < 64) then
    .next ((s.otherAccess port fn (tfBar fn)).sqDoorbell port fn qid value.toNat)
  else .next s

/-- COMPLETION_HEAD_DOORBELL (R76). -/
def execCompletionHeadDoorbell (port : Port) (fn qid : Nat) (value : BitVec 32) (s : State) : Host.Outcome State Fault Refusal :=
  if s.tfReach port fn && decide (fn ≤ 4096) && decide (qid < 64) then
    .next ((s.otherAccess port fn (tfBar fn)).cqDoorbell port fn qid value.toNat)
  else .next s

/-- QP_QUOTA in force; function 0 holds its admin queue pairs only (04 R515). -/
def State.qpQuota (s : State) (fn : Nat) : Nat := if fn = 0 then 2 else bitsOf (s.tenant fn).active.limits.toNat 6 0

/-- May the function have one more queue pair (R71; 04 R135)? -/
def State.qpAllowed (s : State) (fn : Nat) : Bool :=
  decide ((s.qps.filter fun q => q.fn == fn).length < s.qpQuota fn) && decide (s.qps.length < 65536)

/-- The fields of TF_AQ_CFG. -/
def aqCfgMask : Reg := 0x3F1F1F01

/-- A new queue pair. -/
def newQp (fn : Nat) (port : Port) (qid sqBase cqBase sqLog2 cqLog2 vector irqCount irqTime weight : Nat) : QueuePair where
  fn := fn
  port := port
  qid := qid
  sqBase := sqBase
  cqBase := cqBase
  sqLog2 := sqLog2
  cqLog2 := cqLog2
  vector := vector
  irqCount := irqCount
  irqTime := irqTime
  weight := weight
  sqHead := 0
  sqTail := 0
  cqTail := 0
  phase := true
  cqHead := 0
  unreleased := 0
  halted := false
  deleting := none
  unsignalled := 0
  timing := false
  turns := weight

/-- TF_AQ_CFG written with ENABLE 1 while it is 0 (04 R128): the fields are stored; where the checks of the sizes and
the quota pass, QID 0 exists on the port, with IRQ_COUNT 0 and WEIGHT 8 (R80); otherwise ENABLE reads 0 and AQ_ERROR is
set. While a QID 0 is still being deleted, the setting fails. -/
def State.aqEnable (s : State) (port : Port) (fn : Nat) (cfg : Reg) : State :=
  let v := (cfg ||| 1) &&& aqCfgMask
  let sq := bitsOf v.toNat 12 8
  let cq := bitsOf v.toNat 20 16
  let f := s.fp port fn
  if decide (4 ≤ sq) && decide (sq ≤ 16) && decide (4 ≤ cq) && decide (cq ≤ 16) && s.qpAllowed fn && (s.qp port fn 0).isNone then
    let q := newQp fn port 0 f.asqBase.toNat f.acqBase.toNat sq cq (bitsOf v.toNat 29 24) 0 0 8
    { s.modFp port fn fun p => { p with aqCfg := v, aqError := false } with qps := s.qps ++ [q] }
  else s.modFp port fn fun p => { p with aqCfg := v &&& ~~~1#64, aqError := true }

/-- ADMIN_QP_ENABLE (04 R128): while ENABLE is 1 the write has no effect. -/
def execAdminQpEnable (port : Port) (fn : Nat) (cfg : BitVec 32) (s : State) : Host.Outcome State Fault Refusal :=
  if s.tfReach port fn && decide (fn ≤ 4096) then
    let s := s.otherAccess port fn (tfBar fn)
    if (s.fp port fn).aqCfg.getLsbD 0 then .next s else .next (s.aqEnable port fn (cfg.setWidth 64))
  else .next s

/-- Discards what was fetched from a queue pair and has not started (R511). -/
def State.dropUnstarted (s : State) (port : Port) (fn qid : Nat) : State :=
  ((s.cmds.filter fun c => c.fn == fn && c.port == port && c.qid == qid && !c.started).map Cmd.tag).foldl State.dropCmd s

/-- Starts the deletion of a queue pair (R511). -/
def State.deleteQp (s : State) (port : Port) (fn qid : Nat) (waiter : Option Nat) : State :=
  ((s.modQp port fn qid fun q => { q with deleting := some waiter }).dropUnstarted port fn qid).pump.reap

/-- TF_AQ_CFG written with ENABLE 0 while it is 1 (04 R128). -/
def State.aqDisable (s : State) (port : Port) (fn : Nat) : State :=
  (s.modFp port fn fun p => { p with aqCfg := p.aqCfg &&& ~~~1#64 }).deleteQp port fn 0 none

/-- ADMIN_QP_DISABLE (R511; 04 R128). -/
def execAdminQpDisable (port : Port) (fn : Nat) (s : State) : Host.Outcome State Fault Refusal :=
  if s.tfReach port fn && decide (fn ≤ 4096) then
    let s := s.otherAccess port fn (tfBar fn)
    if (s.fp port fn).aqCfg.getLsbD 0 then .next (s.aqDisable port fn) else .next s
  else .next s

/-! ## Fetching and starting -/

/-- The packet in 64 bytes (R84). -/
def packetOf (b : List Byte) : Packet where
  opcode := fieldLe b 0 1
  flags := fieldLe b 1 1
  cid := fieldLe b 2 2
  container := fieldLe b 4 1
  aux := fieldLe b 5 1
  reserved := fieldLe b 6 2
  dataAddr := fieldLe b 8 8
  dataLen := fieldLe b 16 4
  stream := fieldLe b 20 4
  body := sliceB b 24 40

/-- A command as it is fetched; administration and management commands have QOS 7 (09 R313). -/
def fetched (tag fn : Nat) (port : Port) (qid : Nat) (p : Packet) : Cmd where
  tag := tag
  fn := fn
  port := port
  qid := qid
  pkt := p
  started := false
  doomed := false
  want := .nothing
  pages := []
  payload := none
  launched := false
  dataSeq := 0
  pclass := 0
  qos := 7
  left := 0
  got := []
  placed := []
  groups := []
  verdict := none
  results := (0, 0)
  ref := 0

/-- The lowest free I/O QID of a function, on both ports (R71). -/
def State.freeQid (s : State) (fn : Nat) : Option Nat :=
  (firstBelow 63 fun i => !(s.qps.any fun q => q.fn == fn && q.qid == i + 1)).map (· + 1)

/-- May a function have one more I/O queue pair? Function 0 has none (R71; 04 R515). -/
def State.qpFree (s : State) (fn : Nat) : Option Nat := if fn ≠ 0 ∧ s.qpAllowed fn then s.freeQid fn else none

/-- Check 9 of R89, as far as the packet alone decides it: queue pairs, contexts and space. It holds nothing,
so a command whose turn comes later is judged again when it takes what it needs (DESIGN CHOICE, log entry 132). -/
def State.resourceCheck (s : State) (c : Cmd) : Option Status × State :=
  let need (ok : Bool) (st : Status) : Option Status × State := (if ok then none else some st, s)
  match c.pkt.opcode with
  | 0x02 => need (s.qpFree c.fn).isSome .queueLimit
  | 0x21 | 0x41 => s.needSpace c.pkt.dataLen
  | 0x40 | 0x45 | 0x72 => need (s.ctxAllowed c.fn) .ctxExhausted
  | 0x90 => need (!bitOf c.pkt.aux 4 || s.ctxAllowed c.fn) .ctxExhausted
  | 0xFD => need (s.ctxAllowed 0) .ctxExhausted
  | _ => (none, s)

/-- A command that fails a check: an APPEND or COMMIT that Read-Only refuses aborts its Open stream (R111), and a KEY_LOAD
that fails check 1 or 2 of 08 R291, which are among the checks 6 and 8, records it. -/
def State.failFetched (s : State) (c : Cmd) (e : CheckFail) : State :=
  let s := if c.pkt.opcode = 0xF8 ∧ e.check = 6 then s.record 0x010E c.pkt.keySource [1]
    else if c.pkt.opcode = 0xF8 ∧ e.check = 8 then s.record 0x010E c.pkt.keySource [2] else s
  let s := s.failCheck c e.status e.check e.field
  -- DESIGN CHOICE (log entry 69): the other started commands of the stream end with STREAM_UNKNOWN.
  if e.status = .readOnly ∧ c.pkt.opcode ∈ [0x41, 0x42] ∧ (s.stream? c.fn c.pkt.stream).any (fun w => w.state == .opened) then
    s.abortStream c.fn c.pkt.stream .streamUnknown
  else s

/-- Takes in a command that has passed the checks of R89 (R79, 09 R313, R314): it is classified where it came from an I/O
queue pair, an APPEND or COMMIT with the class of its stream's object (R315), takes its DATA_SEQ where it writes block or object data (02 R63), and starts if it may. JOB_SUBMIT is classified
from its descriptor, when that has been read. -/
def State.takeCmd (s : State) (port : Port) (fn qid tag : Nat) (p : Packet) : State :=
  let s :=
    if qid = 0 ∨ p.opcode = 0x72 then s
    else
      let cl := s.classify fn (s.classData fn port qid p)
      let pc := if p.opcode ∈ [0x41, 0x42] then ((s.stream? fn p.stream).map WriteStream.pclass).getD cl.1 else cl.1
      cl.2.modCmd tag fun c => { c with pclass := pc, qos := cl.2.classQos pc }
  let s :=
    if p.opcode ∈ [0x21, 0x23, 0x41] then s.takeSeq.2.modCmd tag fun c => { c with dataSeq := s.takeSeq.1 } else s
  match s.cmd? tag with
  | some c => if s.mayStart c then s.startCmd tag else s
  | none => s

/-- Takes in one fetched packet (R79, R89). -/
def State.takePacket (s : State) (port : Port) (fn qid : Nat) (b : List Byte) : State :=
  let p := packetOf b
  let tag := s.nextTag
  let c := fetched tag fn port qid p
  let s := { s with nextTag := tag + 1, cmds := s.cmds ++ [c] }
  match s.checkPacket fn qid p with
  | some e => s.failFetched c e
  | none =>
    let r := s.resourceCheck c
    match r.1 with
    | some st => r.2.failFetched c ⟨st, 9, 0xFFFF⟩
    | none => r.2.takeCmd port fn qid tag p

/-- *S* of R79. -/
def State.fetchedOf (s : State) (q : QueuePair) : Nat :=
  (s.cmds.filter fun c => c.fn == q.fn && c.port == q.port && c.qid == q.qid && !c.doomed).length

/-- The commands waiting in a ring. -/
def QueuePair.waiting (q : QueuePair) : Nat := (q.sqTail + 2 ^ q.sqLog2 - q.sqHead) % 2 ^ q.sqLog2

/-- May `n` commands be fetched from a queue pair in one read (R79, R80)? One read does not pass the ring's end. -/
def State.mayFetch (s : State) (q : QueuePair) (n : Nat) : Bool :=
  s.fetches && !q.halted && q.deleting.isNone && s.usable q.port q.fn && (s.hp q.port).up &&
  (q.fn == 0 || (s.tenant q.fn).state == .running) &&
  decide (1 ≤ n) && decide (n ≤ 8) && decide (n ≤ q.waiting) && decide (q.sqHead + n ≤ 2 ^ q.sqLog2) &&
  decide (s.fetchedOf q + q.unreleased + n ≤ 2 ^ q.cqLog2) && decide (s.fetchedOf q + n ≤ 512) &&
  (q.qid == 0 || !s.anyHeld (s.bankOf 1).toList)

/-! ## Turns (R80; 04 R136, R515) -/

/-- Has a queue pair commands waiting that can be fetched now? -/
def State.hungry (s : State) (q : QueuePair) : Bool := s.mayFetch q 1

/-- Has a queue pair begun its turns of a round and not ended them? -/
def QueuePair.midTurn (q : QueuePair) : Bool := decide (0 < q.turns) && decide (q.turns < q.weight)

/-- Is it a queue pair's turn within its function (R80)? The pair whose turns have begun goes on with them; else any pair
with turns left in the round; else a new round begins. Which pair comes next in a round is the sender's choice (log entry
55). -/
def State.inTurn (s : State) (q : QueuePair) : Bool :=
  let mine := s.qps.filter fun p => p.fn == q.fn && s.hungry p
  match mine.find? QueuePair.midTurn with
  | some p => p.qid == q.qid && p.port == q.port
  | none => decide (0 < q.turns) || mine.all fun p => p.turns == 0

/-- The weight of a function's fetches: function 0 has 255 (04 R133, R515). -/
def State.fnWeight (s : State) (fn : Nat) : Nat := if fn = 0 then 255 else bitsOf (s.tenant fn).active.limits.toNat 15 8

/-- A common multiple of all weights, in which shares are counted. -/
def shareUnit : Nat := (List.range 255).foldl (fun a i => Nat.lcm a (i + 1)) 1

/-- What a function has been served, by its weight; one that has had nothing waiting starts level with the others. -/
def State.share (s : State) (fn : Nat) : Nat := max (s.disp.served.lookD fn 0) s.disp.level

/-- Is it a function's turn (04 R136)? No other function with commands waiting has been served less for its weight. With
turns of 8 commands the numbers fetched for two functions then differ from their weighted shares by at most 8 (DEDUCED, log entry
136). -/
def State.inShare (s : State) (fn : Nat) : Bool := s.qps.all fun q => !s.hungry q || decide (s.share fn ≤ s.share q.fn)

/-- One turn of `n` commands: the pair has one turn fewer, none where it has run out of commands; another pair of the
function that had begun its turns and can go on no longer gives up the rest (R80); the function has had its share. -/
def State.takeTurn (s : State) (q : QueuePair) (n : Nat) : State :=
  let fresh := (s.qps.filter fun p => p.fn == q.fn && s.hungry p).all fun p => p.turns == 0
  let after (p : QueuePair) : QueuePair :=
    if p.fn ≠ q.fn then p
    else if p.qid = q.qid ∧ p.port = q.port then
      { p with turns := if p.waiting = n then 0 else (if fresh then p.weight else p.turns) - 1 }
    else if fresh then { p with turns := p.weight }
    else if p.midTurn then { p with turns := 0 } else p
  let level := s.share q.fn
  { s with
    qps := s.qps.map after
    disp := { level := level, served := s.disp.served.put q.fn (level + n * shareUnit / max 1 (s.fnWeight q.fn)) } }

/-- COMMAND_FETCH: one turn of a queue pair (R79, R80; 04 R136), with the bytes its read returned. -/
def execCommandFetch (port : Port) (fn qid : Nat) (bytes : List Byte) (s : State) : Host.Outcome State Fault Refusal :=
  match s.qp port fn qid with
  | none => .next s
  | some q =>
    let n := bytes.length / 64
    if bytes.length % 64 = 0 ∧ s.mayFetch q n ∧ s.inTurn q ∧ s.inShare fn then
      let s := (s.takeTurn q n).readHost port fn (.ring port fn qid) (q.sqBase + 64 * q.sqHead) bytes.length
      let s := s.modQp port fn qid fun q => { q with sqHead := (q.sqHead + n) % 2 ^ q.sqLog2 }
      .next ((chunks 64 bytes).foldl (fun s b => s.takePacket port fn qid b) s)
    else .next s

/-- COMMAND_START (R99, R100): a fetched command that waited starts. -/
def execCommandStart (tag : Nat) (s : State) : Host.Outcome State Fault Refusal :=
  match s.cmd? tag with
  | none => .next s
  | some c => if !c.started && s.mayStart c then .next (s.startCmd tag) else .next s

/-! ## Host memory reads -/

/-- Counts on a host port (HP_CNT). -/
def State.hpCount (s : State) (port : Port) (j : Nat) : State := s.bump .hpCnt (6 * portNum port + j)

/-- Reports a failed host read (15 R504): by AER of the function, and counted. -/
def State.readError (s : State) (port : Port) (fn : Nat) (error : String) (j : Nat) : State :=
  (s.emit (.aer port fn error)).hpCount port j

/-- May a ring fetch of a queue pair be outstanding: was one possible since start-up, whatever the mode now? -/
def State.fetching (s : State) (q : QueuePair) : Bool :=
  s.modes.running && !q.halted && q.deleting.isNone && decide (1 ≤ q.waiting)

/-- A ring fetch fails: the queue pair halts with reason 3 (R77, R78, R116, R118). -/
def State.ringFails (s : State) (port : Port) (fn qid : Nat) (error : String) (j : Nat) : State :=
  match s.qp port fn qid with
  | none => s
  | some q => if s.fetching q then (s.readError port fn error j).haltQp q 3 else s

/-- RING_FETCH_TIMEOUT (R116). -/
def execRingFetchTimeout (port : Port) (fn qid : Nat) (s : State) : Host.Outcome State Fault Refusal :=
  .next (s.ringFails port fn qid "Completion Timeout" 2)

/-- Ends a command that had only started with a failure; a COMMIT that waited for it goes on (02 R46). -/
def State.failStarted (s : State) (c : Cmd) (st : Status) (check : Nat := 0) (field : Nat := 0xFFFF) : State :=
  let s := s.failCheck c st check field
  if c.pkt.opcode = 0x41 then (s.tryCommit c.fn c.pkt.stream).pumpGroup else s

/-- A command whose row has been carried out, and whose payload is read again, loses it (02 R66; 08 R285): what it has placed
takes no effect. -/
def State.unplace (s : State) (c : Cmd) : State :=
  if !c.launched then s
  else if c.pkt.opcode = 0x21 then s.modFlash fun f => { f with void := f.void ++ [c.dataSeq] }
  else if c.pkt.opcode = 0x41 then s.modStream c.pkt.stream fun w => { w with parts := w.parts.filter fun p => p.tag != c.tag }
  else s

/-- A host read of a command fails (R116, R118): HOST_DMA_ERROR. -/
def State.dmaFails (s : State) (tag : Nat) (error : String) (j : Nat) : State :=
  match s.cmd? tag with
  | none => s
  | some c => if c.want = .nothing then s else ((s.readError c.port c.fn error j).unplace c).failStarted c .hostDmaError

/-- HOST_DMA_TIMEOUT (R116). -/
def execHostDmaTimeout (tag : Nat) (s : State) : Host.Outcome State Fault Refusal := .next (s.dmaFails tag "Completion Timeout" 2)

/-- The data of a command's host read (R87): the page list, whose entries must be multiples of 4,096, or the payload. A
function that is not usable when its list is here reads no payload (04 R121). -/
def State.hostData (s : State) (tag : Nat) (b : List Byte) : State :=
  match s.cmd? tag with
  | none => s
  | some c => match c.want with
    | .nothing => s
    | .pageList =>
      let pages := (chunks 8 b).map leNat
      if b.length ≠ 8 * ((c.pkt.dataLen + 4095) / 4096) then s
      else if pages.any fun p => p % 4096 != 0 then s.failStarted c .invalidBuffer 5 8
      else
        let c := { c with pages := pages, want := if c.pkt.inbound then .payload else .nothing }
        let s := s.modCmd tag fun _ => c
        if c.want = .payload then
          if s.usable c.port c.fn then s.readPayload c else s.failStarted c .hostDmaError
        else s
    | .payload =>
      if b.length = c.pkt.dataLen then s.modCmd tag fun c => { c with payload := some b, want := .nothing } else s

/-- A translation comes back: bits 63:12 of its first 8 bytes are the page (04 R124). -/
def State.takeTranslation (s : State) (port : Port) (fn page : Nat) (b : List Byte) : State :=
  if (s.fp port fn).pci.atsOn ∧ b.length = 8 then
    s.modFp port fn fun p => { p with ats := p.ats.put page (leNat b / 4096) }
  else s

/-- HOST_READ_COMPLETION (R118; 15 R504). The data of a ring fetch comes with COMMAND_FETCH. A translation request that fails
leaves the page without one. -/
def execHostReadCompletion (who : ReadOwner) (result : HostRead) (s : State) : Host.Outcome State Fault Refusal :=
  match who, result with
  | .ring _ _ _, .data _ => .next s
  | .ring port fn qid, .unsupportedRequest => .next (s.ringFails port fn qid "Unsupported Request" 3)
  | .ring port fn qid, .completerAbort => .next (s.ringFails port fn qid "Completer Abort" 3)
  | .ring port fn qid, .poisoned => .next (s.ringFails port fn qid "Poisoned TLP Received" 4)
  | .ats port fn page, .data b => .next (s.takeTranslation port fn page b)
  | .ats port fn _, .unsupportedRequest => .next (s.readError port fn "Unsupported Request" 3)
  | .ats port fn _, .completerAbort => .next (s.readError port fn "Completer Abort" 3)
  | .ats port fn _, .poisoned => .next (s.readError port fn "Poisoned TLP Received" 4)
  | .cmd tag, .data b => .next (s.hostData tag b)
  | .cmd tag, .unsupportedRequest => .next (s.dmaFails tag "Unsupported Request" 3)
  | .cmd tag, .completerAbort => .next (s.dmaFails tag "Completer Abort" 3)
  | .cmd tag, .poisoned => .next (s.dmaFails tag "Poisoned TLP Received" 4)

/-- IRQ_COALESCE_TIMEOUT (R83). -/
def execIrqCoalesceTimeout (port : Port) (fn qid : Nat) (s : State) : Host.Outcome State Fault Refusal :=
  match s.qp port fn qid with
  | none => .next s
  | some q =>
    if q.timing then
      .next ((s.modQp port fn qid fun q => { q with unsignalled := 0, timing := false }).sendOrHold
        ⟨fn, port, .msix port fn q.vector 0 0, none⟩)
    else .next s

/-! ## Administration commands -/

/-- NOP (R90). -/
def execNop (tag : Nat) (s : State) : Host.Outcome State Fault Refusal :=
  match s.ready tag 0x00 with
  | none => .next s
  | some c => .next (s.complete c .ok 0 0 0)

/-- An IDENTIFY of an AUX, ready to run. -/
def State.identifyCmd (s : State) (tag aux : Nat) : Option Cmd := (s.ready tag 0x01).filter fun c => c.pkt.aux == aux

/-- The state of a tenant as registers show it (04 R127). -/
def TenantState.num : TenantState → Nat
  | .disabled => 0
  | .running => 1
  | .stopped => 2

/-- The bytes of IDENTIFY AUX 0 (04 R146). -/
def State.identifyDevice (s : State) : List Byte :=
  padTo ("VK6410".toList.map fun c => BitVec.ofNat 8 c.toNat) 16 ++ (List.range 16).map Config.serial ++
  leBytes 8 s.cfg.fwActive.version ++ leBytes 1 (b2n Config.gradeAx) ++ leBytes 1 s.modes.mode.num ++ zeros 2 ++
  leBytes 2 4096 ++ leBytes 2 64 ++ leBytes 4 65536 ++ leBytes 4 262144 ++ leBytes 8 s.flash.usable ++
  leBytes 8 3000000000 ++ leBytes 8 7812500000 ++ leBytes 4 1048576 ++ leBytes 2 64 ++ leBytes 1 40

/-- The bytes of IDENTIFY AUX 1 for a function on a port (04 R146, R515). -/
def State.identifyFunction (s : State) (port : Port) (fn : Nat) : List Byte :=
  let a := (s.tenant fn).active
  let keys := b2n (s.keys.tenant.has (keySlot fn 0)) + 2 * b2n (s.keys.tenant.has (keySlot fn 1))
  if fn = 0 then
    leBytes 2 0 ++ leBytes 1 (portNum port) ++ leBytes 1 1 ++ leBytes 2 0 ++ leBytes 1 2 ++ leBytes 1 255 ++ leBytes 4 2
  else
    leBytes 2 fn ++ leBytes 1 (portNum port) ++ leBytes 1 (s.tenant fn).state.num ++
    leBytes 2 (s.fp port fn).generation.toNat ++ leBytes 1 (bitsOf a.limits.toNat 6 0) ++
    leBytes 1 (bitsOf a.limits.toNat 15 8) ++ leBytes 4 (bitsOf a.ctx.toNat 18 0) ++ leBytes 4 (bitsOf a.resv.toNat 18 0) ++
    leBytes 4 (bitsOf a.inact.toNat 21 0) ++ leBytes 4 (bitsOf a.sieve.toNat 16 0) ++ leBytes 1 keys

/-- Bits 0 to 15 set where a test holds. -/
def map16 (p : Nat → Bool) : Nat := (List.range 16).foldl (fun m i => m + 2 ^ i * b2n (p i)) 0

/-- The bytes of IDENTIFY AUX 2 (04 R146). -/
def State.identifyContainers (s : State) (fn : Nat) : List Byte :=
  if fn = 0 then []
  else
    leBytes 2 (map16 fun i => (s.space? fn i).isSome) ++ leBytes 2 (map16 fun i => (s.ns? fn i).isSome) ++ zeros 12 ++
    ((List.range 16).flatMap fun i => match s.space? fn i with
      | some x => leBytes 8 x.byteQuota ++ leBytes 8 x.objectQuota
      | none => zeros 16) ++
    (List.range 16).flatMap fun i => leBytes 8 (((s.ns? fn i).map Namespace.size).getD 0)

/-- The bytes of IDENTIFY AUX 3 (04 R146). -/
def State.identifyUsage (s : State) (fn : Nat) : List Byte :=
  if fn = 0 then []
  else
    leBytes 4 (s.ctxHeld fn) ++ leBytes 4 (s.qps.filter fun q => q.fn == fn).length ++ leBytes 8 (s.privUsed fn).length ++
    ((List.range 16).flatMap fun i => match s.space? fn i with
      | some _ => leBytes 8 (s.spaceBytes fn i) ++ leBytes 8 (s.spaceObjects fn i)
      | none => zeros 16) ++
    (List.range 16).flatMap fun i => leBytes 8 (((s.ns? fn i).map fun n => n.mapped.length).getD 0)

/-- IDENTIFY AUX 0 (04 R146). -/
def execIdentifyDevice (tag : Nat) (s : State) : Host.Outcome State Fault Refusal :=
  match s.identifyCmd tag 0 with
  | none => .next s
  | some c => .next (s.deliver c (padTo s.identifyDevice 4096) 0 0 0)

/-- IDENTIFY AUX 1. -/
def execIdentifyFunction (tag : Nat) (s : State) : Host.Outcome State Fault Refusal :=
  match s.identifyCmd tag 1 with
  | none => .next s
  | some c => .next (s.deliver c (padTo (s.identifyFunction c.port c.fn) 4096) 0 0 0)

/-- IDENTIFY AUX 2. -/
def execIdentifyContainers (tag : Nat) (s : State) : Host.Outcome State Fault Refusal :=
  match s.identifyCmd tag 2 with
  | none => .next s
  | some c => .next (s.deliver c (padTo (s.identifyContainers c.fn) 4096) 0 0 0)

/-- IDENTIFY AUX 3. -/
def execIdentifyUsage (tag : Nat) (s : State) : Host.Outcome State Fault Refusal :=
  match s.identifyCmd tag 3 with
  | none => .next s
  | some c => .next (s.deliver c (padTo (s.identifyUsage c.fn) 4096) 0 0 0)

/-- CREATE_QP (R72): function 0 may have none (04 R515). -/
def execCreateQp (tag : Nat) (s : State) : Host.Outcome State Fault Refusal :=
  match s.ready tag 0x02 with
  | none => .next s
  | some c =>
    match s.qpFree c.fn with
    | none => .next (s.failCheck c .queueLimit 9 0xFFFF)
    | some qid =>
      let f := c.pkt.fld
      let q := newQp c.fn c.port qid (f 24 8) (f 32 8) (f 40 1) (f 41 1) (f 42 1) (f 43 1) (f 44 2) (f 46 1)
      .next (({ s with qps := s.qps ++ [q] }).complete c .ok qid 0 0)

/-- DELETE_QP (R511): a queue pair of the function on the same port. One whose deletion runs already is named by its QID no
longer (DESIGN CHOICE, log entry 138: the spec does not say from when). -/
def execDeleteQp (tag : Nat) (s : State) : Host.Outcome State Fault Refusal :=
  match s.ready tag 0x03 with
  | none => .next s
  | some c =>
    let qid := c.pkt.fld 24 1
    match s.qp c.port c.fn qid with
    | none => .next (s.fail c .invalidField)
    | some q =>
      if q.deleting.isSome then .next (s.fail c .invalidField)
      else .next ((s.launch tag).deleteQp c.port c.fn qid (some tag))

/-- The bytes of a slot of a function error log (R92). -/
def State.errSlot (s : State) (fn i : Nat) : List Byte :=
  match (s.tenant fn).errors.find? fun e => (e.number - 1) % 1024 == i with
  | some e => e.bytes
  | none => zeros 64

/-- GET_LOG AUX 0 (R92). -/
def execGetLogError (tag : Nat) (s : State) : Host.Outcome State Fault Refusal :=
  match s.ready tag 0x04 with
  | none => .next s
  | some c =>
    if c.pkt.aux ≠ 0 then .next s
    else
      let first := c.pkt.fld 24 8 / 64
      .next (s.deliver c ((List.range (c.pkt.dataLen / 64)).flatMap fun i => s.errSlot c.fn (first + i)) c.pkt.dataLen 0 0)

/-- The fetched and unstarted command that an ABORT names (R103). -/
def State.abortTarget (s : State) (c : Cmd) : Option Cmd :=
  s.cmds.find? fun x => x.fn == c.fn && x.port == c.port && x.qid == c.pkt.fld 24 1 && x.pkt.cid == c.pkt.fld 26 2 && !x.started

/-- ABORT (R103). -/
def execAbort (tag : Nat) (s : State) : Host.Outcome State Fault Refusal :=
  match s.ready tag 0x05 with
  | none => .next s
  | some c => match s.abortTarget c with
    | some x => .next ((s.fail x .abortedByRequest).complete c .ok 1 0 0)
    | none => .next (s.complete c .ok 0 0 0)

/-- Answers a waiting ASYNC_EVENT request with the oldest held event (R78). -/
def State.answerHeld (s : State) (c : Cmd) : State :=
  let p := s.fp c.port c.fn
  match p.events with
  | [] => s
  | e :: rest =>
    (s.modFp c.port c.fn fun p => { p with events := rest, lost := false }).complete c .ok (e.1 + 2 ^ 31 * b2n p.lost) e.2 0

/-- ASYNC_EVENT (R78, R116, R513): a held event answers it at once; a fifth request outstanding on one function and
port fails. -/
def execAsyncEvent (tag : Nat) (s : State) : Host.Outcome State Fault Refusal :=
  match s.ready tag 0x06 with
  | none => .next s
  | some c =>
    let out := (s.cmds.filter fun x => x.fn == c.fn && x.port == c.port && x.pkt.opcode == 0x06 && x.launched && !x.doomed).length
    if out ≥ 4 then .next (s.failCheck c .queueLimit 9 0xFFFF)
    else if s.modes.fwSwitched || (s.fp c.port c.fn).events.isEmpty then .next (s.launch tag)
    else .next (s.answerHeld c)

end Sys2Proof.Machine
end

