-- ==== Sys2Proof/Machine/TenantOps.lean ====
section
/-! DEFINITION. Resets of functions and tenants (03 R104 to R108; 04 R125, R126) and the settings of a tenant
(04 R133, R134). -/
namespace Sys2Proof.Machine

/-! ## Path resets -/

/-- Has a started command a safe point to run to (03 R106): a write, append, commit, delete or deallocation whose row
has been carried out? -/
def Cmd.runsOn (c : Cmd) : Bool := c.launched && c.pkt.writes

/-- A COMMIT that waits for its appends and is not accepted: its stream returns to Open (03 R106). -/
def State.reopen (s : State) (c : Cmd) : State :=
  if c.pkt.opcode = 0x42 ∧ c.launched ∧ !(s.commits.any fun x => x.handle == c.pkt.stream) then
    s.modStream c.pkt.stream fun w => { w with state := .opened }
  else s

/-- What a reset does to one command of its function and port (03 R105, R106): what has not started goes; a write that
runs on posts no reply; the rest stops. -/
def State.resetCmd (s : State) (c : Cmd) : State :=
  let s := s.reopen c
  if c.runsOn && (c.pkt.opcode != 0x42 || s.commits.any fun x => x.handle == c.pkt.stream) then
    s.modCmd c.tag fun c => { c with doomed := true }
  else s.dropCmd c.tag

/-- Ends a job by a reset (03 R105; 05 R198): no reply, no summary and no output version. -/
def State.resetJob (s : State) (slot : Nat) : State := (s.dropJobCommit slot).killJob slot

/-- The jobs of a tenant that pass a test. -/
def State.jobsOf (s : State) (n : Nat) (p : Job → Bool) : List Nat := (s.jobs.filter fun j => j.tenant == n && p j).map Job.slot

/-- The registers of a function that a reset of it on a port returns to their reset values, with what it held there
(03 R78, R105; 08 R287). -/
def FnPort.wiped (p : FnPort) : FnPort :=
  { p with asqBase := 0, acqBase := 0, aqCfg := 0, aqError := false, resetting := true, results := [], events := [] }

/-- A reset of tenant function `n` on a port (03 R105). -/
def State.pathReset (s : State) (port : Port) (n : Nat) : State :=
  let s := s.modFp port n fun p => { p.wiped with generation := p.generation + 1 }
  let jobTags := (s.jobs.filter fun j => j.tenant == n).map Job.tag
  let mine := s.cmds.filter fun c => c.fn == n && c.port == port && !c.doomed && !(jobTags.contains c.tag)
  let s := mine.foldl State.resetCmd s
  let s := (s.jobsOf n fun j => j.port == port).foldl State.resetJob s
  let digests := (s.ctxs.filter fun c => c.tenant == n && c.port == port && match c.kind with
    | .digest _ => true
    | _ => false).map Ctx.handle
  let s := digests.foldl State.closeCtx s
  let s := { s.dropHeld port n with qps := s.qps.filter fun q => !(q.fn == n && q.port == port) }
  let waits := (s.ctxs.filter fun c => c.tenant == n && match c.kind with
    | .write w => w.state == .committing
    | _ => false).map Ctx.handle
  (waits.foldl (fun s h => s.tryCommit n h) s).sweepCommitted.pruneVersions.pump.reap.pumpGroup

/-- The reset of function 0 on a port (04 R125): its admin queue pair goes, its unstarted commands are discarded, and
its started ones run on without a reply. -/
def State.mgmtReset (s : State) (port : Port) : State :=
  let s := s.modFp port 0 fun p => { p with asqBase := 0, acqBase := 0, aqCfg := 0, aqError := false, resetting := true }
  let mine := s.cmds.filter fun c => c.fn == 0 && c.port == port && !c.doomed
  let s := mine.foldl (fun s c =>
    if c.started && c.pkt.opcode != 0x06 then s.modCmd c.tag fun c => { c with doomed := true } else s.dropCmd c.tag) s
  let s := { s.dropHeld port 0 with qps := s.qps.filter fun q => !(q.fn == 0 && q.port == port) }
  s.pump.reap

/-- A function's configuration space at its reset values: an FLR of the function, and the end of SR-IOV's enable, return it
to them, with its MSI-X table and translations (PRESUMED, log entry 133: PCIe's rule; the spec names VF Enable and
NumVFs). -/
def FnPort.unconfigured (p : FnPort) : FnPort :=
  { p with mse := false, bme := false, d3hot := false, msix := [], pba := 0, pci := {}, ats := [] }

/-- The tenant functions enabled on a port. -/
def HostPort.enabledVfs (h : HostPort) : Nat := if h.vfEnable then min h.numVfs 4096 else 0

/-- Sets VF Enable and NumVFs of a port: every function no longer enabled takes a path reset (04 R125). -/
def State.setVfs (s : State) (port : Port) (enable : Bool) (num : Nat) : State :=
  let old := (s.hp port).enabledVfs
  let s := s.modHp port fun h => { h with vfEnable := enable, numVfs := num }
  let new := (s.hp port).enabledVfs
  ((List.range (old - new)).map fun i => new + 1 + i).foldl (fun s n => (s.pathReset port n).modFp port n FnPort.unconfigured) s

/-- An FLR of function 0 on a port, with what it does to the virtual functions (04 R125). -/
def State.flrMgmt (s : State) (port : Port) : State :=
  (((s.mgmtReset port).setVfs port false 0).modFp port 0 FnPort.unconfigured).modHp port fun h => { h with bus := 0, vfBar0 := 0 }

/-- Is a function of a port still being reset: a command of the generation that the reset ended runs (04 R126)? -/
def State.resetBusy (s : State) (port : Port) (fn : Nat) : Bool :=
  s.cmds.any fun c => c.fn == fn && c.port == port && c.doomed

/-! ## Tenant resets -/

/-- NOTIFY (03 R107): every fetched and unstarted command of the tenant is answered with ABORTED_RESET, under the new
generation. -/
def State.notifyReset (s : State) (n : Nat) : State :=
  (s.cmds.filter fun c => c.fn == n && !c.started).foldl (fun s c => s.finish c .abortedReset 0 0 0) s

/-- The streams that a tenant reset aborts (03 R107): Open write streams, read streams and digest streams. -/
def State.openHandles (s : State) (n : Nat) : List Nat :=
  (s.ctxs.filter fun c => c.tenant == n && match c.kind with
    | .write w => w.state == .opened
    | .read _ _ _ => true
    | .digest _ => true
    | _ => false).map Ctx.handle

/-- A tenant reset (03 R107): it also unloads the tenant's programs (05 R165). Where the link is down or the function is not
usable, the replies of NOTIFY are held, and then dropped and counted by the reset itself (R117; DESIGN CHOICE, log entry
139: the spec does not say what becomes of them). -/
def State.tenantReset (s : State) (n : Nat) (notify : Bool) : State :=
  let bump (s : State) (port : Port) : State := s.modFp port n fun p => { p with generation := p.generation + 1 }
  let unbump (s : State) (port : Port) : State := s.modFp port n fun p => { p with generation := p.generation - 1 }
  let s := if notify then unbump (unbump ((bump (bump s .a) .b).notifyReset n) .a) .b else s
  let s := (s.pathReset .a n).pathReset .b n
  let s := (s.jobsOf n fun _ => true).foldl State.resetJob s
  let s := s.modTenant n fun t => { t with programs := [] }
  ((s.openHandles n).foldl (fun s h => s.abortStream n h .streamUnknown) s).pruneVersions.pumpGroup

/-! ## Settings (R133, R134) -/

/-- The shadow registers in offset order: offset ÷ 4 within the block, and whether the value is in range (R134). -/
def State.settingsOk (s : State) (n : Nat) : List (Nat × Bool) :=
  let t := s.tenant n
  let x := t.shadow
  let v (r : Reg) (hi lo : Nat) : Nat := bitsOf r.toNat hi lo
  let quota := v x.ctx 18 0
  let resv := v x.resv 18 0
  let unused := (s.tenants.filter fun e => e.1 != n).foldl (fun a e => a + (s.ctxReserve e.1 - s.ctxHeld e.1)) 0
  let regions := (s.otherRegions n).foldl (fun a r => a + r.2) 0
  let high := (s.privUsed n).foldl (fun m i => max m (i + 1)) 0
  [(8, decide (1 ≤ v x.limits 6 0) && decide (v x.limits 6 0 ≤ 64) && decide (1 ≤ v x.limits 15 8)),
   (9, decide (1 ≤ quota) && decide (quota ≤ 262144)),
   (10, decide (resv ≤ quota) && decide (unused + (resv - s.ctxHeld n) ≤ s.ctxFree)),
   (11, decide (10 ≤ v x.inact 21 0) && decide (v x.inact 21 0 ≤ 3600000)),
   (12, decide (v x.sieve 16 0 ≤ 65536) && decide (regions + max (v x.sieve 16 0) high ≤ s.privCap))]

/-- Checks the shadow settings and applies them in one step, with the tenant's Sieve region (R134; 09 R321); where one
fails, REJECT names it and nothing else changes. -/
def State.applySettings (s : State) (n : Nat) : Option State × State :=
  match (s.settingsOk n).find? fun x => !x.2 with
  | some x => (none, s.modTenant n fun t => { t with reject := x.1 })
  | none =>
    let s := s.modTenant n fun t => { t with active := t.shadow, reject := 0, enabled := true, state := .running }
    (some (s.sizeRegion n (bitsOf (s.tenant n).active.sieve.toNat 16 0)), s)

end Sys2Proof.Machine
end

