-- ==== Sys2Proof/Machine/ModeCmds.lean ====
section
/-! DEFINITION. Quiesce, Maintenance and MODE_REQUEST (13 R453 to R455), and the requests of DEV_CTRL. -/
namespace Sys2Proof.Machine

/-- The modes in which R454 and R455 accept ENTER_QUIESCE. -/
def Mode.takesQuiesce : Mode → Bool
  | .service | .degraded | .thermal | .maintenance | .readOnly => true
  | _ => false

/-- Answers a command with DEV_MODE and DEV_FLAGS as they stand (R455). -/
def State.answerMode (s : State) (tag : Nat) : State :=
  match s.cmd? tag with
  | some c => s.complete c .ok s.devMode s.devFlags 0
  | none => s

/-- Answers the ENTER_MAINT commands once Maintenance is shown (R455). -/
def State.answerMaint (s : State) : State :=
  if s.modes.mode = .maintenance then
    let l := s.modes.maintWait
    l.foldl State.answerMode (s.modModes fun m => { m with maintWait := [] })
  else s

/-- Answers the ENTER_QUIESCE commands that wait. -/
def State.answerQuiesce (s : State) : State :=
  let l := s.modes.quiesceWait
  l.foldl State.answerMode (s.modModes fun m => { m with quiesceWait := [] })

/-- Ends the Quiesce of a request (R454): ENTER_QUIESCE commands that still wait are answered. -/
def State.endQuiesce (s : State) : State :=
  ((s.modModes fun m => { m with quiesceReq := false }).settle.answerQuiesce).answerMaint.pump

/-- The slot an FW_ACTIVATE starts, as its command holds it (R457). -/
def Cmd.fwSlot (c : Cmd) : Nat := c.ref - 1

/-- What DRAINED lets go on (R454, R455, R110): ENTER_QUIESCE is answered, ENTER_MAINT sets MAINT and clears QUIESCE,
and FW_ACTIVATE goes on to step 3, which writes the boot selector. -/
def State.drainDone (s : State) : State :=
  let s := s.answerQuiesce
  let s := match s.modes.fwWait.bind s.cmd? with
    | some c =>
      if s.modes.fwSwitched then s
      else
        let s := s.modModes fun m => { m with fwSwitched := true }
        { s with boot := { s.boot with ops := s.boot.ops ++ [SpiOp.bootSel ⟨0, c.fwSlot⟩] } }
    | none => s
  if s.modes.quiesceMaint then
    ((s.modModes fun m => { m with maint := true, quiesceMaint := false }).settle).answerMaint
  else s

/-- Adds a cause of QUIESCE; where the drain has ended already, what it lets go on goes on at once. -/
def State.quiesceFor (s : State) (f : Modes → Modes) : State :=
  let s := (s.modModes f).settle
  if s.modes.mode = .quiesce ∧ s.modes.drained then s.drainDone else s

/-- Does a started command hold up the drain (R109)? Not one that answers an event or waits for the drain itself, and not
one that only waits for commands that have not started. -/
def State.holdsDrain (s : State) (c : Cmd) : Bool :=
  c.started && !(c.launched && (c.pkt.opcode == 0x06 || c.pkt.opcode == 0xF6 || c.pkt.opcode == 0xF7 || c.pkt.opcode == 0x03)) &&
  !(c.launched && c.groups.isEmpty && (c.pkt.opcode == 0x21 || c.pkt.opcode == 0x22) && (s.earlier c).any fun e => !e.started)

/-- Enters Quiesce by request (R454). -/
def State.quiesceRequest (s : State) (port : Port) : State :=
  if s.modes.mode.takesQuiesce && s.modes.running then s.quiesceFor fun m => { m with quiesceReq := true }
  else s.rejectSetting port 0x10 1

/-- Ends a Quiesce by request (R454). -/
def State.quiesceRelease (s : State) (port : Port) : State :=
  let m := s.modes
  if m.mode = .quiesce ∧ m.quiesceReq ∧ !m.quiesceMaint ∧ !m.quiesceFw then s.endQuiesce else s.rejectSetting port 0x10 2

/-- QUIESCE_ENTER. -/
def execQuiesceEnter (port : Port) (s : State) : Host.Outcome State Fault Refusal :=
  .next (if s.mmio port then (s.mgmtAccess port).quiesceRequest port else s)

/-- QUIESCE_EXIT. -/
def execQuiesceExit (port : Port) (s : State) : Host.Outcome State Fault Refusal :=
  .next (if s.mmio port then (s.mgmtAccess port).quiesceRelease port else s)

/-- QUIESCE_DRAINED: every started command has ended or been cancelled. -/
def execQuiesceDrained (s : State) : Host.Outcome State Fault Refusal :=
  .next (if s.modes.mode = .quiesce ∧ !s.modes.drained ∧ !(s.cmds.any s.holdsDrain) then
    (s.modModes fun m => { m with drained := true }).drainDone else s)

/-- QUIESCE_LIMIT: it ends only a Quiesce by request. -/
def execQuiesceLimit (s : State) : Host.Outcome State Fault Refusal :=
  .next (if s.modes.mode = .quiesce ∧ s.modes.quiesceReq then
    ((s.modModes fun m => { m with qlimit := true }).record 0x010C 0 (leBytes 2 s.modes.limit)).endQuiesce else s)

/-- A MODE_REQUEST of an OP, ready to run. -/
def State.modeCmd (s : State) (tag op : Nat) : Option Cmd := (s.ready tag 0xF7).filter fun c => c.pkt.fld 24 1 == op

/-- MODE_REQUEST ENTER_MAINT: QUIESCE is set and the device drains; the reply waits until Maintenance is shown. -/
def execModeRequestEnterMaint (tag : Nat) (s : State) : Host.Outcome State Fault Refusal :=
  match s.modeCmd tag 1 with
  | none => .next s
  | some _ =>
    let s := (s.launch tag).modModes fun m => { m with maintWait := m.maintWait ++ [tag] }
    .next (if s.modes.maint then s.answerMaint else s.quiesceFor fun m => { m with quiesceMaint := true })

/-- MODE_REQUEST EXIT_MAINT. -/
def execModeRequestExitMaint (tag : Nat) (s : State) : Host.Outcome State Fault Refusal :=
  match s.modeCmd tag 2 with
  | none => .next s
  | some _ => .next (((s.modModes fun m => { m with maint := false }).settle).answerMode tag)

/-- MODE_REQUEST ENTER_QUIESCE. -/
def execModeRequestEnterQuiesce (tag : Nat) (s : State) : Host.Outcome State Fault Refusal :=
  match s.modeCmd tag 3 with
  | none => .next s
  | some _ => .next (((s.launch tag).modModes fun m => { m with quiesceWait := m.quiesceWait ++ [tag] }).quiesceFor
      fun m => { m with quiesceReq := true })

/-- MODE_REQUEST QUERY. -/
def execModeRequestQuery (tag : Nat) (s : State) : Host.Outcome State Fault Refusal :=
  match s.modeCmd tag 4 with
  | none => .next s
  | some _ => .next (s.answerMode tag)

end Sys2Proof.Machine
end

