-- ==== Sys2Proof/Machine/Flags.lean ====
section
/-! DEFINITION. Every flag computation of the instruction set (06 R200, R211). -/
namespace Sys2Proof.Machine

/-- N and Z from a result; C and V unchanged. -/
def Core.flagsNz (k : Core) (r : Word) : Core := { k with n := r.msb, z := r == 0 }

/-- NZCV of an addition with carry in, whose result is `r`: C is the carry out, V signed overflow. -/
def Core.flagsAdd (k : Core) (a b : Word) (cin : Bool) (r : Word) : Core :=
  { k.flagsNz r with
    c := decide (a.toNat + b.toNat + b2n cin ≥ 2 ^ 32)
    vf := decide (r.toInt ≠ a.toInt + b.toInt + (b2n cin : Int)) }

/-- NZCV of a subtraction with borrow in, whose result is `r`: C is the borrow, taken over 33 bits, V signed
overflow. -/
def Core.flagsSub (k : Core) (a b : Word) (bin : Bool) (r : Word) : Core :=
  { k.flagsNz r with
    c := decide (a.toNat < b.toNat + b2n bin)
    vf := decide (r.toInt ≠ a.toInt - b.toInt - (b2n bin : Int)) }

/-- NZC of a shift: C is the last bit shifted out, and is unchanged when the amount is 0. -/
def Core.flagsShift (k : Core) (r : Word) (amount : Nat) (out : Bool) : Core :=
  { k.flagsNz r with c := if amount = 0 then k.c else out }

/-- Only Z. -/
def Core.flagZ (k : Core) (z : Bool) : Core := { k with z := z }

/-- The eight tests of COND bits 2:0 (R211). -/
def Core.test (k : Core) (t : Nat) : Bool :=
  if t = 0 then k.z
  else if t = 1 then k.c
  else if t = 2 then k.c || k.z
  else if t = 3 then k.n != k.vf
  else if t = 4 then k.z || k.n != k.vf
  else if t = 5 then k.n
  else if t = 6 then k.vf
  else false

/-- Does a condition hold: bits 2:0 select a test and bit 3 inverts it (R211)? -/
def Core.cond (k : Core) (c : Fin 16) : Bool := k.test (c.val % 8) != decide (c.val ≥ 8)

end Sys2Proof.Machine
end

