-- ==== Sys2Proof/Machine/Operands.lean ====
section
/-! DEFINITION. Operands of the instruction set (05 R159 to R161; 06 R202 to R207, R237): registers, banked and
flat addresses, window checks, loads and stores. -/
namespace Sys2Proof.Machine

/-- An exception (06 R238): its code, the failing address, and whether it is poison that R398 mends by pushing
the slice again. -/
structure Exn where
  code : Nat
  addr : Word
  mend : Bool
deriving DecidableEq, Repr

/-- An exception with no failing address. -/
def exn (code : Nat) : Exn := ⟨code, 0, false⟩

/-- The exceptions of R238. -/
def exnInvalid : Exn := exn 1
/-- PRIVILEGED. -/
def exnPrivileged : Exn := exn 2
/-- WINDOW at a flat address. -/
def exnWindow (a : Word) : Exn := ⟨3, a, false⟩
/-- ALIGN at a flat address. -/
def exnAlign (a : Word) : Exn := ⟨4, a, false⟩
/-- STACK at a flat address. -/
def exnStack (a : Word) : Exn := ⟨5, a, false⟩
/-- REP_RANGE. -/
def exnRepRange : Exn := exn 6
/-- BREAK. -/
def exnBreak : Exn := exn 7
/-- SIEVE. -/
def exnSieve : Exn := exn 8
/-- DIGEST. -/
def exnDigest : Exn := exn 9
/-- POISON at a flat address; `mend` as in `Exn`. -/
def exnPoison (a : Word) (mend : Bool) : Exn := ⟨10, a, mend⟩
/-- BUS at a flat address. -/
def exnBus (a : Word) : Exn := ⟨11, a, false⟩

/-! ## Registers -/

/-- The architectural state of a core. -/
def State.core (s : State) : CoreSel → Core
  | .crumb c => (s.crumb c).core
  | .ctrl c => (s.ccore c).core

/-- Changes the architectural state of a core. -/
def State.modCore (s : State) (k : CoreSel) (f : Core → Core) : State :=
  match k with
  | .crumb c => s.modCrumb c fun x => { x with core := f x.core }
  | .ctrl c => s.modCcore c fun x => { x with core := f x.core }

/-- Is the core in user mode (R201)? -/
def State.user (s : State) : CoreSel → Bool
  | .crumb _ => true
  | .ctrl c => !(s.ccore c).core.priv

/-- A general register. -/
def Core.r (k : Core) (i : Fin 16) : Word := k.g[i]

/-- Writes a general register. -/
def Core.setR (k : Core) (i : Fin 16) (w : Word) : Core := { k with g := k.g.set i w }

/-- A lane register; a v field holds 0 to 7 (R209). -/
def Core.rv (k : Core) (i : Fin 16) : Lane := k.v[i.val % 8]

/-- Writes a lane register. -/
def Core.setV (k : Core) (i : Fin 16) (w : Lane) : Core := { k with v := k.v.set (i.val % 8) w }

/-- A bank register. -/
def Core.rb (k : Core) (i : Fin 4) : BitVec 16 := k.b[i]

/-- Writes a bank register. -/
def Core.setB (k : Core) (i : Fin 4) (w : BitVec 16) : Core := { k with b := k.b.set i w }

/-- A general register of a core. -/
def State.g (s : State) (k : CoreSel) (i : Fin 16) : Word := (s.core k).r i

/-- Writes a general register of a core. -/
def State.setG (s : State) (k : CoreSel) (i : Fin 16) (w : Word) : State := s.modCore k fun c => c.setR i w

/-! ## Windows -/

/-- What a window maps to: local store or memory from a base, the bytes that exist (reads beyond them give zero),
the rights, whether poison there is mended by pushing the slice again (R159, R398), and whether the read buffer holds bytes of
it (R233). -/
structure Win where
  store : Bool
  base : Nat
  size : Nat
  rd : Bool
  wr : Bool
  ex : Bool
  mend : Bool
  buf : Bool
deriving DecidableEq, Repr

/-- A window descriptor of a job, of those that a Crumb holds, checked again at this use (05 R161). -/
def Job.window (j : Job) (wins : List Reg) (i : Nat) : Option Win :=
  match wins[i]? with
  | none => none
  | some d =>
    let kind := bitsOf d.toNat 1 0
    let write := bitOf d.toNat 2
    let page := bitsOf d.toNat 47 16
    let home := j.batch
    if bitsOf d.toNat 15 3 ≠ 0 ∨ bitsOf d.toNat 63 48 ≠ 0 then none
    else if kind = 1 ∧ page < j.desc.scratchPages then
      some ⟨false, jobAddr home (poolBase + j.pool + page * 65536), 65536, true, write, false, false, false⟩
    else if kind = 2 ∧ !write ∧ page * 65536 < j.table.length then
      some ⟨false, jobAddr home (poolBase + j.pool + (j.desc.scratchPages + page) * 65536),
        j.table.length - page * 65536, true, false, false, true, true⟩
    else none

/-- The grant of a Crumb that runs an entry of a job (05 R159). -/
def crumbWindow (c : Nat) (e : Entry) (reducing : Bool) (j : Job) (wins : List Reg) (w : Nat) : Option Win :=
  if w < 4 then some ⟨true, w * 65536, 65536, true, true, true, false, false⟩
  else if 0x10 ≤ w ∧ w < 0x20 then
    some ⟨false, jobAddr e.batch (bufOff e.buf + (w - 0x10) * 65536),
      if reducing then 0 else e.length - (w - 0x10) * 65536, true, false, false, true, true⟩
  else if 0x20 ≤ w ∧ w < 0x30 then
    some ⟨false, jobAddr (c / 256) (outOff c + (w - 0x20) * 65536), 65536, true, true, false, true, false⟩
  else if 0x100 ≤ w ∧ w < 0x200 then j.window wins (w - 0x100)
  else none

/-- The window table entry of a control core (06 R207); none where it is unmapped. A table that cannot be read
holds no entry. -/
def State.tableWindow (s : State) (wtb : Word) (w : Nat) : Option Win :=
  let r := s.memRead (wtb.toNat + 8 * w) 8 false
  let v := leNat r.bytes
  if r.bad || r.poison || v % 8 == 0 then none
  else some ⟨false, bitsOf v 47 16 * 65536, 65536, bitOf v 0, bitOf v 1, bitOf v 2, false, false⟩

/-- The window of a number for a core (R205, R207). -/
def State.win (s : State) (k : CoreSel) (w : Nat) : Option Win :=
  match k with
  | .ctrl c => s.tableWindow (s.ccore c).core.wtb w
  | .crumb c =>
    match (s.crumb c).run with
    | none => none
    | some e => match s.job? e.job with
      | none => none
      | some j => crumbWindow c e (s.crumb c).reducing j (s.crumb c).wins w

/-- The kinds of access. -/
inductive Kind where
  | load | store | fetch
deriving DecidableEq, Repr

/-- The length of the code region of a Crumb; a control core has none (R205). -/
def State.codeEnd (s : State) : CoreSel → Nat
  | .crumb c => (s.crumb c).codeLen
  | .ctrl _ => 0

/-- The checks of one access but for poison (R237): its bytes lie in one window and meet the alignment, the window
and kind are granted, and the stack limit holds where one applies. -/
def State.access (s : State) (k : CoreSel) (w off n align : Nat) (kind : Kind) (limit : Option Word) :
    Except Exn Win :=
  let a := BitVec.ofNat 32 (w * 65536 + off)
  if off + n > 65536 ∨ off % align ≠ 0 then .error (exnAlign a)
  else match s.win k w with
    | none => .error (exnWindow a)
    | some x =>
      let inCode := x.store && decide (w * 65536 + off < s.codeEnd k)
      let granted := match kind with
        | .load => x.rd
        | .store => x.wr && !inCode
        | .fetch => x.ex && (!x.store || decide (w * 65536 + off + n ≤ s.codeEnd k))
      if !granted then .error (exnWindow a)
      else match limit with
        | some l => if a.toNat < l.toNat then .error (exnStack a) else .ok x
        | none => .ok x

/-- What a read buffer holds of a range (R233). -/
def bufHit (l : List (Nat × List Byte)) (a n : Nat) : Option (List Byte) :=
  (l.find? fun x => decide (x.1 ≤ a) && decide (a + n ≤ x.1 + x.2.length)).map fun x => (x.2.drop (a - x.1)).take n

/-- The newest contents of a read buffer that fit in some bytes. -/
def bufFit : Nat → List (Nat × List Byte) → List (Nat × List Byte)
  | _, [] => []
  | room, x :: l => if x.2.length ≤ room then x :: bufFit (room - x.2.length) l else []

/-- Reads memory for a core, through the read buffer of a Crumb where the window's bytes may stand in it (R233; DEDUCED, log
entry 151: what is read enters it, and it holds the newest 16 KiB). -/
def State.bufRead (s : State) (k : CoreSel) (buf : Bool) (a n : Nat) : MemRead :=
  match k, buf with
  | .crumb c, true => match bufHit (s.crumb c).readBuf a n with
    | some b => ⟨b, false, false, s⟩
    | none =>
      let r := s.memRead a n
      if r.bad || r.poison then r
      else { r with st := r.st.modCrumb c fun q => { q with readBuf := bufFit 16384 ((a, r.bytes) :: q.readBuf) } }
  | _, _ => s.memRead a n

/-- Reads from a window: bytes beyond the window's size read as zero; poison and invalid addresses raise their
exceptions (R237, R238). -/
def State.winRead (s : State) (k : CoreSel) (x : Win) (w off n : Nat) : Except Exn (List Byte × State) :=
  let a := BitVec.ofNat 32 (w * 65536 + off)
  if x.store then
    match k with
    | .crumb c => .ok ((s.crumb c).store.read (x.base + off) n, s)
    | .ctrl _ => .ok (zeros n, s)
  else
    let have' := min n (x.size - off)
    let r := s.bufRead k x.buf (x.base + off) have'
    if r.bad then .error (exnBus a)
    else if r.poison then .error (exnPoison a x.mend)
    else .ok (r.bytes ++ zeros (n - have'), r.st)

/-- Writes to a window. -/
def State.winWrite (s : State) (k : CoreSel) (x : Win) (w off : Nat) (b : List Byte) : Except Exn State :=
  if x.store then
    match k with
    | .crumb c => .ok (s.modCrumb c fun q => { q with store := q.store.write (x.base + off) b })
    | .ctrl _ => .ok s
  else if memValid (x.base + off) b.length then .ok (s.memWrite (x.base + off) b)
  else .error (exnBus (BitVec.ofNat 32 (w * 65536 + off)))

/-- One load of `n` bytes at an offset of a window. -/
def State.load (s : State) (k : CoreSel) (w off n : Nat) (align : Nat := 1) : Except Exn (List Byte × State) := do
  let x ← s.access k w off n align .load none
  s.winRead k x w off n

/-- One store at an offset of a window; `limit` is the stack limit where one applies. -/
def State.storeAt (s : State) (k : CoreSel) (w off : Nat) (b : List Byte) (align : Nat := 1)
    (limit : Option Word := none) : Except Exn State := do
  let x ← s.access k w off b.length align .store limit
  s.winWrite k x w off b

/-- The window number and the offset of a flat address (R203). -/
def flatWin (a : Word) : Nat := a.toNat / 65536

/-- The offset of a flat address. -/
def flatOff (a : Word) : Nat := a.toNat % 65536

/-- One load at a flat address (R203). -/
def State.loadFlat (s : State) (k : CoreSel) (a : Word) (n : Nat) (align : Nat := 1) : Except Exn (List Byte × State) :=
  s.load k (flatWin a) (flatOff a) n align

/-- One store at a flat address. -/
def State.storeFlat (s : State) (k : CoreSel) (a : Word) (b : List Byte) (align : Nat := 1)
    (limit : Option Word := none) : Except Exn State :=
  s.storeAt k (flatWin a) (flatOff a) b align limit

/-- The offset of a banked operand: base plus displacement modulo 65,536 (R202). -/
def bankedOff (base : Word) (disp : BitVec 16) : Nat := (base.setWidth 16 + disp).toNat

/-- The bytes of a SIZE field: 1, 2 or 4 (R215). -/
def sizeBytes (size : Fin 4) : Nat := 2 ^ size.val

/-- A loaded value extended to 32 bits, with the sign or with zeros (R215). -/
def extend (b : List Byte) (sgn : Bool) : Word :=
  if b.length = 1 then (if sgn then (BitVec.ofNat 8 (leNat b)).signExtend 32 else BitVec.ofNat 32 (leNat b))
  else if b.length = 2 then (if sgn then (BitVec.ofNat 16 (leNat b)).signExtend 32 else BitVec.ofNat 32 (leNat b))
  else BitVec.ofNat 32 (leNat b)

/-- Does a bank register take a window number: inside the grant for some kind of access (R205)? In privileged mode
no grant applies. -/
def State.bankOk (s : State) (k : CoreSel) (w : BitVec 16) : Bool :=
  !s.user k || (match s.win k w.toNat with
    | some x => x.rd || x.wr || x.ex
    | none => false)

/-- A lane register as 16 bytes, lane 0 first. -/
def laneBytes (v : Lane) : List Byte := leBytes 16 v.toNat

/-- 16 bytes as a lane register. -/
def laneOf (b : List Byte) : Lane := BitVec.ofNat 128 (leNat b)

end Sys2Proof.Machine
end

