-- ==== Sys2Proof/Machine/IsaOps.lean ====
section
/-! DEFINITION. How a core runs one instruction (06 R204 to R206, R224, R237 to R246): when it may, the fetch,
retirement, exceptions on Crumbs and traps on control cores. -/
namespace Sys2Proof.Machine

/-- The exit address (R206). -/
def exitAddr : Word := 0xFFFF0000#32

/-- The instruction budget in force on a core: INSN_BUDGET on a Crumb, IBUDGET in user mode on a control core;
none where there is none (05 R189; 06 R242, R243). -/
def State.budget (s : State) : CoreSel → Option Nat
  | .crumb c => match (s.crumb c).run with
    | some e => (s.job? e.job).map fun j => j.desc.budget
    | none => none
  | .ctrl c =>
    let k := (s.ccore c).core
    if k.priv || k.ibudget == 0 then none else some k.ibudget.toNat

/-- Has the core used its budget? -/
def State.spent (s : State) (k : CoreSel) : Bool :=
  match s.budget k with
  | some b => (s.core k).wrapped || decide ((s.core k).icount.toNat ≥ b)
  | none => false

/-- Does the core execute: it holds a slice whose program is not PATTERN, or is in service and neither halted nor waiting? -/
def State.executes (s : State) : CoreSel → Bool
  | .crumb c => (s.crumb c).st == .running && (s.crumb c).run.isSome && (s.crumb c).scan.isNone
  | .ctrl c => (s.ccore c).st == 1 && !(s.ccore c).halted && !(s.ccore c).idle

/-- May the core run its next instruction: it executes, its budget is not used up, and it is not inside a REP unit? -/
def State.runnable (s : State) (k : CoreSel) : Bool := s.executes k && !s.spent k && !(s.core k).inUnit

/-- PSW as a word (R242). -/
def Core.psw (k : Core) : Word :=
  BitVec.ofNat 32 (b2n k.priv + 2 * b2n k.ie + 4 * b2n k.exl + 16 * b2n k.vf + 32 * b2n k.c + 64 * b2n k.z + 128 * b2n k.n)

/-- PSW taken from a word; PRIV too (RFT). -/
def Core.setPsw (k : Core) (w : Word) : Core :=
  { k with
    priv := w.getLsbD 0, ie := w.getLsbD 1, exl := w.getLsbD 2, vf := w.getLsbD 4, c := w.getLsbD 5
    z := w.getLsbD 6, n := w.getLsbD 7 }

/-- A trap of a control core (R243). -/
def Core.trap (k : Core) (cause info resume : Word) : Core :=
  { k with
    epsw := k.psw, epc := resume, ecause := cause, einfo := info, priv := true, ie := false, exl := true
    pc := k.evec &&& 0xFFFFFFC0#32 }

/-- The job status of an exception in user mode (R238). -/
def exnStatus (e : Exn) : Status :=
  if e.code = 3 then .windowDenied else if e.code = 10 then .poisoned else .programFault

/-- An exception at the core's PC. On a Crumb it ends the slice and the job, or the slice is pushed again (R238;
11 R398). On a control core it traps, and halts the core when EXL is 1 (R243, R246). -/
def State.raise (s : State) (k : CoreSel) (e : Exn) : State :=
  match k with
  | .crumb c =>
    if e.mend then (s.mendSlice c).pushAgain c
    else match (s.crumb c).run with
      | some r => s.endJob r.job 2 (exnStatus e) (some r.slice) (s.core k).pc.toNat e.code
      | none => s
  | .ctrl c =>
    s.modCcore c fun x =>
      if x.core.exl then { x with halted := true }
      else { x with core := x.core.trap (BitVec.ofNat 32 e.code) e.addr x.core.pc }

/-- The lowest pending interrupt. -/
def CtrlCore.lowest (x : CtrlCore) : Option Nat := leastBy x.irqs id

/-- A control core with interrupts enabled takes the lowest pending one before its next instruction (R245). -/
def CtrlCore.takeIrq (x : CtrlCore) : CtrlCore :=
  if x.core.ie && !x.halted then
    match x.lowest with
    | some i => { x with
        irqs := x.irqs.filter (· != i)
        core := x.core.trap (BitVec.ofNat 32 (2 ^ 31 + i)) 0 x.core.pc }
    | none => x
  else x

/-- Retires `n` instructions: ICOUNT counts them and the core goes on at `target`, after an interrupt that is
pending and enabled (R189, R225, R245). -/
def State.retired (s : State) (k : CoreSel) (n : Nat) (target : Word) : State :=
  let s := s.modCore k fun c => { c with pc := target, icount := c.icount + BitVec.ofNat 32 n }
  match k with
  | .crumb _ => s
  | .ctrl c => s.modCcore c CtrlCore.takeIrq

/-- An interrupt reaches a control core in service: it is pending, ends an IDLE, and is taken when interrupts are enabled
(R245). -/
def State.interrupt (s : State) (core : Fin 4) (irq : Nat) : State :=
  if (s.ccore core).st ≠ 1 then s
  else
    let s := s.modCcore core fun x => { x with irqs := if x.irqs.contains irq then x.irqs else x.irqs ++ [irq] }
    if (s.ccore core).halted then s
    else if (s.ccore core).idle then
      (s.modCcore core fun x => { x with idle := false }).retired (.ctrl core) 1 ((s.ccore core).core.pc + 2)
    else s.modCcore core CtrlCore.takeIrq

/-- The fetch of an instruction of `len` bytes at the PC, a halfword at a time (R205, R239). -/
def State.fetchOk (s : State) (k : CoreSel) (len : Nat) : Except Exn Unit :=
  (List.range (len / 2)).forM fun i => do
    let a := (s.core k).pc + BitVec.ofNat 32 (2 * i)
    let x ← s.access k (flatWin a) (flatOff a) 2 1 .fetch none
    let _ ← s.winRead k x (flatWin a) (flatOff a) 2

/-- Does the core execute the instruction of `len` bytes at its PC: it may run, and the fetch succeeds? -/
def State.atInsn (s : State) (k : CoreSel) (len : Nat) : Bool :=
  s.runnable k && (match s.fetchOk k len with
    | .ok _ => true
    | .error _ => false)

/-- Runs an instruction of `len` bytes whose effect is `f`; the core goes on at the next one (R237). -/
def State.retire (s : State) (k : CoreSel) (len : Nat) (f : State → Except Exn State) :
    Host.Outcome State Fault Refusal :=
  if !s.runnable k then .next s
  else match s.fetchOk k len with
    | .error e => .next (s.raise k e)
    | .ok _ => match f s with
      | .error e => .next (s.raise k e)
      | .ok t => .next (t.retired k 1 ((s.core k).pc + BitVec.ofNat 32 len))

/-- Runs an instruction that may change the PC: `f` gives the target. `ends` says that it is one of those that
end a slice at the exit address (R206). -/
def State.retireTo (s : State) (k : CoreSel) (len : Nat) (ends : Bool) (f : State → Except Exn (State × Word)) :
    Host.Outcome State Fault Refusal :=
  if !s.runnable k then .next s
  else match s.fetchOk k len with
    | .error e => .next (s.raise k e)
    | .ok _ => match f s with
      | .error e => .next (s.raise k e)
      | .ok (t, target) =>
        match k with
        | .crumb c =>
          if ends && target == exitAddr then .next ((t.retired k 1 (s.core k).pc).sliceReturn c)
          else .next (t.retired k 1 target)
        | .ctrl _ => .next (t.retired k 1 target)

/-- How the repetitions of a REP or REPI unit ended: the state, how many were done, and the exception that ended them. -/
structure RepEnd where
  st : State
  done : Nat
  err : Option Exn

/-- The repetitions of a unit (R224): `n` of them at most; `stop` says after how many retired instructions an
interruptible REPI stops for a budget. -/
def repLoop (k : CoreSel) (a : Fin 16) (body : State → Except Exn State) (stop : Nat → Bool) : Nat → Nat → State → RepEnd
  | 0, done, s => ⟨s, done, none⟩
  | n + 1, done, s =>
    if stop done then ⟨s, done, none⟩
    else match body s with
      | .error e => ⟨s, done, some e⟩
      | .ok t => repLoop k a body stop n (done + 1) (t.setG k a (t.g k a - 1))

/-- May the core run a unit, or go on with the REP unit that it is inside of (R224, R240)? -/
def State.unitRunnable (s : State) (k : CoreSel) (interruptible : Bool) : Bool :=
  s.runnable k || (s.executes k && (s.core k).inUnit && !interruptible)

/-- Does a row of a unit carry out all that is left of it? A control core's REP unit has no point inside it at which
anything acts (R240). Any other unit is left after some repetitions, a free choice: a REPI unit at an interruptible point,
and a REP unit of a Crumb at a point where only a watchdog hold acts (DEDUCED, log entry 116). -/
def wholeUnit (k : CoreSel) (interruptible : Bool) : Bool :=
  match k with
  | .ctrl _ => !interruptible
  | .crumb _ => false

/-- Counts repetitions beside ICOUNT: a Crumb's count goes on past 2^32 (05 R189; R225). -/
def State.countReps (s : State) (k : CoreSel) (before n : Nat) (inside : Bool) : State :=
  s.modCore k fun c => { c with
    inUnit := inside
    wrapped := match k with
      | .crumb _ => c.wrapped || decide (before + n ≥ 2 ^ 32)
      | .ctrl _ => c.wrapped }

/-- Runs a REP or REPI unit of `len` bytes with count register `a` (R224, R225). `bad` is the exception that the
unit raises before it begins, if any. -/
def State.retireRep (s : State) (k : CoreSel) (len : Nat) (a : Fin 16) (interruptible : Bool) (bad : Option Exn)
    (body : State → Except Exn State) : Host.Outcome State Fault Refusal :=
  if !s.unitRunnable k interruptible then .next s
  else match s.fetchOk k len with
    | .error e => .next (s.raise k e)
    | .ok _ => match bad with
      | some e => .next (s.raise k e)
      | none =>
        let ic := (s.core k).icount.toNat
        let stop := fun done => interruptible && (match s.budget k with
          | some b => decide (ic + done ≥ b)
          | none => false)
        let pc := (s.core k).pc
        let n := (s.g k a).toNat
        let m := if wholeUnit k interruptible then n else 1 + s.choice n
        let r := repLoop k a body stop (min m n) 0 (if wholeUnit k interruptible then s else s.tick)
        match r.err with
        | some e => .next (((r.st.modCore k fun c => { c with icount := c.icount + BitVec.ofNat 32 r.done }).countReps
            k ic r.done false).raise k e)
        | none =>
          if r.done < n then .next ((r.st.countReps k ic r.done (!interruptible)).retired k r.done pc)
          else .next ((r.st.countReps k ic r.done false).retired k (max r.done 1) (pc + BitVec.ofNat 32 len))

/-- An effect on the core's registers alone. -/
def State.pureOp (s : State) (k : CoreSel) (f : Core → Core) : Except Exn State := .ok (s.modCore k f)

/-- Raises INVALID unless the fields are valid (R210). -/
def need (ok : Bool) : Except Exn Unit := if ok then .ok () else .error exnInvalid

/-- Raises PRIVILEGED in user mode (R201). -/
def State.needPriv (s : State) (k : CoreSel) : Except Exn Unit :=
  if s.user k then .error exnPrivileged else .ok ()

/-- Is a v field in range (R209)? -/
def vOk (i : Fin 16) : Bool := decide (i.val < 8)

end Sys2Proof.Machine
end

