-- ==== Sys2Proof/Machine/SieveCmds.lean ====
section
/-! DEFINITION. The Sieve's commands and events (09) and the Ariust-2 Sieve instructions (06 R226). -/
namespace Sys2Proof.Machine

/-! ## Tenant entries (R318 to R323) -/

/-- Does a 64-byte tenant entry meet R319? -/
def tenantEntryOk (b : List Byte) : Bool :=
  let care := fieldLe b 40 5
  b.length == 64 && zeroAt b 38 2 && decide (care < 2 ^ 38) && zeroAt b 45 1 && zeroAt b 56 8 &&
    (List.range 38).all fun i => bitOf care i || zeroAt b i 1

/-- The stored form of a tenant entry (R318). -/
def tenantEntry (n : Nat) (b : List Byte) : SieveEntry :=
  let care := fieldLe b 40 5
  let careBytes := (List.range 38).map fun i => if bitOf care i then 0xFF#8 else 0#8
  { value := sieveKey (b.take 38) n 3
    care := BitVec.ofNat 320 (leNat (careBytes ++ [0xFF#8, 0xFF#8]))
    priority := fieldLe b 46 2
    result := BitVec.ofNat 64 (fieldLe b 48 8) }

/-- A stored private entry in the format of R319. -/
def entryBytes (e : SieveEntry) : List Byte :=
  let v := leBytes 40 e.value.toNat
  let c := leBytes 40 e.care.toNat
  let mask := (List.range 38).foldl (fun a i => if c.getD i 0 == 0 then a else a + 2 ^ i) 0
  v.take 38 ++ zeros 2 ++ leBytes 5 mask ++ [0] ++ leBytes 2 e.priority ++ leBytes 8 e.result.toNat ++ zeros 8

/-- The index a tenant's next private entry takes, while its quota and its region have one (09 R320). -/
def State.freeEntry (s : State) (n : Nat) : Option Nat :=
  let used := s.privUsed n
  if used.length ≥ bitsOf (s.tenant n).active.sieve.toNat 16 0 then none
  else firstBelow (s.tenant n).region.2 fun i => !used.contains i

/-- SIEVE_INSERT (R320). It waits while a private bank is held (R329). -/
def execSieveInsert (tag : Nat) (s : State) : Host.Outcome State Fault Refusal :=
  match s.ready tag 0xA0 with
  | none => .next s
  | some c =>
    if s.anyHeld s.privBanks then .next s
    else if !tenantEntryOk c.data then .next (s.fail c .invalidField)
    else match s.freeEntry c.fn with
      | none => .next (s.failCheck c .sieveQuota 9 0xFFFF)
      | some i => .next ((s.putPriv ((s.tenant c.fn).region.1 + i) (tenantEntry c.fn c.data)).complete c .ok i 0 0)

/-- The entry an INDEX names in a tenant's region (R322). -/
def State.tenantIndex (s : State) (n i : Nat) : Option SieveEntry :=
  if i < (s.tenant n).region.2 then s.privEntry ((s.tenant n).region.1 + i) else none

/-- SIEVE_REMOVE (R322). -/
def execSieveRemove (tag : Nat) (s : State) : Host.Outcome State Fault Refusal :=
  match s.ready tag 0xA1 with
  | none => .next s
  | some c =>
    let i := c.pkt.fld 24 4
    if s.anyHeld s.privBanks then .next s
    else match s.tenantIndex c.fn i with
      | none => .next (s.fail c .invalidField)
      | some _ => .next ((s.delPriv ((s.tenant c.fn).region.1 + i)).complete c .ok 0 0 0)

/-- SIEVE_READ (R322). -/
def execSieveRead (tag : Nat) (s : State) : Host.Outcome State Fault Refusal :=
  match s.ready tag 0xA3 with
  | none => .next s
  | some c => match s.tenantIndex c.fn (c.pkt.fld 24 4) with
    | none => .next (s.fail c .invalidField)
    | some e => .next (s.deliver c (entryBytes e) 0 0 0)

/-- A private lookup with its counters: the place among the private slots and the entry. -/
def State.privSearch (s : State) (key : BitVec 320) : Option (Nat × SieveEntry) × State :=
  let s := s.bump .svCnt 4
  match s.privLookup key with
  | some (b, slot, e) => (some (s.privIndex b slot, e), s.bump .svCnt 5)
  | none => (none, s)

/-- SIEVE_LOOKUP (R323). It waits while a private bank is held. -/
def execSieveLookup (tag : Nat) (s : State) : Host.Outcome State Fault Refusal :=
  match s.ready tag 0xA2 with
  | none => .next s
  | some c =>
    if s.anyHeld s.privBanks then .next s
    else
      let r := s.privSearch (sieveKey (c.pkt.body.take 38) c.fn 3)
      match r.1 with
      | some (p, e) => .next (r.2.complete c .ok (p - (s.tenant c.fn).region.1) e.result.toNat 0)
      | none => .next (r.2.complete c .ok 0xFFFFFFFF 0 0)

/-! ## SIEVE_ADMIN (R330, R331) -/

/-- The 96-byte admin entry. -/
def adminEntry (b : List Byte) : SieveEntry :=
  ⟨BitVec.ofNat 320 (fieldLe b 0 40), BitVec.ofNat 320 (fieldLe b 40 40), fieldLe b 80 2, BitVec.ofNat 64 (fieldLe b 88 8)⟩

/-- An entry in that format. -/
def adminBytes (e : SieveEntry) : List Byte :=
  leBytes 40 e.value.toNat ++ leBytes 40 e.care.toNat ++ leBytes 2 e.priority ++ zeros 6 ++ leBytes 8 e.result.toNat

/-- Does an admin entry meet R303 for a use, and R331 for its RESULT? -/
def adminEntryOk (use : Nat) (b : List Byte) : Bool :=
  let e := adminEntry b
  e.value &&& ~~~e.care == 0 && bitsOf e.care.toNat 319 317 == 7 && bitsOf e.value.toNat 319 317 == use &&
    zeroAt b 82 6 && decide (e.result.toNat < 64)

/-- Puts an entry into a bank (R307, R310): the slot it takes. `want` is the slot asked for, if one is. -/
def State.bankInsert (s : State) (b : Nat) (e : SieveEntry) (want : Option Nat) : Nat × State :=
  let k := s.bank b
  if k.longest then
    let r := orderedInsert k.entries e
    (r.2, s.setEntries b fun _ => r.1)
  else
    let i := want.getD (lowestFree k.entries)
    (i, s.setEntries b fun m => m.put i e)

/-- SIEVE_ADMIN INSERT. -/
def execSieveAdminInsert (tag : Nat) (s : State) : Host.Outcome State Fault Refusal :=
  match s.ready tag 0xFF with
  | none => .next s
  | some c =>
    let b := c.pkt.fld 24 1
    let idx := c.pkt.fld 28 4
    let k := s.bank b
    let bad := k.use == 0 || k.use == 3 || !adminEntryOk k.use.toNat c.data ||
      (idx != 0xFFFFFFFF && (k.longest || decide (idx ≥ 65536) || (k.entries.look idx).isSome))
    if bitsOf c.pkt.aux 2 0 ≠ 0 ∨ k.held then .next s
    else if bad then .next (s.fail c .invalidField)
    else if k.entries.length ≥ (if k.longest then 61440 else 65536) then .next ((s.finish c .sieveQuota 0 0 0 9).pump.reap)
    else
      let r := s.bankInsert b (adminEntry c.data) (if idx = 0xFFFFFFFF then none else some idx)
      .next (r.2.complete c .ok (b * 65536 + r.1) 0 0)

/-- Takes an entry out of a bank (R307, R311). -/
def State.bankRemove (s : State) (b slot : Nat) : State :=
  if (s.bank b).longest then s.setEntries b fun m => orderedRemove m slot else s.setEntries b fun m => m.del slot

/-- SIEVE_ADMIN REMOVE. -/
def execSieveAdminRemove (tag : Nat) (s : State) : Host.Outcome State Fault Refusal :=
  match s.ready tag 0xFF with
  | none => .next s
  | some c =>
    let b := c.pkt.fld 24 1
    let k := s.bank b
    if bitsOf c.pkt.aux 2 0 ≠ 1 ∨ k.held then .next s
    else if k.use = 0 ∨ (k.entries.look (c.pkt.fld 28 4)).isNone then .next (s.fail c .invalidField)
    else .next ((s.bankRemove b (c.pkt.fld 28 4)).complete c .ok 0 0 0)

/-- SIEVE_ADMIN READ. -/
def execSieveAdminRead (tag : Nat) (s : State) : Host.Outcome State Fault Refusal :=
  match s.ready tag 0xFF with
  | none => .next s
  | some c =>
    let k := s.bank (c.pkt.fld 24 1)
    if bitsOf c.pkt.aux 2 0 ≠ 2 then .next s
    else match if k.use = 0 then none else k.entries.look (c.pkt.fld 28 4) with
      | none => .next (s.fail c .invalidField)
      | some e => .next (s.deliver c (adminBytes e) 0 0 0)

/-- SIEVE_ADMIN LOOKUP: the named bank, with no forced bits. -/
def execSieveAdminLookup (tag : Nat) (s : State) : Host.Outcome State Fault Refusal :=
  match s.ready tag 0xFF with
  | none => .next s
  | some c =>
    let b := c.pkt.fld 24 1
    let k := s.bank b
    if bitsOf c.pkt.aux 2 0 ≠ 3 ∨ k.held then .next s
    else if k.use = 0 then .next (s.fail c .invalidField)
    else match k.winner (BitVec.ofNat 320 (fieldLe c.data 0 40)) with
      | some w => .next (s.complete c .ok (b * 65536 + w.1) w.2.result.toNat 0)
      | none => .next (s.complete c .ok 0xFFFFFFFF 0 0)

/-- SIEVE_ADMIN CLEAR. -/
def execSieveAdminClear (tag : Nat) (s : State) : Host.Outcome State Fault Refusal :=
  match s.ready tag 0xFF with
  | none => .next s
  | some c =>
    let b := c.pkt.fld 24 1
    let k := s.bank b
    if bitsOf c.pkt.aux 2 0 ≠ 4 ∨ k.held then .next s
    else if k.use = 0 ∨ k.use = 3 then .next (s.fail c .invalidField)
    else .next ((s.setEntries b fun _ => []).complete c .ok 0 0 0)

/-! ## Entry errors and moves (R329, R321) -/

/-- An uncorrectable error in an entry holds its bank (R329). -/
def State.sieveError (s : State) (bank slot : Nat) : State :=
  ((s.modBank bank fun k => { k with held := true }).bump .svCnt 7).record 0x0209 bank (leBytes 2 slot ++ [1])

/-- The read of a slot finds it clean, mends it, or holds the bank (R329). -/
def execSieveEntryScrub (bank : Fin 4) (slot : Nat) (cls : EntryClass) (s : State) : Host.Outcome State Fault Refusal :=
  match cls with
  | .clean => .next s
  | .corrected => .next ((s.bump .svCnt 6).record 0x0209 bank (leBytes 2 slot ++ [0]))
  | .uncorrectable => .next (s.sieveError bank slot)

/-- The firmware rewrites the entry from its copy and the hold ends (R329). -/
def execSieveEntryRewritten (bank : Fin 4) (slot : Nat) (s : State) : Host.Outcome State Fault Refusal :=
  let k := s.bank bank
  if !k.held then .next s
  else .next (s.modBank bank fun k => { k with
    held := false
    entries := match AMap.look k.copy slot with
      | some e => k.entries.put slot e
      | none => k.entries.del slot })

/-- The firmware moves a tenant's region to a free run of private slots (R321). -/
def execSieveRegionMove (tenant base : Nat) (s : State) : Host.Outcome State Fault Refusal :=
  if (s.tenant tenant).region.2 ≠ 0 ∧ s.runFree tenant base (s.tenant tenant).region.2 ∧ !s.anyHeld s.privBanks then
    .next (s.moveRegion tenant base)
  else .next s

/-! ## SVS and SVR (06 R226; R326, R327) -/

/-- The tenant of a core's keys: that of the slice a Crumb runs; user mode on a control core has none. -/
def State.coreTenant (s : State) : CoreSel → Nat
  | .crumb c => match (s.crumb c).run with
    | some e => e.tenant
    | none => 0
  | .ctrl _ => 0

/-- The key an SVS submits. -/
def State.svsKey (s : State) (k : CoreSel) (data : List Byte) : BitVec 320 :=
  match k with
  | .ctrl c =>
    if s.user k then sieveKey data 0 3
    else BitVec.ofNat 320 (leNat (sliceB data 0 38) + 2 ^ 304 * bitsOf (s.reg .svFwtop c).toNat 15 0)
  | .crumb _ => sieveKey data (s.coreTenant k) 3

/-- The keys that a Crumb holds in its Batch's submission queue: those of SVS and those of PATTERN (R326). -/
def Crumb.submitted (k : Crumb) : Nat := k.core.sieveWait.length + ((k.scan.map fun x => x.waiting.length).getD 0)

/-- The keys in a Batch's submission queue. -/
def State.batchQueue (s : State) (b : Nat) : Nat := ((s.crumbs.filter fun x => x.1 / 256 == b).map fun x => x.2.submitted).sum

/-- Is the submission queue of a core's Batch full (R326)? Control cores do not submit through it. -/
def State.svsFull (s : State) : CoreSel → Bool
  | .crumb c => decide (s.batchQueue (c.val / 256) ≥ 512)
  | .ctrl _ => false

/-- SVS: captures LEN bytes and submits a key. It waits to retire while its Batch's queue is full. The access is checked
before the outstanding results (R239). -/
def execSvs (k : CoreSel) (a : Fin 16) (bk : Fin 4) (len1 : Fin 64) (s : State) : Host.Outcome State Fault Refusal :=
  if s.svsFull k then .next s
  else s.retire k 4 fun s => do
    need (decide (len1.val < 38))
    let c := s.core k
    let r ← s.load k (c.rb bk).toNat ((c.r a).toNat % 65536) (len1.val + 1)
    if c.sieveWait.length + c.sieveQ.length ≥ 8 then .error exnSieve
    else .ok (r.2.modCore k fun c => { c with sieveWait := c.sieveWait ++ [r.2.svsKey k r.1] })

/-- What a core's key finds: its index (the tenant entry number for user mode) and the RESULT (R226, R327). -/
def State.svsFind (s : State) (k : CoreSel) (key : BitVec 320) : Option (Nat × Reg) × State :=
  let kind := bitsOf key.toNat 319 317
  let tenant := bitsOf key.toNat 316 304
  if kind = 3 then
    let r := s.privSearch key
    (r.1.map fun x => match k with
      | .crumb _ => (x.1 - (s.tenant tenant).region.1, x.2.result)
      | .ctrl _ => ((s.privPlace x.1).1 * 65536 + (s.privPlace x.1).2, x.2.result), r.2)
  else if kind = 1 ∨ kind = 2 then
    ((s.bankOf kind).bind fun b => ((s.bank b).winner key).map fun w => (b * 65536 + w.1, w.2.result), s)
  else (none, s)

/-- The banks a key searches. -/
def State.svsBanks (s : State) (key : BitVec 320) : List Nat :=
  let kind := bitsOf key.toNat 319 317
  if kind = 3 then s.privBanks else if kind = 1 ∨ kind = 2 then (s.bankOf kind).toList else []

/-! ### PATTERN (05 R169; R326) -/

/-- The number of keys of a slice: one for each offset that is a multiple of STRIDE. -/
def Scan.keys (x : Scan) : Nat := (x.data.length + x.step - 1) / x.step

/-- A Crumb's PATTERN program submits the keys that its Batch's queue has room for, in offset order. -/
def State.fillScan (s : State) (c : Nat) : State :=
  match (s.crumb c).scan with
  | none => s
  | some x =>
    let n := min (512 - s.batchQueue (c / 256)) (x.keys - x.next)
    s.modCrumb c fun k => { k with
      scan := some { x with next := x.next + n, waiting := x.waiting ++ (List.range n).map fun i => x.next + i } }

/-- The PATTERN programs of a Batch submit what the queue has room for, the lowest Crumb first (DESIGN CHOICE, log entry
157). -/
def State.fillScans (s : State) (b : Nat) : State :=
  ((s.crumbs.filter fun x => x.1 / 256 == b && x.2.scan.isSome).map Prod.fst).foldl State.fillScan s

/-- The 16-byte hit of PATTERN: the offset, the tenant entry number, the RESULT's low four bytes. Bytes at or beyond the
slice's end read as zero in a key. -/
def State.scanHit (s : State) (tenant : Nat) (x : Scan) (i : Nat) : List Byte × State :=
  let r := s.privSearch (sieveKey (sliceB x.data (i * x.step) x.len) tenant 3)
  match r.1 with
  | some (n, e) => (leBytes 8 (i * x.step) ++ leBytes 4 (n - (s.tenant tenant).region.1) ++ leBytes 4 e.result.toNat, r.2)
  | none => ([], r.2)

/-- A PATTERN program whose keys are all answered ends. -/
def State.scanEnd (s : State) (c : Nat) : State :=
  match (s.crumb c).scan with
  | some x =>
    if x.waiting.isEmpty ∧ x.next ≥ x.keys then (s.modCrumb c fun k => { k with scan := none }).endLibrary c x.out (zeros 64)
    else s
  | none => s

/-- One key of a Crumb's PATTERN program is answered. -/
def State.scanStep (s : State) (c : Nat) : State :=
  match (s.crumb c).scan, (s.crumb c).run with
  | some x, some e => match x.waiting with
    | [] => s.scanEnd c
    | i :: rest =>
      let r := s.scanHit e.tenant x i
      ((r.2.modCrumb c fun k => { k with scan := some { x with waiting := rest, out := x.out ++ r.1 } }).fillScans (c / 256)).scanEnd c
  | _, _ => s

/-- A submitted key is looked up and its result is ready (R226, R326, R329: not while its bank is held). On a Crumb whose
PATTERN program submits, one of its keys is answered. -/
def execSvsResult (k : CoreSel) (s : State) : Host.Outcome State Fault Refusal :=
  match (s.core k).sieveWait, k with
  | [], .crumb c =>
    if (s.crumb c).scan.isNone ∨ s.anyHeld s.privBanks then .next s else .next ((s.fillScans (c / 256)).scanStep c)
  | [], .ctrl _ => .next s
  | key :: rest, _ =>
    if s.anyHeld (s.svsBanks key) then .next s
    else
      let r := s.svsFind k key
      .next (r.2.modCore k fun c => { c with sieveWait := rest, sieveQ := c.sieveQ ++ [r.1] })

/-- SVR: takes the oldest result; it waits for one that is on its way. -/
def execSvr (k : CoreSel) (a : Fin 16) (s : State) : Host.Outcome State Fault Refusal :=
  if (s.core k).sieveQ.isEmpty && !(s.core k).sieveWait.isEmpty && a.val % 2 == 0 then .next s
  else s.retire k 2 fun s => do
    need (a.val % 2 == 0)
    let c := s.core k
    match c.sieveQ with
    | [] => .error exnSieve
    | x :: rest =>
      let v := match x with
        | some (i, r) => (BitVec.ofNat 32 i, r.setWidth 32, false)
        | none => (0xFFFFFFFF#32, 0#32, true)
      .ok (s.modCore k fun c => { ((c.setR a v.1).setR (a + 1) v.2.1) with sieveQ := rest, z := v.2.2 })

end Sys2Proof.Machine
end

