-- ==== Sys2Proof/Machine/BootOps.lean ====
section
/-! DEFINITION. The boot flash and its images: what makes a firmware image (13 R444, R445) and a configuration image
(R446 to R448) valid, how a configuration is applied, and the writes of the boot flash (R443, R456, R457). -/
namespace Sys2Proof.Machine

/-! ## Values of registers with a rule of their own -/

/-- A placement class: GK and GM belong to PARITY 2 and 3 (09, SV_PCLASS). -/
def pclassOk (v : Nat) : Bool :=
  let k := bitsOf v 14 10
  let m := bitsOf v 18 16
  if bitsOf v 9 8 ≥ 2 then decide (1 ≤ k) && decide (1 ≤ m) && decide (m ≤ 4) && decide (k + m ≤ 32) else k == 0 && m == 0

/-- A valid MEM_HASH mask (11 R383). -/
def hashOk (k v : Nat) : Bool :=
  bitOf v (15 + k) && (List.range 6).all (fun j => j == k || !bitOf v (15 + j)) && bitsOf v 7 0 == 0

/-- Does a register's value keep its ranges and the rules of its chapter? -/
def RegDef.valueOk (d : RegDef) (i : Nat) (v : Reg) : Bool :=
  d.inRange v && match d.name with
    | .svPclass => pclassOk v.toNat
    | .memHash => hashOk i v.toNat
    | .flTimers => decide (bitsOf v.toNat 15 8 < bitsOf v.toNat 23 16)
    | .svBankCfg => bitsOf v.toNat 1 0 != 3 || !bitOf v.toNat 4
    | _ => true

/-! ## Firmware images -/

/-- The reason codes of CFG_STATUS that an image fails with. -/
inductive ImageFail where
  | read | header | blockCrc | imageCrc | range | rule | signature | svn
deriving DecidableEq, Repr

/-- A_FAIL, B_FAIL and DL_FAIL. -/
def ImageFail.code : ImageFail → Nat
  | .read => 1
  | .header => 2
  | .blockCrc => 3
  | .imageCrc => 4
  | .range => 5
  | .rule => 6
  | .signature => 7
  | .svn => 8

/-- The fuse hash of a firmware public key. -/
def fuseKeyHash (i : Nat) : List Byte := (List.range 32).map fun j => Config.fwKeyHash i j

/-- Do the fields of a firmware header lie within their ranges (R444)? -/
def fwRanges (b : List Byte) : Bool :=
  let len := fieldLe b 16 4
  decide (fieldLe b 6 1 ≤ 3) && decide (fieldLe b 7 1 ≤ 63) && fieldLe b 8 8 != 0 && decide (4096 ≤ len) && decide (len ≤ 8388096) &&
    len % 16 == 0 && decide (fieldLe b 20 4 < len) && fieldLe b 20 4 % 4 == 0 && zeroAt b 24 40 && fieldLe b 64 1 == 4 &&
    zeroAt b 161 31 && zeroAt b 288 220 && decide (512 + len ≤ b.length)

/-- R445: the first failing check, or what the header says. -/
def State.fwCheck (s : State) (b : List Byte) : Except ImageFail FwInfo :=
  let key := fieldLe b 6 1
  let svn := fieldLe b 7 1
  let body := (b.drop 512).take (fieldLe b 16 4)
  let pub := sliceB b 64 97
  if fieldLe b 0 4 ≠ 0x57464B56 ∨ fieldLe b 4 2 ≠ 1 then .error .header
  else if !fwRanges b then .error .range
  else if fieldLe b 508 4 ≠ (crc32c (b.take 508 ++ body)).toNat then .error .imageCrc
  else if sha256 pub ≠ fuseKeyHash key ∨ bitOf s.cfg.revoked.toNat key then .error .signature
  else if svn < s.cfg.svnFused then .error .svn
  else if !ecdsaVerify pub (b.take 192 ++ body) (fieldBe b 192 48) (fieldBe b 240 48) then .error .signature
  else .ok ⟨fieldLe b 8 8, svn, key, fieldLe b 20 4⟩

/-! ## Configuration images -/

/-- The registers a REGS entry may name in any block (R447). -/
def overlayRegs : List RegName :=
  [.prfCfg, .rlrCfg, .dgCfg, .svPclass, .ftCfg, .memCfg, .memRef, .memQos, .flTimers, .flCfg, .cfgQuiesce]

/-- Those it may name in the base block only. -/
def baseRegs : List RegName := [.svBankCfg, .memHash, .fnShLimits, .fnShCtx, .fnShResv, .fnShInact, .fnShSieve]

/-- The blocks of an image: each with its header, body, CRC and reserved word; none where one runs past the trailer or its
CRC is wrong. -/
def splitBlocks (b : List Byte) (stop : Nat) : Nat → Nat → Option (List (List Byte))
  | 0, _ => some []
  | n + 1, off =>
    let len := fieldLe b (off + 4) 4
    let blk := (b.drop off).take (16 + len)
    if off + 16 + len ≤ stop ∧ crcOk blk (8 + len) then
      match splitBlocks b stop n (off + 16 + len) with
      | some l => some (blk :: l)
      | none => none
    else none

/-- The body of a block. -/
def blockBody (blk : List Byte) : List Byte := (blk.drop 8).take (blk.length - 16)

/-- The TYPE of a block. -/
def blockType (blk : List Byte) : Nat := fieldLe blk 0 1

/-- The MODE of a block. -/
def blockMode (blk : List Byte) : Nat := fieldLe blk 1 1

/-- Field ranges and reserved bytes of a block (R446, R447). -/
def blockRanges (blk : List Byte) : Bool :=
  let body := blockBody blk
  let t := blockType blk
  decide (1 ≤ t) && decide (t ≤ 3) && (blockMode blk == 0xFF || decide (3 ≤ blockMode blk) && decide (blockMode blk ≤ 11)) &&
  zeroAt blk 2 2 && body.length % 8 == 0 && zeroAt blk (12 + body.length) 4 &&
  (t != 1 || (chunks 24 body).all fun e => (fieldLe e 4 1 == 4 || fieldLe e 4 1 == 8) && zeroAt e 5 3) &&
  (t != 2 || (chunks 104 body).all fun e => decide (fieldLe e 0 1 ≤ 3) && zeroAt e 1 7) &&
  (t != 3 || decide (fieldLe body 0 1 ≤ 31) && decide (fieldLe body 1 1 ≤ 1) && decide (fieldLe body 2 1 ≤ 31) && zeroAt body 3 5 &&
    (chunks 72 (body.drop 104)).all fun e => decide (fieldLe e 0 1 ≤ 31) && zeroAt e 1 7)

/-- The entries of a REGS body. -/
def regEntries (body : List Byte) : List RegEntry :=
  (chunks 24 body).map fun e => ⟨fieldLe e 0 4, fieldLe e 4 1, BitVec.ofNat 64 (fieldLe e 8 8), BitVec.ofNat 64 (fieldLe e 16 8)⟩

/-- The reset value of an element, with the four of SV_BANK_CFG (09). -/
def RegDef.resetAt (d : RegDef) (i : Nat) : Reg :=
  if d.name = .svBankCfg then BitVec.ofNat 64 ([0x1, 0x12, 0x3, 0x3].getD i 0) else d.resetOf i

/-- Is a REGS entry valid (R447)? A field that it sets in part is judged with the rest at the reset value. -/
def regEntryOk (base : Bool) (e : RegEntry) : Bool :=
  match regAt e.off with
  | none => false
  | some d =>
    let i := d.idx e.off
    let v := (d.resetAt i &&& ~~~e.mask) ||| e.value
    d.offset i == e.off && (overlayRegs.contains d.name || base && baseRegs.contains d.name) && e.width == d.width && e.mask != 0 &&
    e.mask &&& ~~~(d.maskOf fun a => a == .rw || a == .rwl) == 0 && e.value &&& ~~~e.mask == 0 && d.valueOk i v

/-- Is every entry of a block valid, with no bit set twice? -/
def regsOk (base : Bool) (l : List RegEntry) : Bool :=
  l.all (regEntryOk base) &&
  (List.range l.length).all fun i => (List.range i).all fun j =>
    match l[i]?, l[j]? with
    | some x, some y => x.off != y.off || x.mask &&& y.mask == 0
    | _, _ => true

/-- SV_BANK_CFG of a bank after the base block. -/
def bankAfter (base : List RegEntry) (b : Nat) : Nat :=
  (base.foldl (fun (v : Reg) e => if e.off = (regDef .svBankCfg).offset b then (v &&& ~~~e.mask) ||| e.value else v)
    ((regDef .svBankCfg).resetAt b)).toNat

/-- Do the bank settings after the base block keep R300? -/
def banksOk (base : List RegEntry) : Bool :=
  let use := fun (n : Nat) => ((List.range 4).filter fun b => bitsOf (bankAfter base b) 1 0 == n).length
  use 1 == 1 && decide (use 2 ≤ 1) && (List.range 4).all fun b => bitsOf (bankAfter base b) 1 0 != 3 || !bitOf (bankAfter base b) 4

/-- The entries of a SIEVE body. -/
def sieveRecords (body : List Byte) : List (Nat × List Byte) := (chunks 104 body).map fun e => (fieldLe e 0 1, e.drop 8)

/-- Is a SIEVE block valid (R447)? -/
def sieveOk (base : List RegEntry) (l : List (Nat × List Byte)) : Bool :=
  l.all (fun e =>
    let use := bitsOf (bankAfter base e.1) 1 0
    (use == 1 || use == 2) && adminEntryOk use e.2) &&
  (List.range 4).all fun b => decide ((l.filter fun e => e.1 == b).length ≤ if bitOf (bankAfter base b) 4 then 61440 else 65536)

/-- Does a GROUP body meet R436? -/
def groupOk (body : List Byte) : Bool :=
  body.length == 104 + 72 * fieldLe body 2 1 && selfOk (sliceB body 8 96) &&
  (chunks 72 (body.drop 104)).all fun e =>
    fieldLe e 0 1 != fieldLe body 0 1 && zeroAt e 56 16 && (List.range 4).all fun i => zeroAt e (30 + 8 * i) 2

/-- The parts of an image, from its blocks. -/
def imageOf (id : Nat) (blks : List (List Byte)) : CfgImage :=
  let body (t m : Nat) := (blks.find? fun k => blockType k == t && blockMode k == m).map blockBody
  ⟨id, ((body 1 0xFF).map regEntries).getD [],
    blks.filterMap fun k => if blockType k = 1 ∧ blockMode k ≠ 0xFF then some (blockMode k, regEntries (blockBody k)) else none,
    (((body 2 0xFF).map sieveRecords).getD []).map fun e => (e.1, adminEntry e.2),
    (body 3 0xFF).map fun b => (fieldLe b 0 1, fieldLe b 1 1 == 1, selfOf (sliceB b 8 96),
      (chunks 72 (b.drop 104)).map fun e => (fieldLe e 0 1, memberOf (sliceB e 8 64)))⟩

/-- The rules of R446 and R447 over the blocks. -/
def blocksOk (blks : List (List Byte)) : Bool :=
  let keys := blks.map fun k => (blockType k, blockMode k)
  let base := ((blks.find? fun k => blockType k == 1 && blockMode k == 0xFF).map fun k => regEntries (blockBody k)).getD []
  keys.eraseDups.length == keys.length &&
  blks.all (fun k =>
    let body := blockBody k
    match blockType k with
    | 1 => body.length % 24 == 0 && regsOk (blockMode k == 0xFF) (regEntries body)
    | 2 => blockMode k == 0xFF && body.length % 104 == 0 && sieveOk base (sieveRecords body)
    | _ => blockMode k == 0xFF && groupOk body) &&
  banksOk base

/-- R446 to R448: the first failing check of a configuration image, or its parts. -/
def cfgCheck (b : List Byte) : Except ImageFail CfgImage :=
  let len := fieldLe b 8 4
  let headerOk := fieldLe b 0 4 == 0x46434B56 && fieldLe b 4 2 == 1 && decide (fieldLe b 6 2 ≤ 32) && decide (40 ≤ len) &&
    decide (len ≤ 524288) && len % 8 == 0 && len == b.length
  if !headerOk then .error .header
  else match splitBlocks b (len - 8) (fieldLe b 6 2) 32 with
    | none => .error .blockCrc
    | some blks =>
      if !crcOk b (len - 8) then .error .imageCrc
      else if !zeroAt b 16 16 || !zeroAt b (len - 4) 4 || !(blks.all blockRanges) then .error .range
      else if (blks.map List.length).sum + 40 ≠ len || !blocksOk blks then .error .rule
      else .ok (imageOf (fieldLe b 12 4) blks)

/-! ## Applying a configuration (R448) -/

/-- One entry of the base block: a bank's setting and a tenant's shadow settings have homes of their own. -/
def State.applyBase (s : State) (e : RegEntry) : State :=
  match regAt e.off with
  | none => s
  | some d =>
    let i := d.idx e.off
    let mix (old : Reg) : Reg := (old &&& ~~~e.mask) ||| e.value
    let shadow (f : Settings → Settings) : State := s.modTenant (i + 1) fun t => { t with shadow := f t.shadow }
    match d.name with
    | .svBankCfg =>
      let k := s.bank i
      let v := (mix (BitVec.ofNat 64 (k.use.toNat + 16 * b2n k.longest))).toNat
      s.modBank i fun k => { k with use := BitVec.ofNat 2 (bitsOf v 1 0), longest := bitOf v 4 }
    | .fnShLimits => shadow fun x => { x with limits := mix x.limits }
    | .fnShCtx => shadow fun x => { x with ctx := mix x.ctx }
    | .fnShResv => shadow fun x => { x with resv := mix x.resv }
    | .fnShInact => shadow fun x => { x with inact := mix x.inact }
    | .fnShSieve => shadow fun x => { x with sieve := mix x.sieve }
    | _ => s.applyEntry e

/-- The SIEVE block, each entry put in as SIEVE_ADMIN INSERT with INDEX 0xFFFF_FFFF would. -/
def State.applySieve (s : State) : State := s.cfg.image.sieve.foldl (fun s e => (s.bankInsert e.1 e.2 none).2) s

/-- The GROUP block: SET_SELF, then SET_MEMBER for each record, then ENABLE when it says so; ENABLE does nothing while D1
is empty (12 R418). -/
def State.applyGroup (s : State) : State :=
  match s.cfg.image.group with
  | none => s
  | some (self, on, cfg, members) =>
    let s := s.modFiron fun x => { x with member := self, selfCfg := cfg, peers := x.peers.del self }
    let s := members.foldl (fun s m => s.setMember m.1 m.2) s
    if on then (if s.groupKey.isSome then s.enableLink else s.record 0x0506 0 []) else s

/-! ## The boot selector (R443) -/

/-- The valid copy of the boot selector with the higher SEQ. -/
def Boot.sel (b : Boot) : Option BootSel :=
  match b.selA, b.selB with
  | some x, some y => some (if x.seq < y.seq then y else x)
  | some x, none => some x
  | none, y => y

/-- The slot the boot selector names; slot A where no copy is valid. -/
def Boot.named (b : Boot) : Nat := (b.sel.map BootSel.active).getD 0

/-- The boot selector is written: it overwrites the copy not in use, with the next SEQ. -/
def Boot.putSel (b : Boot) (x : BootSel) : Boot :=
  match b.sel with
  | none => { b with selA := some { x with seq := 1 } }
  | some cur =>
    let x := { x with seq := cur.seq + 1 }
    if b.selA = some cur then { b with selB := some x } else { b with selA := some x }

/-! ## The layout of the boot flash (R442, R443) -/

/-- A copy of the boot selector. -/
def BootSel.bytes (x : BootSel) : List Byte :=
  let b := leBytes 4 0x53424B56 ++ leBytes 4 x.seq ++ leBytes 1 x.active ++ zeros 51
  b ++ crcBytes b

/-- A copy of the key record. -/
def KeyRecord.bytes (x : KeyRecord) : List Byte :=
  let has := (List.range 3).foldl (fun a d => if x.keys.has d then a + 2 ^ (8 + d) else a) (b2n x.sanitize)
  let b := leBytes 4 0x524B4B56 ++ leBytes 4 x.seq ++ leBytes 4 has ++ zeros 4 ++
    ((List.range 3).flatMap fun d => padTo (x.keys.lookD d []) 96) ++ zeros 204
  b ++ crcBytes b

/-- A park record. -/
def ParkRecord.bytes (x : ParkRecord) : List Byte :=
  let b := leBytes 4 0x4B504B56 ++ leBytes 4 x.powerCycle ++ leBytes 8 x.poweredOnS ++ zeros 44
  b ++ crcBytes b

/-- An event record in 32 bytes (14 R480). -/
def EvRec.bytes (r : EvRec) : List Byte :=
  let b := leBytes 6 (2 * r.number) ++ leBytes 5 r.poweredOnS ++ leBytes 1 r.severity ++ leBytes 4 r.powerCycle ++
    leBytes 2 r.code ++ leBytes 2 r.source ++ r.data
  b ++ leBytes 4 (crc32c b).toNat

/-- The offset of a firmware slot. -/
def fwSlotBase (n : Nat) : Nat := if n = 0 then 0x200000 else 0x1200000

/-- Where an operation of the boot flash writes, and what: the copies written last of the boot selector and the key record
are those that the writes before it have left to be overwritten. -/
def Boot.written (b : Boot) : SpiOp → Nat × List Byte
  | .cfgB x _ => (0x100000, x)
  | .cfgA x _ => (0x80000, x)
  | .keyRecord r _ => match b.keyRec with
    | none => (0x10000, { r with seq := 1 }.bytes)
    | some x => (if b.keyA = some x then 0x11000 else 0x10000, { r with seq := x.seq + 1 }.bytes)
  | .bootSel x => match b.sel with
    | none => (0, { x with seq := 1 }.bytes)
    | some y => (if b.selA = some y then 0x1000 else 0, { x with seq := y.seq + 1 }.bytes)
  | .perm r => (0x40000 + 32 * (r.number - 1), r.bytes)
  | .parkRecord x => (0x20000 + 64 * b.parks.length, x.bytes)

/-- A firmware slot. -/
def Boot.slot (b : Boot) (n : Nat) : Option (List Byte) := if n = 0 then b.fwA else b.fwB

/-- Writes a firmware slot. -/
def Boot.putSlot (b : Boot) (n : Nat) (x : Option (List Byte)) : Boot := if n = 0 then { b with fwA := x } else { b with fwB := x }

/-- Changes the boot flash. -/
def State.modBoot (s : State) (f : Boot → Boot) : State := { s with boot := f s.boot }

/-- Changes what Starter and the firmware hold of images. -/
def State.modCfg (s : State) (f : Cfg → Cfg) : State := { s with cfg := f s.cfg }

end Sys2Proof.Machine
end

