-- ==== Sys2Proof/Machine/FlashEvents.lean ====
section
/-! DEFINITION. The events of the flash channels and the card slots (10): operations that end or time out, rows,
garbage collection, patrol, and cards that come and go. -/
namespace Sys2Proof.Machine

/-! ## SANITIZE (R377, 13 R451) -/

/-- Steps 2 and 3 of R377: tenant slots, fingerprints and D0 to D2 are emptied, no container and no data is left, and
every set's blocks are being erased. Commit counters stay. -/
def State.sanitizeErase (s : State) : State :=
  let s := (s.ctxs.filterMap fun c => match c.kind with
    | .write _ => some c.handle
    | .read _ _ _ => some c.handle
    | _ => none).foldl State.closeCtx s
  let s := s.modKeys fun k => { k with
    tenant := [], fingerprints := [], prevD1 := none, device := (List.filter (fun e => decide (e.1 ≥ 3)) k.device : AMap Key) }
  let s := s.modFiron fun f => { f with
    enabled := false, shards := [], pendingShards := [], shipped := [], overrides := [], releases := [], gathers := [], repairs := [] }
  let s := { s with
    versions := [], commits := [], records := []
    tenants := s.tenants.mapVal fun _ t => { t with nss := [], spaces := t.spaces.mapVal fun _ x => { x with live := false } } }
  let s := s.modFlash fun f => { f with
    rows := [], reads := [], sectors := [], ops := [], stalled := [], void := []
    sets := f.sets.map fun x => { x with closed := true, victim := true, members := x.members.map fun m => if m.lost then m else { m with erase := 1 } } }
  ((s.flash.sets.map StripeSet.no).foldl State.freeSet s).settle.serve

/-- Step 4 of R377 once no block is left to erase: new root records are written, the marker is cleared, and the reply
follows its write. -/
def State.sanitizeCheck (s : State) : State :=
  match s.cmds.find? fun c => c.pkt.opcode == 0xFC && c.launched && c.ref == 2 with
  | some c => if s.flash.sets.isEmpty then (s.writeRoots.modCmd c.tag fun c => { c with ref := 3 }).writeKeyRecord false c.tag else s
  | none => s

/-! ## Operations that end -/

/-- FLASH_READ_DONE (R359): of a read that has been issued to its die, or of a rebuild from parity. -/
def execFlashReadDone (rid : Nat) (ok : Bool) (s : State) : Host.Outcome State Fault Refusal :=
  match s.flash.reads.find? fun r => r.id == rid with
  | none => .next s
  | some r =>
    let soft := ((s.sector? r.sector).map fun x => softStep (s.retrySteps x.slot)).getD 0
    if s.runs (.read rid) || decide (r.step > soft) then .next (s.readDone r ok) else .next s

/-- The media address of the first page a row programs on a member. -/
def State.rowAddr (s : State) (r : Row) (m : Member) : Nat :=
  match s.geom with
  | some g => g.unitAddr m r.index 0 0
  | none => 0

/-! ## Repair onto a replacement card (R364) -/

/-- The rows of a set of which something is on flash. -/
def State.writtenRows (s : State) (no : Nat) : List Nat :=
  ((s.flash.sectors.filter fun y => y.set == no).map Sector.row).eraseDups

/-- The lost units of a member are recomputed from the others, row by row, and programmed into its fresh block; with
none left the member holds them again. -/
def State.repairRows (s : State) (x : StripeSet) (slot : Nat) : State :=
  let rows := s.writtenRows x.no
  let unit := (s.geom.map CardInfo.unit).getD 0
  if rows.isEmpty then
    s.modSet x.no fun y => { y with members := adjWhere y.members (fun m => m.slot == slot) fun m => { m with lost := false, repair := false } }
  else
    (s.modFlash fun f => { f with
      nextRow := f.nextRow + rows.length
      rows := f.rows ++ (List.range rows.length).map fun i =>
        ⟨f.nextRow + i, x.no, rows.getD i 0, x.batch, .copies, x.prot, true, [], [(slot, ProgState.outstanding)], 0, false, false, some slot⟩
      health := { f.health with programmed := f.health.programmed + rows.length * unit * 4096 } }).serve

/-- A degraded set takes a fresh block in place of the one it lost on a slot; a block that is not erased is erased
first (R343). A set whose rows the other units cannot restore takes none. -/
def State.regainSet (s : State) (slot no : Nat) : State :=
  match s.set? no, (s.card slot).info with
  | some x, some g =>
    if x.victim || !x.prot || decide ((x.members.filter Member.lost).length > 2) || !(x.members.any fun m => m.slot == slot && m.lost) then s
    else match s.freeBlock g slot with
      | none => s
      | some b =>
        let key := blockKey slot b.1 b.2.1 b.2.2
        let clean := s.flash.clean.contains key
        let s := s.modSet no fun y => { y with members := adjWhere y.members (fun m => m.slot == slot) fun _ =>
          ⟨slot, b.1, b.2.1, b.2.2, true, if clean then 0 else 1, false, true⟩ }
        let s := (s.modFlash fun f => { f with clean := f.clean.filter fun k => k != key }).writeRoots
        if clean then match s.set? no with
          | some y => s.repairRows y slot
          | none => s
        else s.serve
  | _, _ => s

/-- Gives each degraded set a fresh block in place of the one lost on a slot. -/
def State.regain (s : State) (slot : Nat) : State :=
  ((s.flash.sets.filter fun x => x.members.any fun m => m.lost && !m.repair && m.slot == slot).map StripeSet.no).foldl
    (fun s no => s.regainSet slot no) s

/-- A program of a repair ends: with the last row the member holds its units again; after a failure the fresh block is
retired and another one taken. -/
def State.repairDone (s : State) (r : Row) (m : Member) (ok : Bool) : State :=
  if ok then
    let s := s.modFlash fun f => { f with rows := f.rows.filter fun x => x.id != r.id }
    if s.flash.rows.any fun x => x.set == r.set && x.repair == some m.slot then s
    else s.modSet r.set fun y => { y with members := adjWhere y.members (fun k => k.slot == m.slot) fun k => { k with lost := false, repair := false } }
  else
    let s := s.modFlash fun f => { f with rows := f.rows.filter fun x => !(x.set == r.set && x.repair == some m.slot) }
    (s.retireBlock m).regainSet m.slot r.set

/-- A program operation ends (R355, R357): one that succeeds has its sectors on flash. -/
def State.programDone (s : State) (r : Row) (m : Member) (ok : Bool) : State :=
  let s := s.modCard m.slot fun c => { c with programs := c.programs + 1 }
  let s := if ok then s
    else (s.bump .ftCnt 4).record 0x0309 (chanNo m.slot m.chan) (leBytes 8 (s.rowAddr r m))
  let s := if r.repair.isSome then s.repairDone r m ok
    else if ok then (s.layMember r m.slot).modRow r.id fun r => { r with progs := r.progs.put m.slot .done }
    else (s.modSet r.set fun x => { x with members := adjWhere x.members (fun y => y.slot == m.slot) fun y => { y with retire := true } }).programFails
      r.id m.slot
  (((s.endRow r.id).dieResult m ok).offlinePower m.slot).serve

/-- The member of a row on which a program runs. -/
def State.programming (s : State) (row : Nat) (slot : Fin 24) : Option (Row × Member) :=
  (s.row? row).bind fun r =>
    if r.issued ∧ r.progs.look slot = some .outstanding ∧ s.runs (.program row slot) then
      ((s.set? r.set).bind fun x => x.members.find? fun m => m.slot == slot.val).map fun m => (r, m)
    else none

/-- FLASH_PROGRAM_DONE. -/
def execFlashProgramDone (row : Nat) (slot : Fin 24) (ok : Bool) (s : State) : Host.Outcome State Fault Refusal :=
  match s.programming row slot with
  | some p => .next (s.programDone p.1 p.2 ok)
  | none => .next s

/-- Is a block retired at its wear limit (R367)? -/
def State.wornOut (s : State) (m : Member) : Bool :=
  match (s.card m.slot).info with
  | some g => decide (s.flash.wear.lookD (blockKey m.slot m.chan m.die m.block) 0 * 100 ≥ g.endurance * s.regBits .ftCfg 0 31 24)
  | none => false

/-- Every block of a new set is erased: the rows that waited for them are programmed (R343). -/
def State.issueDue (s : State) (no : Nat) : State :=
  ((s.flash.rows.filter fun r => r.set == no && r.due).map Row.id).foldl State.issueRow s

/-- The erase before first use of a block of a set ends (R343): a block that fails it is retired, and the free good block
with the lowest erase count takes its place. -/
def State.firstErased (s : State) (no : Nat) (m : Member) (ok : Bool) : State :=
  let put (s : State) (k : Member) : State :=
    s.modSet no fun x => { x with members := adjWhere x.members (fun y => y.slot == m.slot) fun _ => k }
  if ok then
    let s := put s { m with erase := 0 }
    if m.repair then match s.set? no with
      | some x => s.repairRows x m.slot
      | none => s
    else s.issueDue no
  else
    let s := s.retireBlock m
    if m.repair then s.regainSet m.slot no
    else match (s.card m.slot).info.bind fun g => s.freeBlock g m.slot with
      | some b =>
        let key := blockKey m.slot b.1 b.2.1 b.2.2
        let clean := s.flash.clean.contains key
        let s := (put s { m with chan := b.1, die := b.2.1, block := b.2.2, erase := if clean then 0 else 1 }).modFlash fun f =>
          { f with clean := f.clean.filter fun k => k != key }
        if clean then s.issueDue no else s
      | none => (put s { m with erase := 0, lost := true }).issueDue no

/-- An erase ends (R367): a block that failed it, had failed a program, or is worn out is retired. -/
def State.eraseDone (s : State) (no : Nat) (m : Member) (ok : Bool) : State :=
  let key := blockKey m.slot m.chan m.die m.block
  let s := s.modFlash fun f => { f with wear := f.wear.put key (f.wear.lookD key 0 + 1) }
  let s := s.modCard m.slot fun c => { c with erases := c.erases + 1 }
  let s := if ok then s else s.bump .ftCnt 5
  let s := if (s.set? no).any StripeSet.victim then
      let s := s.modSet no fun x => { x with members := adjWhere x.members (fun y => y.slot == m.slot) fun y => { y with erase := 2 } }
      if !ok || m.retire || s.wornOut m then s.retireBlock m else s
    else s.firstErased no m (ok && !s.wornOut m)
  ((((s.dieResult m ok).freeSet no).offlinePower m.slot).sanitizeCheck).serve

/-- The member of a set whose erase runs. -/
def State.erasing (s : State) (set : Nat) (slot : Fin 24) : Option Member :=
  if s.runs (.erase set slot) then (s.set? set).bind fun x => x.members.find? fun m => m.slot == slot.val && m.erase == 1 else none

/-- FLASH_ERASE_DONE. -/
def execFlashEraseDone (set : Nat) (slot : Fin 24) (ok : Bool) (s : State) : Host.Outcome State Fault Refusal :=
  match s.erasing set slot with
  | some m => .next (s.eraseDone set m ok)
  | none => .next s

/-- A flash operation on a die passes its timeout (R334): Reset LUN goes to the die; a second timeout of the die within one
second, which is a free choice, fails it (R364). The code of the operation in the record is a free value. -/
def State.dieTimeout (s : State) (slot chan die : Nat) : State :=
  let key := dieKey slot chan die
  let s := (s.onfi key [0xFA]).record 0x0306 (chanNo slot chan) (leBytes 1 die ++ [(s.free.setWidth 8)])
  let s := (s.tick.modCard slot fun c => { c with errTimeout := true })
  let within := (s.die key).timeouts > 0 && s.choice 2 == 0
  let s := s.tick.modDie key fun d => { d with timeouts := d.timeouts + 1 }
  if within then s.failDie slot chan die else s

/-- A card is Rejected for a reason (R338, R340). -/
def State.rejectCard (s : State) (slot reason : Nat) : State :=
  ((s.modCard slot fun c => { c with state := 2, reject := reason }).cardPower slot false).record 0x0301 slot (leBytes 1 reason)

/-- Does a read run on its die, or its rebuild from parity? -/
def State.readRuns (s : State) (r : FlashRead) : Bool :=
  s.runs (.read r.id) || match s.sector? r.sector with
    | some x => decide (r.step > softStep (s.retrySteps x.slot))
    | none => true

/-- FLASH_OP_TIMEOUT (R334): the operation is handled as a failure. A Reset, Read ID or Read Parameter Page that times out
during identification fails check 5 of R338. -/
def execFlashOpTimeout (op : FlashOpRef) (s : State) : Host.Outcome State Fault Refusal :=
  match op with
  | .read rid => match s.flash.reads.find? fun r => r.id == rid with
    | none => .next s
    | some r => match (s.sector? r.sector).bind fun x => (s.memberOf x).map fun m => (x, m) with
      | none => .next (s.dropRead rid)
      | some p =>
        if !s.readRuns r then .next s
        else
          let s := (s.dieResult p.2 false).dieTimeout p.2.slot p.2.chan p.2.die
          match s.flash.reads.find? fun r => r.id == rid with
          | none => .next s
          | some r =>
            if r.step > softStep (s.retrySteps p.1.slot) then .next (s.readDone r false) else .next (s.toParity r true)
  | .program row slot => match s.programming row slot with
    | some p => .next ((s.dieTimeout p.2.slot p.2.chan p.2.die).programDone p.1 p.2 false)
    | none => .next s
  | .erase set slot => match s.erasing set slot with
    | some m => .next ((s.dieTimeout m.slot m.chan m.die).eraseDone set m false)
    | none => .next s
  | .command slot chan die =>
    if !(s.card slot).powered then .next s
    else
      let s := s.dieTimeout slot chan die
      if (s.card slot).state = 1 then .next (s.rejectCard slot 5)
      else .next (s.dieResult ⟨slot, chan, die, 0, false, 0, false, false⟩ false).serve

/-- FLASH_OP_AGING (R335): an operation that waits is served as QOS 7. -/
def execFlashOpAging (op : FlashOpRef) (s : State) : Host.Outcome State Fault Refusal :=
  .next (s.modFlash fun f => { f with ops := adjWhere f.ops (fun o => o.ref == op && !o.run) fun o => { o with qos := 7 } }).serve

/-- Writes the groups of a row again while its programs go on (14 R464). -/
def State.reissueRow (s : State) (r : Row) : State :=
  let again := r.groups.filter fun g => !s.elsewhere r.id g
  again.foldl (fun s g => s.rewriteGroup r g) (s.closeSet r.set)

/-- PROGRAM_EARLY_REISSUE (14 R464): a read behind the program starts its rebuild from parity at once (14 R465). -/
def execProgramEarlyReissue (row : Nat) (slot : Fin 24) (s : State) : Host.Outcome State Fault Refusal :=
  match s.programming row slot with
  | none => .next s
  | some p =>
    let key := dieKey p.2.slot p.2.chan p.2.die
    let waiting := s.flash.reads.filter fun r => (s.sector? r.sector).any fun x => s.dieOf x == key
    if p.1.repair.isSome || p.1.dead then .next s
    else .next (waiting.foldl (fun s r => s.toParity r false) (s.reissueRow p.1))

/-- ERASE_PAST_HALF_TIME (14 R465). -/
def execErasePastHalfTime (set : Nat) (slot : Fin 24) (s : State) : Host.Outcome State Fault Refusal :=
  match s.erasing set slot with
  | none => .next s
  | some m =>
    let key := dieKey m.slot m.chan m.die
    let waiting := s.flash.reads.filter fun r => (s.sector? r.sector).any fun x => s.dieOf x == key
    .next (waiting.foldl (fun s r => s.toParity r false) s)

/-- ROW_FILL_TIMEOUT (R356): a row with data that is not full is filled and programmed. -/
def execRowFillTimeout (row : Nat) (s : State) : Host.Outcome State Fault Refusal :=
  match s.row? row with
  | some r => if r.issued || r.groups.isEmpty then .next s else .next (s.issueRow row)
  | none => .next s

/-- ROW_DURABLE (R355): every program of the row has succeeded. -/
def execRowDurable (row : Nat) (s : State) : Host.Outcome State Fault Refusal :=
  match s.row? row, s.geom with
  | some r, some g =>
    if r.issued && r.repair.isNone && !r.progs.isEmpty && r.progs.all fun p => p.2 == .done then
      match s.set? r.set with
      | some x => .next (s.rowDurable r x g)
      | none => .next s
    else .next s
  | _, _ => .next s

/-! ## Garbage collection and patrol -/

/-- The victim of a Batch (R365): of the sets marked for it, else of all where fewer than 8 free sets are left, the one
with the fewest valid sectors, the lowest mean erase count on a tie. -/
def State.gcVictim (s : State) (batch : Nat) : Option StripeSet :=
  let cands := s.flash.sets.filter fun x => x.batch == batch && x.closed && !x.victim && !s.flash.rows.any fun r => r.set == x.no
  let marked := cands.filter StripeSet.gcMark
  let marked := if marked.any StripeSet.urgent then marked.filter StripeSet.urgent else marked
  let pool := if !marked.isEmpty then marked else if s.freeSets < 8 then cands else []
  leastBy pool fun x =>
    let wear := x.members.foldl (fun a m => a + s.flash.wear.lookD (blockKey m.slot m.chan m.die m.block) 0) 0
    (s.validOf x.no).length * 2 ^ 32 + wear / max x.members.length 1

/-- GC_START (R365, R366): the valid sectors of the victim are read; a set with none is erased. -/
def execGcStart (batch : Fin 4) (s : State) : Host.Outcome State Fault Refusal :=
  if !s.modes.running || s.modes.powerFail then .next s
  else match s.gcVictim batch with
    | none => .next s
    | some x =>
      let s := s.modSet x.no fun y => { y with victim := true }
      .next ((s.beginReads (.copy x.no) ((s.validOf x.no).map Sector.id)).tryErase x.no)

/-- PATROL_READ (R360): a block where a sector needs retry step ⌈RR_STEPS ÷ 2⌉ or later, soft decoding or parity
marks its set. `step` counts the retry steps, then soft decoding, then parity. -/
def execPatrolRead (set : Nat) (slot : Fin 24) (step : Nat) (s : State) : Host.Outcome State Fault Refusal :=
  match s.set? set with
  | none => .next s
  | some x =>
    if x.members.any (fun m => m.slot == slot && !m.lost) && decide (step ≥ (s.retrySteps slot + 1) / 2) then
      .next ((s.modSet set fun y => { y with gcMark := true }).bump .ftCnt 8)
    else .next s

/-- The chip enables of a card that are populated, by their first dies (R337). -/
def CardInfo.ces (g : CardInfo) : List Nat := (List.range 8).filter fun i => g.ceMap.getD i 0 != 0

/-- Sends a command sequence to every populated chip enable of a card, on all 8 channels. -/
def State.allCes (s : State) (slot : Nat) (g : CardInfo) (codes : List Nat) : State :=
  (List.range 8).foldl (fun s ch => g.ces.foldl (fun s ce => s.emit (.onfi slot ch (4 * ce) codes)) s) s

/-- ZQ_CALIBRATION (R332): ZQ Calibration Long on every chip enable of a card in service. -/
def execZqCalibration (slot : Fin 24) (s : State) : Host.Outcome State Fault Refusal :=
  match (s.card slot).info with
  | some g => if (s.card slot).serves then .next (s.allCes slot g [0xF9]) else .next s
  | none => .next s

/-! ## Cards (R336 to R344) -/

/-- One sequential read of the identity EEPROM (R336): bus address 0x50 plus the slot's straps, 2-byte word address. -/
def State.i2cRead (s : State) (slot k : Nat) : State :=
  s.emit (.i2cRead slot (0x50 + (Config.cardStrap slot).toNat) (64 * k) 64)

/-- Steps 2 and 3 of R341: the slot is Identifying and powered, and the record is read in eight sequential reads. -/
def State.identify (s : State) (slot : Nat) : State :=
  let s := (s.modCard slot fun c => { c with state := 1, tries := 0 }).cardPower slot true
  (List.range 8).foldl (fun s k => s.i2cRead slot k) s

/-- A card has been inserted: in a mode that powers cards the identification starts. -/
def State.cardInserted (s : State) (slot : Nat) : State :=
  if (s.card slot).present then s
  else
    let s := s.modCard slot fun c => { c with present := true }
    if s.awake && !s.modes.powerFail then s.identify slot else s

/-- CARD_INSERTED. -/
def execCardInserted (slot : Fin 24) (s : State) : Host.Outcome State Fault Refusal := .next (s.cardInserted slot)

/-- I2C_TIMEOUT (R336): a transaction, which one is a free choice, is tried again up to three attempts, then reason 1. -/
def execI2cTimeout (slot : Fin 24) (s : State) : Host.Outcome State Fault Refusal :=
  let c := s.card slot
  if c.state ≠ 1 then .next s
  else if c.tries + 1 < 3 then .next ((s.modCard slot fun c => { c with tries := c.tries + 1 }).i2cRead slot (s.choice 8)).tick
  else .next ((s.modCard slot fun c => { c with tries := 3, errI2c := true }).rejectCard slot 1)

/-- Printable ASCII. -/
def asciiOk (b : List Byte) : Bool := b.all fun x => decide (0x20 ≤ x.toNat) && decide (x.toNat ≤ 0x7E)

/-- The fields of an identity record (R337). -/
def cardInfo (b : List Byte) : CardInfo where
  serial := sliceB b 8 16
  part := sliceB b 24 16
  jedec := fieldLe b 40 1
  bitsPerCell := fieldLe b 41 1
  planes := fieldLe b 42 1
  maxRate := fieldLe b 43 1
  model := sliceB b 44 20
  pageBytes := fieldLe b 64 4
  spareBytes := fieldLe b 68 2
  pagesPerBlock := fieldLe b 70 2
  blocksPerLun := fieldLe b 72 4
  maxBad := fieldLe b 76 2
  endurance := fieldLe b 78 2
  ceMap := (sliceB b 80 8).map BitVec.toNat
  dies := fieldLe b 88 1
  tReadUs := fieldLe b 90 2
  tProgUs := fieldLe b 92 2
  tErsUs := fieldLe b 94 2
  tempWarn := fieldLe b 96 1
  tempMax := fieldLe b 97 1
  rrFeature := fieldLe b 98 1
  rrSteps := fieldLe b 99 1

/-- Is a number within bounds? -/
def within (lo v hi : Nat) : Bool := decide (lo ≤ v) && decide (v ≤ hi)

/-- The ranges of the geometry fields. -/
def CardInfo.geometryOk (g : CardInfo) : Bool :=
  within 3 g.bitsPerCell 4 && [2, 4, 8].contains g.planes && within 0 g.maxRate 2 &&
  [8192, 16384, 32768].contains g.pageBytes &&
  g.spareBytes % (g.pageBytes / 4096) == 0 && within 320 (g.spareBytes / (g.pageBytes / 4096)) 640 &&
  within 256 g.pagesPerBlock 16384 && g.pagesPerBlock % g.bitsPerCell == 0 &&
  within 1024 g.blocksPerLun 65536 && g.blocksPerLun % g.planes == 0 && within 1 g.maxBad (g.blocksPerLun / 8)

/-- The ranges of the other fields, and the zero bytes of the retry table. -/
def CardInfo.rangesOk (g : CardInfo) (b : List Byte) : Bool :=
  let luns := (g.ceMap.filter (· != 0)).eraseDups
  let levels := 2 ^ g.bitsPerCell - 1
  asciiOk g.serial && !(g.serial.all (· == 0x20)) && asciiOk g.part && asciiOk g.model && g.geometryOk &&
  within 100 g.endurance 65535 && g.ceMap.all (fun x => decide (x ≤ 4)) && decide (luns.length ≤ 1) &&
  within 1 g.dies 32 && g.dies == g.ceMap.sum && within 10 g.tReadUs 150 && within 100 g.tProgUs 3000 &&
  within 1000 g.tErsUs 30000 && within 40 g.tempWarn 100 && within (g.tempWarn + 1) g.tempMax 110 &&
  within 0x80 g.rrFeature 0xFF && within 1 g.rrSteps 16 && fieldLe b 100 1 == levels &&
  zeroAt b 89 1 && zeroAt b 101 27 && zeroAt b 384 124 &&
  (List.range 16).all fun k => zeroAt b (128 + 16 * k + (if k < g.rrSteps then levels else 0)) (if k < g.rrSteps then 16 - levels else 16)

/-- Is the geometry that of the cards in service (check 10)? -/
def CardInfo.sameAs (g h : CardInfo) : Bool :=
  g.pageBytes == h.pageBytes && g.spareBytes == h.spareBytes && g.planes == h.planes &&
  g.bitsPerCell == h.bitsPerCell && g.pagesPerBlock == h.pagesPerBlock

/-- The parameter page of a chip enable: its first copy whose CRC passes (R332). -/
def pageOf (c : ChipReport) : Option ParamPage := c.copies.findSome? id

/-- The populated chip enables of a card, by channel and number. -/
def CardInfo.chips (g : CardInfo) : List (Nat × Nat) := (List.range 8).flatMap fun ch => g.ces.map fun ce => (ch, ce)

/-- The report of a chip enable, if it answers. -/
def chipOf (r : CardReport) (p : Nat × Nat) : Option ChipReport := r.chips.find? fun c => c.chan == p.1 && c.ce == p.2

/-- Does a parameter page agree with the record (R339)? -/
def pageAgrees (p : ParamPage) (g : CardInfo) : Bool :=
  p.jedec == g.jedec && p.model == g.model && p.pageBytes == g.pageBytes && p.spareBytes == g.spareBytes &&
  p.pagesPerBlock == g.pagesPerBlock && p.blocksPerLun == g.blocksPerLun &&
  g.ceMap.all (fun n => n == 0 || n == p.lunsPerCe) && p.bitsPerCell == g.bitsPerCell && 2 ^ p.planeBits == g.planes &&
  p.maxBad == g.maxBad && decide (p.endurance ≥ g.endurance)

/-- Check 5 of R338: every populated chip enable answers "ONFI" and has a good parameter page. -/
def answersOk (r : CardReport) (g : CardInfo) : Bool :=
  g.chips.all fun p => (chipOf r p).any fun c => c.onfi && (pageOf c).isSome

/-- Check 6 of R338 (R339): every page agrees, and no chip enable that the record marks unpopulated answers. -/
def pagesAgree (r : CardReport) (g : CardInfo) : Bool :=
  (g.chips.all fun p => ((chipOf r p).bind pageOf).any fun x => pageAgrees x g) &&
  r.chips.all fun c => g.ceMap.getD c.ce 0 != 0

/-- The highest rate a card may run at: in the timing modes of every parameter page and at most MAX_RATE (check 7). -/
def cardRate (g : CardInfo) (r : CardReport) : Option Nat :=
  greatestBy ([0, 1, 2].filter fun x => decide (x ≤ g.maxRate) &&
    g.chips.all fun p => ((chipOf r p).bind pageOf).any fun y => y.rates.contains x) id

/-- The channels whose training fails (check 9). -/
def untrained (r : CardReport) : List Nat := (List.range 8).filter fun ch => !r.trained.contains ch

/-- The first failing check of R338, or the card's fields and rate. -/
def State.admitCard (s : State) (r : CardReport) : Except Nat (CardInfo × Nat) :=
  match r.record with
  | none => .error 1
  | some b =>
    let g := cardInfo b
    if b.length ≠ 512 ∨ fieldLe b 0 4 ≠ 0x44434B56 ∨ fieldLe b 4 2 ≠ 1 ∨ fieldLe b 6 2 ≠ 512 then .error 2
    else if !crcOk b 508 then .error 3
    else if !g.rangesOk b then .error 4
    else if !answersOk r g then .error 5
    else if !pagesAgree r g then .error 6
    else match cardRate g r with
      | none => .error 7
      | some rate =>
        if s.inService.any fun n => ((s.card n).info.map CardInfo.serial) == some g.serial then .error 8
        else if !(untrained r).isEmpty then .error 9
        else if s.geom.any fun h => !g.sameAs h then .error 10
        else .ok (g, rate)

/-- What the VK6410 sends to a card on the way to the outcome of its checks (R341 steps 5 and 6): with the record good,
Reset, Read ID and Read Parameter Page; from check 9 on, ZQ calibration, Set Features for ODT and rate, and training
(the codes of the training commands are PRESUMED, log 130). -/
def State.probeCard (s : State) (slot : Nat) (r : CardReport) (fails : Option Nat) : State :=
  match r.record with
  | none => s
  | some b =>
    let g := cardInfo b
    let past (n : Nat) : Bool := fails.all fun k => decide (k ≥ n)
    let s := if past 5 then s.allCes slot g [0xFF, 0x90, 0xEC] else s
    if past 9 then s.allCes slot g [0xF9, 0xEF, 0x18, 0x62, 0x63, 0x64] else s

/-- Training of a channel failed: the channel is failed, and each of its dies (R364). -/
def State.failChannel (s : State) (slot chan : Nat) (g : CardInfo) : State :=
  let s := g.dieList.foldl (fun s d => s.modDie (dieKey slot chan d) fun x => { x with failed := true }) s
  s.record 0x0308 (chanNo slot chan) []

/-- Everything the model keeps of the blocks and dies of a slot, dropped for another card. -/
def State.newCard (s : State) (slot : Nat) : State :=
  let s := s.modFlash fun f => { f with
    wear := f.wear.filter fun (e : Nat × Nat) => e.1 / 65536 / 256 != slot
    bad := f.bad.filter fun k => k / 65536 / 256 != slot
    clean := f.clean.filter fun k => k / 65536 / 256 != slot
    roots := f.roots.del slot
    dies := List.filter (fun e => e.1 / 256 != slot) f.dies }
  s.modCard slot fun c => { c with grownBad := 0, programs := 0, erases := 0, uncorrectable := 0, factory := [], factoryBad := 0 }

/-- A card has passed every check (R341 step 8): a card that is not known brings none of its old content, each of its
blocks is erased before its first use, the units the slot held are lost, and the factory's marks are read (R343, R362). -/
def State.cardOnline (s : State) (slot : Nat) (g : CardInfo) (rate : Nat) (bad : List (Nat × Nat × Nat)) : State :=
  let c := s.card slot
  let same := c.known == g.serial
  let kept := same && s.modes.mode == .discovery
  let s := if same then s else s.newCard slot
  let s := if kept then s else s.loseUnits (fun m => m.slot == slot) false
  let s := s.modFlash fun f => { f with
    dies := List.filter (fun e => e.1 / 256 != slot || kept && e.2.failed) f.dies
    clean := if kept then f.clean else f.clean.filter fun k => k / 65536 / 256 != slot }
  let waits := s.flash.sets.any fun x => x.members.any fun m => m.lost && m.slot == slot
  let s := s.modCard slot fun c => { c with
    state := if waits then 4 else 3, rate := rate, info := some g, known := g.serial, iface := 1, odt := true, trained := true
    factoryBad := if same then c.factoryBad else bad.length
    factory := if same then c.factory else (bad.map fun b => blockKey slot b.1 b.2.1 (b.2.2 / g.planes * g.planes)).eraseDups }
  let s := (((s.record 0x0302 slot (leBytes 1 rate ++ leBytes 1 g.dies)).takeUsable).clearWear).writeRoots
  ((if waits then s.regain slot else s).unstall).settle

/-- CARD_IDENTIFIED. -/
def execCardIdentified (slot : Fin 24) (report : CardReport) (s : State) : Host.Outcome State Fault Refusal :=
  if (s.card slot).state ≠ 1 then .next s
  else match s.admitCard report with
    | .error n =>
      let s := s.probeCard slot report (some n)
      let s := if n = 1 then s.modCard slot fun c => { c with errI2c := true } else s
      let s := if n = 9 then (untrained report).foldl (fun s ch => s.failChannel slot ch (cardInfo (report.record.getD []))) s else s
      .next (s.rejectCard slot n)
    | .ok p => .next ((s.probeCard slot report none).cardOnline slot p.1 p.2 report.factoryBad)

/-- A card has been removed (R341, R342). -/
def State.cardRemoved (s : State) (slot : Nat) : State :=
  let c := s.card slot
  if !c.present then s
  else
    let s := s.modCard slot fun c => { c with present := false, state := 0, errRemoved := true }
    let s := (s.cardPower slot false).record 0x0303 slot (leBytes 1 c.state)
    if c.serves then (s.cardLeaves slot false).sanitizeCheck else s

/-- CARD_REMOVED. -/
def execCardRemoved (slot : Fin 24) (s : State) : Host.Outcome State Fault Refusal := .next (s.cardRemoved slot)

/-- `FCH_CARD_CTRL.OFFLINE` (R342): operations already issued to the card finish before its power goes. -/
def State.cardOffline (s : State) (slot : Nat) : State :=
  if (s.card slot).serves then
    ((s.modCard slot fun c => { c with state := 5 }).cardLeaves slot true).offlinePower slot
  else s

/-- CARD_OFFLINE. -/
def execCardOffline (port : Port) (slot : Fin 24) (s : State) : Host.Outcome State Fault Refusal :=
  .next (if s.mmio port then (s.mgmtAccess port).cardOffline slot else s)

/-- `FCH_CARD_CTRL.RESTORE` (R342). -/
def State.cardRestore (s : State) (slot : Nat) : State :=
  let c := s.card slot
  if (c.state = 5 ∨ c.state = 6 ∨ c.state = 2) ∧ c.present then s.identify slot else s

/-- CARD_RESTORE. -/
def execCardRestore (port : Port) (slot : Fin 24) (s : State) : Host.Outcome State Fault Refusal :=
  .next (if s.mmio port then (s.mgmtAccess port).cardRestore slot else s)

/-- Does a slot still wait for units that the others can restore (R364)? -/
def State.regaining (s : State) (slot : Nat) : Bool :=
  s.flash.sets.any fun x => x.prot && !x.victim && decide ((x.members.filter Member.lost).length ≤ 2) &&
    x.members.any fun m => m.lost && m.slot == slot

/-- CARD_REBUILD_COMPLETE (R364): the slot is Online once every unit that can be restored has been. -/
def execCardRebuildComplete (slot : Fin 24) (s : State) : Host.Outcome State Fault Refusal :=
  if (s.card slot).state ≠ 4 ∨ s.regaining slot then .next s
  else .next ((s.modCard slot fun c => { c with state := 3 }).takeUsable).settle

/-- XTS_SELF_CHECK_FAILURE (R364): cause 2. -/
def execXtsSelfCheckFailure (slot : Fin 24) (s : State) : Host.Outcome State Fault Refusal :=
  .next (s.failCard slot 2).sanitizeCheck

end Sys2Proof.Machine
end

