-- ==== Sys2Proof/Machine/BootCmds.lean ====
section
/-! DEFINITION. FW_DOWNLOAD, FW_ACTIVATE and their end (13 R456, R457; 03 R110), and the operations of the boot flash
(13 R443; 14 R472). -/
namespace Sys2Proof.Machine

/-! ## FW_DOWNLOAD (R456) -/

/-- The slot that firmware chunks go into: the one the boot selector does not name. -/
def State.otherSlot (s : State) : Nat := 1 - min s.boot.named 1

/-- Does a chunk belong to the download in progress, or start a new one? -/
def Download.takes (d : Download) (target off total : Nat) : Bool :=
  off == 0 || (d.active && d.target == target && d.total == total && d.bytes.length == off)

/-- A download has ended: DL_FAIL takes its reason. -/
def State.endDownload (s : State) (fail : Nat) : State :=
  s.modCfg fun x => { x with download := { x.download with active := false, fail := fail } }

/-- The last chunk has arrived: the whole image is checked (R445, R448). A firmware image that passes is pending; a
configuration that passes is written to copy B, and the reply waits. -/
def State.checkDownload (s : State) (c : Cmd) (b : List Byte) : State :=
  if s.cfg.download.target = 0 then
    match s.fwCheck b with
    | .ok i => ((s.endDownload 0).modCfg fun x => { x with fwPending := some i }).complete c .ok 0 0 0
    | .error e => (s.endDownload e.code).fail c (if e = .signature then .notPermitted else .invalidField)
  else
    match cfgCheck b with
    | .ok _ => ((s.endDownload 0).launch c.tag).modBoot fun x => { x with ops := x.ops ++ [SpiOp.cfgB b c.tag] }
    | .error e => (s.endDownload e.code).fail c .invalidField

/-- FW_DOWNLOAD. -/
def execFwDownload (tag : Nat) (s : State) : Host.Outcome State Fault Refusal :=
  match s.ready tag 0xF5 with
  | none => .next s
  | some c =>
    let target := c.pkt.fld 24 1
    let off := c.pkt.fld 28 4
    let total := c.pkt.fld 32 4
    if !s.cfg.download.takes target off total then .next (s.fail c .invalidField)
    else
      let b := (if off = 0 then [] else s.cfg.download.bytes) ++ c.data
      let s := s.modCfg fun x => { x with download := ⟨true, target, total, b, x.download.fail⟩ }
      let s := if target = 0 then
          let n := s.otherSlot
          ((s.modBoot fun x => x.putSlot n (some (overlay ((x.slot n).getD []) off c.data))).modCfg fun x =>
            { x with fwPending := none }).emit (.spiWrite (fwSlotBase n + off) c.data)
        else s
      .next (if b.length < total then s.complete c .ok 0 0 0 else s.checkDownload c b)

/-! ## FW_ACTIVATE (R457, R110) -/

/-- FW_ACTIVATE: the device enters Quiesce and drains. One activation runs at a time. -/
def execFwActivate (tag : Nat) (s : State) : Host.Outcome State Fault Refusal :=
  match s.ready tag 0xF6 with
  | none => .next s
  | some c =>
    if s.cfg.fwPending.isNone ∨ s.modes.fwWait.isSome then .next (s.fail c .invalidField)
    else
      let slot := s.otherSlot
      let s := (s.launch tag fun c => { c with ref := slot + 1 }).modModes fun m => { m with fwWait := some tag }
      .next (s.quiesceFor fun m => { m with quiesceFw := true })

/-- A control core that begins at the active firmware's ENTRY, in privileged mode (06 R201; 13 R450). -/
def State.freshCore (s : State) : Core := { Core.init with pc := BitVec.ofNat 32 s.cfg.fwActive.entry, priv := true }

/-- The four control cores begin the active firmware (R110 step 3). -/
def State.enterFirmware (s : State) : State :=
  (List.range 4).foldl (fun s c => s.modCcore c fun k => { k with
    core := s.freshCore, irqs := [], halted := false, idle := false, st := 1 }) s

/-- Ends an activation: QUIESCE is cleared, and the events held meanwhile are answered (R110, R513). -/
def State.endActivation (s : State) : State :=
  let s := (s.modModes fun m => { m with fwSwitched := false, quiesceFw := false, fwWait := none }).settle.answerMaint.pump
  (s.cmds.filter fun c => c.pkt.opcode == 0x06 && c.launched).foldl State.answerHeld s

/-- COMMIT_SVN and REVOKE_BELOW (R457). -/
def Cfg.commitFw (x : Cfg) (flags : Nat) (i : FwInfo) : Cfg :=
  { x with
    svnFused := if bitOf flags 0 then max x.svnFused i.svn else x.svnFused
    revoked := if bitOf flags 1 then x.revoked ||| BitVec.ofNat 4 (2 ^ i.keyIndex - 1) else x.revoked }

/-- The activation in progress: its command, and the image it starts. -/
def State.activation (s : State) : Option (Cmd × FwInfo) :=
  if s.modes.fwSwitched then (s.modes.fwWait.bind s.cmd?).bind fun c => s.cfg.fwPending.map fun i => (c, i) else none

/-- FIRMWARE_READY: the new firmware runs once the boot selector names its slot. -/
def execFirmwareReady (s : State) : Host.Outcome State Fault Refusal :=
  match s.activation with
  | none => .next s
  | some (c, i) =>
    let writing := s.boot.ops.any fun o => match o with
      | .bootSel _ => true
      | _ => false
    if writing || s.boot.named != c.fwSlot then .next s
    else
      let s := (s.modCfg fun x => { x with fwActive := i, fwSlot := c.fwSlot, fwPending := none }).modCfg fun x =>
        x.commitFw (c.pkt.fld 24 1) i
      let s := s.enterFirmware.record 0x010B 0 (leBytes 1 0 ++ leBytes 6 i.version)
      .next (s.endActivation.complete c .ok 0 0 0)

/-- ACTIVATION_TIMEOUT: the previous firmware and the boot selector are restored. -/
def execActivationTimeout (s : State) : Host.Outcome State Fault Refusal :=
  match s.activation with
  | none => .next s
  | some (c, i) =>
    let old := 1 - min c.fwSlot 1
    let s := s.modBoot fun x => { x with ops := x.ops ++ [SpiOp.bootSel ⟨0, old⟩] }
    let s := (s.modModes fun m => { m with actFailed := true }).record 0x010B 0 (leBytes 1 1 ++ leBytes 6 i.version)
    let s := s.enterFirmware
    .next (s.endActivation.fail c .invalidField)

/-! ## The boot flash -/

/-- Ends the command that waits for a write of the boot flash. -/
def State.spiReply (s : State) (tag : Option Nat) (st : Status) : State :=
  match tag.bind s.cmd? with
  | some c => s.complete c st 0 0 0
  | none => s

/-- What the write of a key record lets go on: the reply of a key load or erase, the erases of SANITIZE (10 R377), or
its reply. -/
def State.keyRecordDone (s : State) (tag : Option Nat) : State :=
  match tag.bind s.cmd? with
  | none => s
  | some c =>
    if c.pkt.opcode = 0xFC ∧ c.ref = 1 then ((s.modCmd c.tag fun c => { c with ref := 2 }).sanitizeErase).sanitizeCheck
    else s.complete c .ok 0 0 0

/-- Carries out a write of the boot flash. A new configuration goes to copy B and then to copy A (R456). -/
def State.spiDone (s : State) (o : SpiOp) : State :=
  match o with
  | .cfgB b tag => s.modBoot fun x => { x with cfgB := some b, ops := SpiOp.cfgA b tag :: x.ops }
  | .cfgA b tag => (s.modBoot fun x => { x with cfgA := some b }).spiReply (some tag) .ok
  | .keyRecord r tag => (s.modBoot fun x => x.putKeyRec r).keyRecordDone tag
  | .bootSel x => s.modBoot fun b => b.putSel x
  | .perm r => { s with evr := { s.evr with perm := r :: s.evr.perm } }
  | .parkRecord r => s.modBoot fun b => { b with parks := b.parks ++ [r] }

/-- The copy that a write was overwriting when it stopped is not valid: a torn write (R443). -/
def Boot.torn (b : Boot) : SpiOp → Boot
  | .cfgB _ _ => { b with cfgB := none }
  | .cfgA _ _ => { b with cfgA := none }
  | .keyRecord _ _ => match b.keyRec with
    | some r => if b.keyA = some r then { b with keyB := none } else { b with keyA := none }
    | none => b
  | .bootSel _ => match b.sel with
    | some x => if b.selA = some x then { b with selB := none } else { b with selA := none }
    | none => b
  | .perm _ => b
  | .parkRecord _ => b

/-- SPI_OPERATION_DONE: the operation at hand has ended. -/
def execSpiOperationDone (s : State) : Host.Outcome State Fault Refusal :=
  match s.boot.ops with
  | [] => .next s
  | o :: rest =>
    let w := s.boot.written o
    .next (((s.modBoot fun b => { b with ops := rest }).emit (.spiWrite w.1 w.2)).spiDone o)

/-- SPI_TIMEOUT (14 R472): the write is abandoned and recorded. A command that waits for it fails with WRITE_FAILED. -/
def execSpiTimeout (off : Nat) (s : State) : Host.Outcome State Fault Refusal :=
  match s.boot.ops with
  | [] => .next s
  | o :: rest =>
    let s := (s.modBoot fun b => { b.torn o with ops := rest }).record 0x0112 0 (leBytes 4 off)
    match o with
    | .cfgB _ tag => .next (s.spiReply (some tag) .writeFailed)
    | .cfgA _ tag => .next (s.spiReply (some tag) .writeFailed)
    | .keyRecord _ tag => .next (s.spiReply tag .writeFailed)
    | _ => .next s

end Sys2Proof.Machine
end

