-- ==== Sys2Proof/Machine/DigestCmds.lean ====
section
/-! DEFINITION. The Digest engines' commands and events (08) and the Ariust-2 digest instructions (06 R227). -/
namespace Sys2Proof.Machine

/-- The check of the key that HMAC needs, after every check of 03 R89 (R281, R294). -/
def State.hmacOk (s : State) (c : Cmd) : Bool :=
  let a := c.pkt.direct
  !a.hm || (s.tenantKey c.fn a.key 1).isSome

/-- Is an earlier segment of the same digest stream not consumed yet? They are consumed in the order of acceptance (03
R91). -/
def State.segmentBefore (s : State) (c : Cmd) : Bool :=
  s.cmds.any fun k => k.fn == c.fn && k.pkt.opcode == 0x90 && decide (k.tag < c.tag) &&
    (k.pkt.stream == c.pkt.stream || (k.launched && k.ref == c.pkt.stream))

/-- DIGEST_DIRECT (03 R91; R274, R281). A message without bytes takes a context too. -/
def execDigestDirect (tag : Nat) (s : State) : Host.Outcome State Fault Refusal :=
  match s.ready tag 0x90 with
  | none => .next s
  | some c =>
    let a := c.pkt.direct
    let n := c.data.length
    if a.first then
      if !s.ctxAllowed c.fn then .next (s.failCheck c .ctxExhausted 9 0xFFFF)
      else if !s.hmacOk c then .next (s.fail c .notPermitted)
      else
        let e := s.chooseEngine
        let kind := if a.last then CtxKind.transient tag else .digest ⟨a.alg, a.hm, a.key, e, []⟩
        match s.openCtx c.fn c.port kind with
        | none => .next s
        | some (h, s) =>
          let s := if a.hm then s.bump .dgCnt 4 else s
          let s := s.launch tag fun c => { c with ref := if a.last then 0 else h }
          .next (s.addMsg (if a.last then .direct tag else .stream h) e n (n == 0)).2.finishEmpty
    else if s.segmentBefore c then .next s
    else if !s.hmacOk c then .next (s.fail c .notPermitted)
    else
      let s := s.launch tag fun c => { c with ref := c.pkt.stream }
      match s.streamMsg c.pkt.stream with
      | none => .next s
      | some m =>
        let s := s.modMsg m.id fun m => { m with engine := if m.resident then m.engine else s.nextOnline m.engine }
        if n = 0 then .next ((s.modMsg m.id fun m => { m with asks := true }).askMsg m).finishEmpty
        else .next (s.feedMsg m.id n)

/-- DIGEST_RAW (R283), on the engine it names or, where that has gone, the next one online (R274): the bytes of the state area beyond the state must be zero. -/
def execDigestRaw (tag : Nat) (s : State) : Host.Outcome State Fault Refusal :=
  match s.ready tag 0xFD with
  | none => .next s
  | some c =>
    let alg := bitsOf c.pkt.aux 2 0
    if !s.ctxAllowed 0 then .next (s.failCheck c .ctxExhausted 9 0xFFFF)
    else if !zeroAt c.data (stateLen alg) (256 - stateLen alg) then .next (s.fail c .invalidField)
    else match s.openCtx 0 c.port (.transient tag) with
      | none => .next s
      | some (_, s) =>
        let s := (s.bump .dgCnt 5).launch tag
        let n := c.data.length - 256
        .next (s.addMsg (.raw tag) (s.nextOnline (c.pkt.fld 24 1)) n (n == 0)).2.finishEmpty

/-- A context is free or idle and goes to the first waiter; an idle context that has bytes and meets no waiter goes
on, in the quantum it had (R275, R276). -/
def execDigestContextGrant (eng : Fin 4) (s : State) : Host.Outcome State Fault Refusal :=
  if !(s.waiters eng).isEmpty then .next (s.serveWaiter eng).finishEmpty
  else .next (s.modDigests fun d => { d with msgs := d.msgs.map fun m =>
    if m.engine = eng.val ∧ m.resident ∧ m.fed < m.total then { m with busy := true } else m })

/-- A context has consumed its quantum while another requester waits: it becomes idle (R275). -/
def execDigestQuantumExpiry (eng : Fin 4) (msg : Nat) (s : State) : Host.Outcome State Fault Refusal :=
  match s.msg? msg with
  | none => .next s
  | some m =>
    if m.engine = eng.val ∧ m.resident ∧ m.busy ∧ m.sinceGrant ≥ s.quantum ∧ (s.waiters eng) ≠ [] then
      .next ((s.modMsg msg fun m => { m with busy := false, idleSince := s.digests.clock }).dgTick)
    else .next s

/-- The wait limit of DIGEST_DIRECT, DIGEST_RAW or a core's DGO passes (R277): the DGO ends when it is run again. Object
streams have none, and the spec gives none for the waits of DGF and DGE, which go on (DESIGN CHOICE, log entry 140). -/
def execDigestWaitTimeout (msg : Nat) (s : State) : Host.Outcome State Fault Refusal :=
  match s.msg? msg with
  | none => .next s
  | some m =>
    if !m.waits then .next s
    else match m.owner with
      | .crumb k h =>
        if (s.core k).digests.any fun d => d.handle == h then .next s
        else .next ((s.bump .dgCnt 2).modMsg msg fun m => { m with expired := true })
      | _ => if (s.msgCmd m).isSome then .next (s.digestBusy m) else .next s

/-- A context has consumed 256 KiB since its last checkpoint: a copy of its midstate record goes to the owning stream
context (R279). -/
def execDigestCheckpoint (msg : Nat) (s : State) : Host.Outcome State Fault Refusal :=
  match s.msg? msg with
  | none => .next s
  | some m =>
    if m.resident ∧ m.sinceCheck ≥ 262144 then
      let s := s.modMsg msg fun m => { m with sinceCheck := 0, check := m.fed, checkRec := some (s.midstateOf m) }
      match m.owner with
      | .stream h => .next (s.modStream h fun w => { w with checkpoint := m.fed })
      | _ => .next s
    else .next s

/-- A block leaves the pipeline (R275): the message has consumed it. When no byte is left to feed, its context is
idle, and a direct or raw message goes on to its end. While its payload is read again, it feeds nothing (R285). -/
def execDigestBlockDone (eng : Fin 4) (msg : Nat) (s : State) : Host.Outcome State Fault Refusal :=
  match s.msg? msg with
  | none => .next s
  | some m =>
    if m.engine = eng.val ∧ m.resident ∧ m.busy ∧ m.fed < m.total ∧ (s.msgCmd m).all (fun c => c.want = .nothing) then
      let n := min (s.msgBlock m) (m.total - m.fed)
      let done := m.fed + n = m.total
      let m' := { m with
        fed := m.fed + n, sinceGrant := m.sinceGrant + n, sinceCheck := m.sinceCheck + n, busy := !done
        idleSince := s.digests.clock }
      let s := (s.modMsg msg fun _ => m').dgTick
      if done then .next (s.msgDone m') else .next s
    else .next s

/-- An alarm of an engine: 0 bus, 1 memory, 2 pipeline, 3 housekeeping (R284, R285). -/
def execDigestAlarm (eng cause : Fin 4) (s : State) : Host.Outcome State Fault Refusal :=
  if (s.engine eng).st = 1 then .next (s.alarm eng (1#4 <<< cause.val)) else .next s

/-- An engine under self-test comes online, or is retired (R285 step 4). -/
def execDigestSelfTestEnd (eng : Fin 4) (pass : Bool) (s : State) : Host.Outcome State Fault Refusal :=
  if (s.engine eng).st ≠ 2 then .next s
  else if pass then .next ((s.modEngine eng fun x => { x with st := 1 }).settle.serveWaiter eng).finishEmpty
  else .next (((s.modEngine eng fun x => { x with st := 3 }).record 0x0207 eng []).settle)

/-- DG_CTRL.RETIRE: the engine's messages move with their midstates, and the engine is retired (R285). -/
def State.retireEngine (s : State) (e : Nat) : State :=
  if (s.engine e).st = 1 then
    let s := s.modEngine e fun x => { x with st := 3 }
    ((s.moveMsgs e DigestMsg.fed fun m => some (s.midstateOf m)).record 0x0207 e []).settle
  else s

/-- DG_CTRL.RESTORE: a retired engine runs its self-test. -/
def State.restoreEngine (s : State) (e : Nat) : State :=
  if (s.engine e).st = 3 then (s.modEngine e fun x => { x with st := 2 }).settle else s

/-- A write of DG_CTRL.RETIRE. -/
def execDigestRetire (port : Port) (eng : Fin 4) (s : State) : Host.Outcome State Fault Refusal :=
  .next (if s.mmio port then (s.mgmtAccess port).retireEngine eng else s)

/-- A write of DG_CTRL.RESTORE. -/
def execDigestRestore (port : Port) (eng : Fin 4) (s : State) : Host.Outcome State Fault Refusal :=
  .next (if s.mmio port then (s.mgmtAccess port).restoreEngine eng else s)

/-! ## DGO, DGF, DGE (06 R227) -/

/-- The engine of the Batch that runs a Crumb. Firmware names the engine of a control core's digest, freely chosen here
(DESIGN CHOICE, log entry 141). -/
def State.coreEngine (s : State) : CoreSel → Nat
  | .crumb c => s.nextOnline (c.val / 256)
  | .ctrl _ => s.nextOnline (s.choice 4)

/-- The message of a core's digest, open or waited for. -/
def State.coreMsg (s : State) (k : CoreSel) (h : Nat) : Option DigestMsg :=
  s.digests.msgs.find? fun m => m.owner == .crumb k h

/-- The core's open digest of a handle value. -/
def Core.digest? (k : Core) (w : Word) : Option CoreDigest := k.digests.find? fun d => d.handle == w.toNat

/-- The handle the next DGO of a core takes. -/
def Core.nextDigest (c : Core) : Nat := if c.digests.any fun x => x.handle == 1 then 2 else 1

/-- Enters what an instruction of a core needs before it can retire: the message that a DGO opens, or that of an open
digest that has been spilled. The core is given its context now, or waits for it (R276): none where it needs none. -/
def State.askCore (s : State) (k : CoreSel) (h : Nat) (new : Bool) : State :=
  match s.coreMsg k h with
  | some m => if m.resident then s else s.askMsg m
  | none => if new then (s.addMsg (.crumb k h) (s.coreEngine k) 0 true).2.tick else s

/-- Does a core still wait for the context of a digest? -/
def State.coreWaits (s : State) (k : CoreSel) (h : Nat) : Bool := (s.coreMsg k h).any DigestMsg.waits

/-- DGO: opens a digest. Where no context is free or idle it waits, and runs again; with its wait limit passed it gives 0. -/
def execDgo (k : CoreSel) (d : Fin 16) (alg : Fin 8) (s : State) : Host.Outcome State Fault Refusal :=
  let c := s.core k
  let h := c.nextDigest
  let asks := s.atInsn k 4 && decide (1 ≤ alg.val) && decide (alg.val ≤ 4) && decide (c.digests.length < 2)
  let s := if asks then s.askCore k h true else s
  if asks && s.coreWaits k h then .next s
  else s.retire k 4 fun s => do
    need (decide (1 ≤ alg.val) && decide (alg.val ≤ 4))
    if c.digests.length ≥ 2 then .error exnDigest
    else match s.coreMsg k h with
      | some m =>
        if m.expired then .ok ((s.dropMsg m.id).modCore k fun c => { (c.setR d 0) with z := true })
        else .ok ((s.modMsg m.id fun m => { m with asks := false }).modCore k fun c => { (c.setR d (BitVec.ofNat 32 h)) with
          z := false, digests := c.digests ++ [(⟨h, alg.val, []⟩ : CoreDigest)] })
      | none => .ok (s.modCore k fun c => { (c.setR d 0) with z := true })

/-- Runs DGF or DGE: where the message of its open handle has been spilled, it first obtains a context again (R276). -/
def State.digestOp (s : State) (k : CoreSel) (d : Fin 16) (f : State → Except Exn State) : Host.Outcome State Fault Refusal :=
  match ((s.core k).digest? ((s.core k).r d)).filter fun _ => s.atInsn k 4 with
  | none => s.retire k 4 f
  | some x =>
    let t := s.askCore k x.handle false
    if t.coreWaits k x.handle then .next t else t.retire k 4 f

/-- DGF: feeds bytes from a window; the access is checked before the handle and the count (R239). Its context is busy until
they have left the pipeline (R275). -/
def execDgf (k : CoreSel) (d a b : Fin 16) (bk : Fin 4) (s : State) : Host.Outcome State Fault Refusal :=
  s.digestOp k d fun s => do
    let c := s.core k
    let n := (c.r b).toNat
    let r ← if n = 0 then .ok ([], s) else s.load k (c.rb bk).toNat ((c.r a).toNat % 65536) n
    match c.digest? (c.r d) with
    | none => .error exnDigest
    | some x =>
      if n > 4096 then .error exnDigest
      else
        let t := r.2.modCore k fun c => { c with
          digests := adjWhere c.digests (fun y => y.handle == x.handle) fun y => { y with bytes := y.bytes ++ r.1 } }
        .ok (match t.coreMsg k x.handle with
          | some m => (t.modMsg m.id fun m => { m with asks := false }).feedMsg m.id n
          | none => t)

/-- DGE: ends a digest, writes it and releases the handle. A value that names no handle has no digest to write: its access
is judged for the shortest one (DESIGN CHOICE, log entry 142). -/
def execDge (k : CoreSel) (d a : Fin 16) (bk : Fin 4) (s : State) : Host.Outcome State Fault Refusal :=
  s.digestOp k d fun s => do
    let c := s.core k
    let put (b : List Byte) : Except Exn State := s.storeAt k (c.rb bk).toNat ((c.r a).toNat % 65536) b
    match c.digest? (c.r d) with
    | none => do
      let _ ← put (zeros 32)
      .error exnDigest
    | some x => do
      let t ← put (algDigest x.alg x.bytes)
      let t := t.modDigests fun g => { g with msgs := g.msgs.filter fun m => m.owner != .crumb k x.handle }
      .ok (t.modCore k fun c => { c with digests := c.digests.filter fun y => y.handle != x.handle })

end Sys2Proof.Machine
end

