-- ==== Sys2Proof/Machine/IsaScan.lean ====
section
/-! DEFINITION. The linear decode of a program's code that PROGRAM_LOAD makes (05 R163; 06 R208 to R218, R223): length,
assigned or not, privileged or not. -/
namespace Sys2Proof.Machine

/-- What the decode of one instruction shows: its length in bytes, whether it is assigned and not privileged, the count
register of a REP or REPI prefix, and, for an instruction that may be repeated, the registers it names (06 R223). -/
structure InsnInfo where
  len : Nat
  ok : Bool
  rep : Option Nat
  body : Option (List Nat)
deriving DecidableEq, Repr

/-- Is an S16 instruction assigned and not privileged (06 R212)? -/
def s16Ok (op a b : Nat) : Bool :=
  if op = 0 then false
  else if op ≤ 0x0D ∨ op = 0x19 ∨ op = 0x1A then true
  else if op = 0x0F then b == 0 && a != 14
  else if op = 0x0E ∨ op = 0x10 ∨ op = 0x12 ∨ op = 0x13 then b == 0
  else if op = 0x14 then decide (a < 4)
  else if op = 0x15 then decide (b < 4)
  else if op = 0x1B then a % 2 == 0 && b == 0
  else if op = 0x11 ∨ op = 0x16 ∨ op = 0x17 ∨ op = 0x18 then a == 0 && b == 0
  else false

/-- Size and sign of an access: SIZE 3 is invalid, as is S with SIZE 2 (06 R215). -/
def accessOk (size : Nat) (sgn : Bool) : Bool := size != 3 && !(sgn && size == 2)

/-- Is LDF or STF assigned (06 R213, R215)? -/
def flatOk (v d a : Nat) (load : Bool) : Bool :=
  let mode := bitsOf v 23 22
  accessOk (bitsOf v 25 24) (bitOf v 26) && (load || !bitOf v 26) && bitsOf v 31 27 == 0 && mode != 3 &&
  (mode == 0 || (bitsOf v 21 16 == 0 && (!load || d != a)))

/-- Is VLD or VST assigned? -/
def lanesOk (v d : Nat) : Bool :=
  decide (d < 8) && !bitOf v 19 && (!bitOf v 18 || (bitsOf v 17 16 == 0 && bitsOf v 31 20 == 0))

/-- Is a VALU instruction assigned (06 R216)? -/
def valuOk (v d a b : Nat) : Bool :=
  let fn := bitsOf v 27 22
  decide (d < 8) && decide (a < 8) && decide (b < 8) && decide (fn ≤ 0x0F) && bitsOf v 31 28 == 0 &&
  (!([2, 3, 4, 5, 0x0E, 0x0F].contains fn) || bitsOf v 21 20 == 0) && (fn != 0x0F || b == 0)

/-- Is a VMOVE instruction assigned (06 R217)? -/
def vmoveOk (v d a : Nat) : Bool :=
  let fn := bitsOf v 21 18
  bitsOf v 31 22 == 0 && decide (fn ≤ 3) && (if fn = 0 ∨ fn = 2 then decide (d < 8) else decide (a < 8)) &&
  (fn != 3 || bitsOf v 17 16 == 0)

/-- Is a 32-bit instruction assigned and not privileged (06 R213)? -/
def i32Ok (v op d a b : Nat) : Bool :=
  if op = 0x01 then decide (bitsOf v 25 20 ≤ 0x17) && bitsOf v 31 26 == 0 && (bitsOf v 25 20 != 0x17 || b == 0)
  else if op ∈ [0x02, 0x03, 0x04, 0x05, 0x0B, 0x10] then true
  else if op = 0x06 then d == 0
  else if op = 0x07 then bitsOf v 31 23 == 0
  else if op = 0x09 then bitsOf v 31 27 == 0 && decide (bitsOf v 20 16 + bitsOf v 25 21 + 1 ≤ 32)
  else if op = 0x0A then bitsOf v 31 26 == 0 && decide (bitsOf v 20 16 + bitsOf v 25 21 + 1 ≤ 32)
  else if op = 0x0C then bitsOf v 31 16 == 0
  else if op = 0x0D then bitsOf v 31 24 == 0
  else if op = 0x0E ∨ op = 0x26 then bitsOf v 31 18 == 0
  else if op = 0x0F then bitsOf v 15 10 == 0
  else if op = 0x11 then d == 0 && bitsOf v 31 30 == 0
  else if op = 0x18 then accessOk (bitsOf v 19 18) (bitOf v 20)
  else if op = 0x19 then bitsOf v 19 18 != 3 && !bitOf v 20
  else if op = 0x1A then flatOk v d a true
  else if op = 0x1B then flatOk v d a false
  else if op = 0x1C ∨ op = 0x1D then lanesOk v d
  else if op = 0x1E then bitsOf v 19 18 == 0 && bitsOf v 31 28 == 0 && decide (bitsOf v 27 24 ≤ 5)
  else if op = 0x1F then bitsOf v 31 18 == 0 && d != a
  else if op = 0x20 then valuOk v d a b
  else if op = 0x21 then vmoveOk v d a
  else if op = 0x24 then decide (1 ≤ bitsOf v 14 12) && decide (bitsOf v 14 12 ≤ 4) && bitsOf v 31 15 == 0
  else if op = 0x25 then bitsOf v 19 18 == 0 && bitsOf v 31 24 == 0
  else if op = 0x27 then d == 0 && decide (bitsOf v 23 18 < 38) && bitsOf v 31 24 == 0
  else false

/-- Is a 48-bit instruction assigned (06 R218)? -/
def l48Ok (v op d a : Nat) : Bool :=
  if op = 0x01 then a == 0
  else if op = 0x02 ∨ op = 0x03 then true
  else if op = 0x04 then d == 0
  else if op = 0x10 then d == 0 && a == 0 && bitsOf v 31 30 == 0
  else if op = 0x18 ∨ op = 0x19 then
    accessOk (bitsOf v 19 18) (bitOf v 20) && (op == 0x18 || !bitOf v 20) && bitsOf v 31 22 == 0 && (!bitOf v 21 || a == 0)
  else false

/-- The registers that an instruction names, where it may follow a prefix (06 R223). -/
def repBody (v len op d a : Nat) : Option (List Nat) :=
  if len = 2 then
    if 1 ≤ op ∧ op ≤ 0x0D then some (if 9 ≤ op ∧ op ≤ 0x0B then [d] else [d, a]) else none
  else if len = 4 then
    if (op = 0x1A ∨ op = 0x1B) ∧ bitsOf v 23 22 ≠ 0 then some [d, a]
    else if (op = 0x1C ∨ op = 0x1D) ∧ bitOf v 18 then some [a]
    else if op = 0x1F then some [d, a]
    else none
  else none

/-- Decodes the instruction at the start of some bytes, read as one little-endian value (06 R208, R209). -/
def insnInfo (v : Nat) : InsnInfo :=
  let op := bitsOf v 7 2
  let d := bitsOf v 11 8
  let a := bitsOf v 15 12
  let b := bitsOf v 19 16
  let l := v % 4
  if l = 0 then
    ⟨2, s16Ok op d a, if op = 0x12 ∨ op = 0x13 then some d else none, repBody v 2 op d a⟩
  else if l = 1 then ⟨4, i32Ok v op d a b, none, repBody v 4 op d a⟩
  else if l = 2 then ⟨6, l48Ok v op d a, none, none⟩
  else ⟨2, false, none, none⟩

/-- Decodes code to its end: every instruction is assigned and not privileged, a prefix is followed by an instruction
it may repeat, and the last instruction ends at the end of the code. -/
def scanCode : Nat → List Byte → Option Nat → Bool
  | _, [], open' => open'.isNone
  | 0, _ :: _, _ => false
  | n + 1, b, open' =>
    let i := insnInfo (leNat (b.take 6))
    let follows := match open' with
      | none => true
      | some c => i.body.any fun rs => !rs.contains c
    i.ok && decide (i.len ≤ b.length) && follows && scanCode n (b.drop i.len) i.rep

end Sys2Proof.Machine
end

