-- ==== Sys2Proof/Machine/JobCmds.lean ====
section
/-! DEFINITION. The compute commands (05 R162 to R177, R198): programs, job descriptors and their checks, job status and
cancellation. -/
namespace Sys2Proof.Machine

/-! ## Programs (R162 to R165) -/

/-- A check of R163 on an image: the range checks in their order, the CRC, then the decode of the code. -/
def imageOk (b : List Byte) : Bool :=
  let code := fieldLe b 8 4
  let data := fieldLe b 12 4
  let bss := fieldLe b 16 4
  let stack := fieldLe b 20 4
  let entry := fieldLe b 24 4
  let reduce := fieldLe b 28 4
  decide (b.length ≥ 64) && b.length == 64 + code + data &&
  fieldLe b 0 4 == 0x47504B56 && fieldLe b 4 2 == 1 && fieldLe b 6 1 ≤ 3 && zeroAt b 7 1 && zeroAt b 32 28 &&
  decide (2 ≤ code) && decide (code ≤ 65536) && code % 2 == 0 && decide (code + data ≤ 65536) &&
  decide (bss ≤ 262144) && decide (1024 ≤ stack) && decide (stack ≤ 262144) && stack % 16 == 0 &&
  entry % 2 == 0 && decide (entry < code) &&
  (reduce == 0xFFFFFFFF || (reduce % 2 == 0 && decide (reduce < code))) &&
  decide (code + data + bss + stack ≤ 262144) &&
  fieldLe b 60 4 == (crc32c (b.take 60 ++ b.drop 64)).toNat &&
  scanCode code ((b.drop 64).take code) none

/-- The program of a valid image, under a handle. -/
def programOf (b : List Byte) (handle : Nat) : Program where
  handle := handle
  codeLen := fieldLe b 8 4
  bssLen := fieldLe b 16 4
  stackLen := fieldLe b 20 4
  entrySlice := fieldLe b 24 4
  entryReduce := if fieldLe b 28 4 = 0xFFFFFFFF then none else some (fieldLe b 28 4)
  code := (b.drop 64).take (fieldLe b 8 4)
  data := (b.drop (64 + fieldLe b 8 4)).take (fieldLe b 12 4)

/-- Is a previous program of a slot still retained: a job of the tenant runs one that is no longer the slot's current
program (R164)? -/
def State.slotRetained (s : State) (tenant slot : Nat) : Bool :=
  s.jobs.any fun j => j.tenant == tenant && decide (j.desc.program < 2 ^ 31) && j.desc.program % 4 == slot &&
    !(((s.tenant tenant).programs.look slot).any fun p => p.handle == j.desc.program)

/-- PROGRAM_LOAD (R163, R164). It waits while the slot's previous program is retained. -/
def execProgramLoad (tag : Nat) (s : State) : Host.Outcome State Fault Refusal :=
  match s.ready tag 0x70 with
  | none => .next s
  | some c =>
    let b := c.data
    let slot := fieldLe b 6 1
    if !imageOk b then .next (s.fail c .programInvalid)
    else if s.slotRetained c.fn slot then .next s
    else
      let n := (s.tenant c.fn).loads + 1
      let handle := (n * 4 + slot) % 2 ^ 31
      .next ((s.modTenant c.fn fun t => { t with loads := n, programs := t.programs.put slot (programOf b handle) }).complete
        c .ok handle 0 0)

/-- PROGRAM_UNLOAD (R165). -/
def execProgramUnload (tag : Nat) (s : State) : Host.Outcome State Fault Refusal :=
  match s.ready tag 0x71 with
  | none => .next s
  | some c =>
    match (s.tenant c.fn).programs.find? fun p => p.2.handle == c.pkt.fld 24 4 with
    | none => .next (s.fail c .invalidField)
    | some p => .next ((s.modTenant c.fn fun t => { t with programs := t.programs.del p.1 }).complete c .ok 0 0 0)

/-! ## The descriptor (R170, R171) -/

/-- An input entry. -/
def inputOf (kind : Nat) (b : List Byte) : JobInput :=
  if kind = 0 then ⟨fieldLe b 0 1, fieldLe b 8 16, fieldLe b 24 8, 0, 0, 0, 0, none⟩
  else ⟨fieldLe b 0 1, 0, 0, fieldLe b 8 8, fieldLe b 16 8 + 1, 0, 0, none⟩

/-- Is an input entry within range? -/
def inputOk (kind : Nat) (b : List Byte) : Bool :=
  decide (fieldLe b 0 1 ≤ 15) && zeroAt b 1 7 &&
  (kind == 0 || (decide (fieldLe b 16 8 ≤ 7812499999) && zeroAt b 24 8))

/-- Where the parameter block, the window descriptors and the inputs begin. -/
def descWindows (b : List Byte) : Nat := 128 + roundUp (fieldLe b 28 2) 8
/-- Offset of the inputs. -/
def descInputs (b : List Byte) : Nat := descWindows b + 8 * fieldLe b 14 2

/-- Check 1 of R173: the descriptor's length. -/
def descLenOk (b : List Byte) : Bool := decide (b.length ≥ 128) && b.length == descInputs b + 32 * fieldLe b 12 2

/-- The descriptor, read. -/
def jobDesc (b : List Byte) : JobDesc where
  jobId := fieldLe b 0 4
  program := fieldLe b 4 4
  flags := fieldLe b 8 2
  inputKind := fieldLe b 10 1
  reduceOp := fieldLe b 11 1
  sliceKib := if fieldLe b 16 2 = 0 then 1024 else fieldLe b 16 2
  maxCrumbs := fieldLe b 18 2
  budget := fieldLe b 20 4
  wallMs := fieldLe b 24 4
  paramLen := fieldLe b 28 2
  scratchPages := fieldLe b 30 2
  outAddr := fieldLe b 32 8
  outLen := fieldLe b 40 4
  outSpace := fieldLe b 44 1
  outOid := fieldLe b 48 16
  outExpected := fieldLe b 64 8
  summaryAddr := fieldLe b 72 8
  reduceAddr := fieldLe b 80 8
  tableSpace := fieldLe b 88 1
  tableOid := fieldLe b 96 16
  tableSel := fieldLe b 112 8
  params := sliceB b 128 (fieldLe b 28 2)
  windows := (List.range (fieldLe b 14 2)).map fun i => BitVec.ofNat 64 (fieldLe b (descWindows b + 8 * i) 8)
  inputs := (List.range (fieldLe b 12 2)).map fun i => inputOf (fieldLe b 10 1) (sliceB b (descInputs b + 32 * i) 32)

/-- The program of a library handle: the Crumb holds no code of it (R169). -/
def libProgram (h : Nat) : Program := ⟨h, 0, 0, 1024, 0, none, [], []⟩

/-- The program that a handle names for a tenant (R170). -/
def State.programFor (s : State) (tenant h : Nat) : Option Program :=
  if 0x80000001 ≤ h ∧ h ≤ 0x80000004 then some (libProgram h)
  else ((s.tenant tenant).programs.find? fun p => p.2.handle == h).map Prod.snd

/-- Is a window descriptor valid, apart from the table's length (R161)? One of KIND 0, an invalid window, is taken: the program
may not use it (DESIGN CHOICE, log entry 147). -/
def windowOk (d : JobDesc) (v : Reg) : Bool :=
  let n := v.toNat
  bitsOf n 15 3 == 0 && bitsOf n 63 48 == 0 &&
  ((bitsOf n 1 0 == 0 && !bitOf n 2) || (bitsOf n 1 0 == 1 && decide (bitsOf n 47 16 < d.scratchPages)) ||
    (bitsOf n 1 0 == 2 && !bitOf n 2 && bitOf d.flags 4))

/-- The flags and the fields that depend on them (R170). -/
def flagsOk (d : JobDesc) (b : List Byte) : Bool :=
  let host := bitOf d.flags 0
  let object := bitOf d.flags 1
  let reduce := bitOf d.flags 2
  let table := bitOf d.flags 4
  decide (d.flags < 32) && !(host && object) && (if reduce then 1 ≤ d.reduceOp && d.reduceOp ≤ 6 else d.reduceOp == 0) &&
  (if host then d.outAddr % 16 == 0 && decide (16 ≤ d.outLen) && d.outLen % 16 == 0 else d.outAddr == 0 && d.outLen == 0) &&
  (if object then decide (d.outSpace ≤ 15) else d.outSpace == 0 && d.outOid == 0 && d.outExpected == 0) &&
  (if reduce then d.reduceAddr % 64 == 0 else d.reduceAddr == 0) &&
  (if table then decide (d.tableSpace ≤ 15) else d.tableSpace == 0 && d.tableOid == 0 && d.tableSel == 0) &&
  zeroAt b 45 3 && zeroAt b 89 7 && zeroAt b 120 8 && d.summaryAddr % 64 == 0

/-- The other header fields (R170). -/
def headerOk (d : JobDesc) (b : List Byte) : Bool :=
  decide (d.jobId ≥ 1) && decide (d.inputKind ≤ 1) && decide (1 ≤ d.inputs.length) && decide (d.inputs.length ≤ 4096) &&
  decide (d.windows.length ≤ 256) && [0, 256, 512, 1024].contains (fieldLe b 16 2) && decide (d.maxCrumbs ≤ 1024) &&
  decide (d.budget ≥ 1) && decide (1 ≤ d.wallMs) && decide (d.wallMs ≤ 3600000) && decide (d.paramLen ≤ 4096) &&
  decide (d.scratchPages ≤ 256) && decide (d.paramLen ≤ d.scratchPages * 65536)

/-- Check 2 of R173, but for what needs the table object. -/
def State.descOk (s : State) (tenant : Nat) (d : JobDesc) (b : List Byte) : Bool :=
  headerOk d b && flagsOk d b && d.windows.all (windowOk d) &&
  ((List.range d.inputs.length).all fun i => inputOk d.inputKind (sliceB b (descInputs b + 32 * i) 32)) &&
  !(s.jobs.any fun j => j.tenant == tenant && j.desc.jobId == d.jobId) &&
  (s.programFor tenant d.program).any fun p => d.reduceOp != 6 || p.entryReduce.isSome

/-! ## The library's parameters (R169) -/

/-- Is a record length one of the library's? -/
def reclenOk (n : Nat) : Bool := [8, 16, 32, 64, 128, 256, 512, 1024, 2048, 4096].contains n

/-- Check 9 of R173: the parameters of a library program, its padding and unnamed bytes left alone. -/
def libParamsOk (d : JobDesc) : Bool :=
  let p := d.params
  let filter := reclenOk (fieldLe p 0 2) && decide (1 ≤ fieldLe p 4 1) && decide (fieldLe p 4 1 ≤ 8) &&
    decide (fieldLe p 5 1 ≤ 5) && decide (fieldLe p 2 2 + fieldLe p 4 1 ≤ fieldLe p 0 2) && decide (d.paramLen ≥ 16)
  if d.program = 0x80000001 then filter
  else if d.program = 0x80000002 then
    let n := fieldLe p 2 2
    reclenOk (fieldLe p 0 2) && decide (1 ≤ n) && decide (n ≤ 4) && decide (d.paramLen ≥ 4 + 4 * n) &&
      (List.range n).all fun k => decide (fieldLe p (4 + 4 * k) 2 + fieldLe p (6 + 4 * k) 2 ≤ fieldLe p 0 2)
  else if d.program = 0x80000003 then filter && bitOf d.flags 2 && d.reduceOp == 1
  else if d.program = 0x80000004 then
    decide (1 ≤ fieldLe p 0 2) && decide (fieldLe p 0 2 ≤ 64) && decide (1 ≤ fieldLe p 2 1) &&
      decide (fieldLe p 2 1 ≤ 38) && decide (d.paramLen ≥ 3)
  else true

/-! ## Resolving (R172, R173, R176) -/

/-- Does every container of a job exist (check 5)? -/
def State.containersOk (s : State) (tenant : Nat) (d : JobDesc) : Bool :=
  (d.inputs.all fun i => if d.inputKind = 0 then (s.space? tenant i.container).isSome else (s.ns? tenant i.container).isSome) &&
  (!bitOf d.flags 4 || (s.space? tenant d.tableSpace).isSome)

/-- An input with its version pinned, or the status of check 6. -/
def State.resolveInput (s : State) (tenant kind : Nat) (i : JobInput) : Except Status JobInput :=
  if kind ≠ 0 then .ok i
  else match s.resolve tenant i.container i.oid i.versionSel with
    | .error e => .error e
    | .ok v => .ok { i with version := v.version, length := v.length, pin := some v }

/-- All inputs, resolved in their order. -/
def State.resolveInputs (s : State) (tenant kind : Nat) (l : List JobInput) : Except Status (List JobInput) :=
  l.foldl (fun acc i => match acc with
    | .error e => .error e
    | .ok out => match s.resolveInput tenant kind i with
      | .error e => .error e
      | .ok i => .ok (out ++ [i])) (.ok [])

/-- The table object's version, where the job has one. -/
def State.tableFor (s : State) (tenant : Nat) (d : JobDesc) : Except Status (Option Version) :=
  if !bitOf d.flags 4 then .ok none
  else match s.resolve tenant d.tableSpace d.tableOid d.tableSel with
    | .error e => .error e
    | .ok v => .ok (some v)

/-- Does the table meet R170 (16 MiB) and R161 (every table page below its length)? -/
def tableOk (d : JobDesc) (v : Version) : Bool :=
  decide (v.length ≤ 2 ^ 24) &&
  d.windows.all fun w => bitsOf w.toNat 1 0 != 2 || decide (bitsOf w.toNat 47 16 * 65536 < v.length)

/-- The Batch whose channels hold a sector (00 R14). -/
def State.batchOfSector (s : State) (id : Nat) : Option Nat := (s.sector? id).map fun x => x.slot / 6

/-- The Batch of the first sector that holds bytes of a version from an offset on; none where none does. -/
def State.batchAt (s : State) (v : Version) (off : Nat) : Option Nat := (v.sectorsAt off (off + 4096)).head?.bind s.batchOfSector

/-- How far a run on one Batch goes, in 4 KiB blocks from an offset to a limit; a block on no flash ends no run
(R172). -/
def runEnd (batchAt : Nat → Option Nat) : Nat → Option Nat → Nat → Nat → Nat
  | 0, _, off, _ => off
  | n + 1, b, off, limit =>
    if off ≥ limit then limit
    else match b, batchAt off with
      | some x, some y => if x = y then runEnd batchAt n b (off + 4096) limit else off
      | none, y => runEnd batchAt n y (off + 4096) limit
      | some _, none => runEnd batchAt n b (off + 4096) limit

/-- The slices of an object input (R172): input, offset, length. -/
def State.cutObject (s : State) (v : Version) (idx bytes : Nat) : Nat → Nat → List (Nat × Nat × Nat)
  | 0, _ => []
  | n + 1, off =>
    if off ≥ v.length then []
    else
      let upto := runEnd (s.batchAt v) 257 none off (min (off + bytes) v.length)
      (idx, off, upto - off) :: s.cutObject v idx bytes n upto

/-- The slice list of a job's object inputs (R172, R174). -/
def State.cutInputs (s : State) (d : JobDesc) : List (Nat × Nat × Nat) :=
  (List.range d.inputs.length).flatMap fun k => match (d.inputs[k]?).bind JobInput.pin with
    | some v => s.cutObject v k (d.sliceKib * 1024) (v.length / 4096 + 1) 0
    | none => []

/-- Are the keys loaded that reading a job's objects needs (08 R294)? -/
def State.jobKeyed (s : State) (tenant : Nat) (d : JobDesc) (table : Option Version) (cls : Nat) : Bool :=
  (d.inputs.all fun i => i.pin.all fun v => s.versionKeyed v 0 v.length) && (table.all fun v => s.versionKeyed v 0 v.length) &&
  (!bitOf d.flags 1 || (s.tenantKey tenant (s.classKey cls) 0).isSome)

/-! ## Reading a range into a slice buffer -/

/-- Reads a range of a version into a slice buffer: sectors from flash, or stripes from the Group. -/
def State.loadRange (s : State) (buf : Nat) (v : Version) (lo hi : Nat) : State :=
  let setLeft (n : Nat) (data : List Byte) (s : State) : State :=
    { s with bufs := adjWhere s.bufs (fun b => b.id == buf) fun b => { b with left := n, data := data } }
  match v.group with
  | some g =>
    let w := g.k * 262144
    let ps := cutRange w lo hi
    let s := setLeft ps.length (zeros (hi - lo)) s
    let s := ps.foldl (fun s p =>
      s.beginGather (.slice buf (p.1 - lo)) (shardKey (s.keyOf v) (p.1 / w) 0) v.stub g (p.1 % w) (p.2 - p.1 / w * w)) s
    s.gatherSteps
  | none =>
    let secs := v.sectorsAt lo hi
    let s := setLeft secs.eraseDups.length (s.versionBytes v lo hi) s
    let s := { s with bufs := adjWhere s.bufs (fun b => b.id == buf) fun b => { b with coded := s.codedPiece 0 (v.blocksAt lo hi) } }
    s.tick.beginReads (.slice buf) secs

/-- The slice buffer number under which a job's table is read. -/
def tableBuf (slot : Nat) : Nat := 2 ^ 20 + slot

/-- Starts the read of a job's table (R174). -/
def State.loadTable (s : State) (slot tenant : Nat) (v : Version) : State :=
  let e : Entry := ⟨tableBuf slot, v.length, tenant, slot, 0, 0, 0xFFFFFFFF, 0, 0, 0, 0⟩
  let s := { s with bufs := s.bufs ++ [(⟨tableBuf slot, e, 0, [], 0, false, false, none⟩ : SliceBuf)] }
  s.loadRange (tableBuf slot) v 0 v.length

/-! ## JOB_SUBMIT -/

/-- The Batch with the fewest Running jobs, the lowest number on a tie (R175). -/
def State.homeBatch (s : State) : Nat :=
  (leastBy [0, 1, 2, 3] fun b => (s.jobs.filter fun j => j.batch == b && j.st == .running).length).getD 0

/-- Checks 1 to 5 of R173. -/
def State.submitCheck (s : State) (c : Cmd) (d : JobDesc) (b : List Byte) : Option (Status × Nat) :=
  if !descLenOk b then some (.invalidBuffer, 0)
  else if !s.descOk c.fn d b then some (.invalidField, 0)
  else if bitOf d.flags 1 ∧ s.modes.mode = .readOnly then some (.readOnly, 0)
  else if !s.ctxAllowed c.fn then some (.ctxExhausted, 9)
  else if !s.containersOk c.fn d then some (.containerUnknown, 0)
  else none

/-- Checks 7 to 9 of R173, and the keys (08 R294). -/
def State.submitCheck2 (s : State) (c : Cmd) (d : JobDesc) (table : Option Version) : Option (Status × Nat) :=
  let out := bitOf d.flags 1
  if !(table.all (tableOk d)) then some (.invalidField, 0)
  else if out && (s.space? c.fn d.outSpace).isNone then some (.containerUnknown, 0)
  else if out && (s.current c.fn d.outSpace d.outOid).any Version.log then some (.notLogObject, 0)
  else match (if out then s.createOk c.fn d.outSpace d.outOid else none) with
    | some st => some (st, 9)
    | none =>
      if out && s.indexFull c.fn d.outSpace d.outOid then some (.objectLimit, 9)
      else if !libParamsOk d then some (.invalidField, 0)
      else if !s.jobKeyed c.fn d table c.pclass then some (.notPermitted, 0)
      else none

/-- A new job in Loading (R174). -/
def State.newJob (s : State) (c : Cmd) (slot h : Nat) (d : JobDesc) (p : Program) (table : Option Version) : Job where
  slot := slot
  runSlot := 0
  tenant := c.fn
  port := c.port
  tag := c.tag
  handle := h
  desc := d
  prog := p
  st := .loading
  batch := s.homeBatch
  pclass := c.pclass
  slices := s.cutInputs d
  nextInput := if d.inputKind = 0 then d.inputs.length else 0
  nextOff := 0
  total := (s.cutInputs d).length
  issued := 0
  done := 0
  skipped := 0
  bytesIn := 0
  bytesOut := 0
  outVersion := 0
  failSlice := none
  faultPc := 0
  faultCode := 0
  scrubs := 0
  pool := 0
  table := match table with
    | some v => s.versionBytes v 0 v.length
    | none => []
  tableVersion := match table with
    | some v => v.version
    | none => 0
  records := []
  outExtents := []
  outGroups := []
  outPhase := 0
  partials := []
  ending := none
  cancelWait := []

/-- Enters a job behind those that run. -/
def State.enterJob (s : State) (j : Job) : State := { s with jobs := s.jobs ++ [j] }

/-- Accepts a job: it takes a context and the lowest free job number, and its table's read starts. -/
def State.acceptJob (s : State) (c : Cmd) (d : JobDesc) (p : Program) (table : Option Version) : State :=
  match firstBelow 262144 fun k => (s.job? k).isNone with
  | none => s
  | some slot => match s.openCtx c.fn c.port (.job slot) with
    | none => s.fail c .ctxExhausted
    | some (h, s) =>
      let s := (s.launch c.tag fun c => { c with ref := slot }).enterJob (s.newJob c slot h d p table)
      match table with
      | some v => s.loadTable slot c.fn v
      | none => s

/-- The classification key data of a JOB_SUBMIT, which the firmware forms from the descriptor (09 R313). -/
def jobClassData (c : Cmd) (d : JobDesc) : List Byte :=
  let out := bitOf d.flags 1
  leBytes 1 0x72 ++ leBytes 1 (if out then d.outSpace % 16 else 0) ++ leBytes 1 (c.qid + 64 * portNum c.port) ++
    leBytes 1 c.pkt.aux ++ leBytes 16 (if out then d.outOid else 0) ++ zeros 18

/-- JOB_SUBMIT (R173): it waits while the classification bank holds on an entry (09 R329). -/
def execJobSubmit (tag : Nat) (s : State) : Host.Outcome State Fault Refusal :=
  match s.ready tag 0x72 with
  | none => .next s
  | some c =>
    let b := c.data
    let d := jobDesc b
    let bad (e : Status × Nat) : State := (s.finish c e.1 0 0 0 e.2).pump.reap
    match s.submitCheck c d b with
    | some e => .next (bad e)
    | none => if s.anyHeld (s.bankOf 1).toList then .next s else
      let cl := s.classify c.fn (jobClassData c d)
      let c := { c with pclass := cl.1, qos := s.classQos cl.1 }
      let s := cl.2.modCmd tag fun _ => c
      let bad (e : Status × Nat) : State := (s.finish c e.1 0 0 0 e.2).pump.reap
      match s.resolveInputs c.fn d.inputKind d.inputs, s.tableFor c.fn d, s.programFor c.fn d.program with
      | .error e, _, _ => .next (s.fail c e)
      | _, .error e, _ => .next (s.fail c e)
      | .ok ins, .ok table, some p =>
        let d := { d with inputs := ins }
        match s.submitCheck2 c d table with
        | some e => .next (bad e)
        | none => .next (s.acceptJob c d p table)
      | _, _, none => .next (s.fail c .invalidField)

/-! ## JOB_STATUS and JOB_CANCEL -/

/-- The job of a tenant with a JOB_ID. -/
def State.jobById (s : State) (tenant id : Nat) : Option Job := s.jobs.find? fun j => j.tenant == tenant && j.desc.jobId == id

/-- RESULT0 of JOB_STATUS (R174). -/
def JobState.num : JobState → Nat
  | .loading => 0
  | .running => 1
  | .reducing => 2
  | .finishing => 3

/-- JOB_STATUS (R174). -/
def execJobStatus (tag : Nat) (s : State) : Host.Outcome State Fault Refusal :=
  match s.ready tag 0x73 with
  | none => .next s
  | some c => match s.jobById c.fn (c.pkt.fld 24 4) with
    | none => .next (s.fail c .streamUnknown)
    | some j => .next (s.complete c .ok j.st.num 0 j.done)

/-- JOB_CANCEL (R198): the job ends with END = 1, and this reply waits for the job's own. -/
def execJobCancel (tag : Nat) (s : State) : Host.Outcome State Fault Refusal :=
  match s.ready tag 0x74 with
  | none => .next s
  | some c => match s.jobById c.fn (c.pkt.fld 24 4) with
    | none => .next (s.fail c .streamUnknown)
    | some j => .next (((s.launch tag).stopJob j.slot 1 .ok).modJob j.slot fun j => { j with cancelWait := j.cancelWait ++ [tag] })

end Sys2Proof.Machine
end

