-- ==== Sys2Proof/Machine/RollerOps.lean ====
section
/-! DEFINITION. Roller pairs and their job rings (07 R257 to R270). -/
namespace Sys2Proof.Machine

/-! ## Descriptors (R257) -/

/-- The descriptor in 64 bytes. -/
def rollerDesc (b : List Byte) : RollerDesc where
  kind := fieldLe b 0 1
  target := fieldLe b 1 1
  layout := fieldLe b 2 1
  blocks := fieldLe b 4 2
  tenant := fieldLe b 6 2
  inAddr := fieldLe b 8 8
  outAddr := fieldLe b 16 8
  outLen := fieldLe b 24 4
  chain := fieldLe b 32 8
  mapAddr := fieldLe b 40 8
  doneAddr := fieldLe b 48 8
  jobTag := fieldLe b 56 4

/-- The ranges of R257. A descriptor is the firmware's: STREAM belongs to the read path only (DEDUCED, log entry 155). -/
def rollerDescOk (b : List Byte) : Bool :=
  let d := rollerDesc b
  zeroAt b 3 1 && zeroAt b 28 4 && zeroAt b 60 4 && decide (1 ≤ d.blocks) && decide (d.blocks ≤ 4096) && decide (d.tenant ≤ 4096) &&
  (d.layout == 1 || d.chain == 0) &&
  if d.kind = 1 then
    decide (1 ≤ d.target) && decide (d.target ≤ 4) && decide (d.layout ≤ 1) &&
    (if d.layout = 1 then d.outLen % 1024 == 0 && decide (d.outLen ≥ 4096) else d.outLen == 0)
  else d.kind == 2 && d.target == 0 && decide (d.layout ≤ 1) && d.outLen == 0

/-- The done record of a job (R259). -/
def RollerJob.doneRecord (j : RollerJob) (status failBlock : Nat) : List Byte :=
  leBytes 4 j.desc.jobTag ++ leBytes 2 status ++ leBytes 2 j.links ++ leBytes 4 j.outBytes ++ leBytes 2 failBlock ++ leBytes 2 1

/-- Ends the job of a slot: the done record of a firmware job is written, and the entry is free. -/
def State.endRoller (s : State) (slot status failBlock : Nat) : State :=
  match s.rjob? slot with
  | none => s
  | some j =>
    let s := if j.owner = .firmware then s.memWrite j.desc.doneAddr (j.doneRecord status failBlock) else s
    s.freeSlotOf slot

/-! ## Coding (R247 to R261) -/

/-- What the Roller finds when it must move on (R260, R261): no further link, a link that breaks its ranges, or the
job in the buffer of the next link. -/
inductive NextBuf where
  | none
  | bad
  | moved (j : RollerJob)

/-- Closes the buffer of a job: a compressor writes USED into the link it leaves. -/
def State.closeLink (s : State) (j : RollerJob) : State :=
  if j.link = 0 ∨ !j.comp then s else s.memWrite (j.link + 12) (leBytes 4 j.used)

/-- Moves a job to the buffer of the next link, once it has closed its own. -/
def State.moveOn (s : State) (j : RollerJob) : NextBuf × State :=
  let s := s.closeLink j
  let r := s.memRead (if j.link = 0 then j.desc.chain else j.link + 16) 8
  let nxt := if j.link = 0 then j.desc.chain else leNat r.bytes
  let s := if j.link = 0 then s else r.st
  if nxt = 0 then (.none, s)
  else
    let l := s.memRead nxt 32
    let len := fieldLe l.bytes 8 4
    if len % 1024 ≠ 0 ∨ len < 4096 ∨ len > 16777216 ∨ !zeroAt l.bytes 24 8 ∨ l.bad then (.bad, l.st)
    else (.moved { j with buf := fieldLe l.bytes 0 8, bufLen := len, used := 0, link := nxt, links := j.links + 1 }, l.st)

/-- The VK6410 interrupts the control cores (R261). The numbers belong to the firmware (06 R245): it is a free value (log
entry 121). -/
def State.interruptAll (s : State) : State :=
  let n := s.choice 256
  (List.finRange 4).foldl (fun s c => s.interrupt c n) s.tick

/-- A job that enters a link that breaks its ranges fails with INVALID_FIELD (R260); that link is among those entered.
Whether FAIL_BLOCK names the block is a free choice. -/
def State.badLink (s : State) (slot blk : Nat) : State :=
  let names := s.choice 2 == 0
  (s.tick.modRjob slot fun j => { j with links := j.links + 1 }).endRoller slot Status.invalidField.code (if names then blk else 0xFFFF)

/-- A PACKED compress job puts a bucket into its buffer (R260, R261). -/
def State.putPacked (s : State) (slot : Nat) (j : RollerJob) (code : Nat) (bucket : List Byte) : State :=
  let put (s : State) (j : RollerJob) : State :=
    let s := (s.memWrite (j.buf + j.used) bucket).memWrite (j.desc.mapAddr + j.next) (leBytes 1 code)
    let j := { j with used := j.used + bucket.length, outBytes := j.outBytes + bucket.length, todo := j.todo.drop 1, finished := j.finished + 1 }
    let s := (s.modRjob slot fun _ => j).countCoded [code]
    if j.finished = j.desc.blocks then (s.closeLink j).endRoller slot 0 0xFFFF
    else s
  if j.used + bucket.length ≤ j.bufLen then put s j
  else match s.moveOn j with
    | (.none, s) => ((s.modRjob slot fun j => { j with waiting := true }).bump .rlrCnt 10).interruptAll
    | (.bad, s) => s.badLink slot j.next
    | (.moved j, s) => put s j

/-- Counts a block of a compress job as finished, and ends the job with its last one. -/
def State.blockDone (s : State) (slot : Nat) (j : RollerJob) (code size : Nat) : State :=
  let s := (s.modRjob slot fun j => { j with finished := j.finished + 1, outBytes := j.outBytes + size }).countCoded [code]
  if j.finished + 1 = j.desc.blocks then s.endRoller slot 0 0xFFFF else s

/-- A SLOT compress job codes one block, at its own place (R258, R263). -/
def State.putSlot (s : State) (slot : Nat) (j : RollerJob) (blk code : Nat) (bucket : List Byte) : State :=
  ((s.memWrite (j.desc.outAddr + 4096 * blk) bucket).memWrite (j.desc.mapAddr + blk) (leBytes 1 code)).blockDone slot j code bucket.length

/-- Codes one block of a compress job; `own` says that the owner of the ring starts it. A poisoned input block of a firmware
job is not coded until it has been replaced (11 R398). -/
def State.codeRoller (s : State) (slot : Nat) (j : RollerJob) (blk : Nat) (own : Bool) : Option State × State :=
  let take (s : State) : State := if own then s.modRjob slot fun j => { j with todo := j.todo.drop 1 } else s
  if j.owner = .firmware then
    let r := s.memRead (j.desc.inAddr + 4096 * blk) 4096
    if r.poison then (none, r.st)
    else
      let c := codeBlock j.desc.target r.bytes
      if j.desc.layout = 1 then (some (r.st.putPacked slot j c.1 c.2), r.st)
      else (some ((take r.st).putSlot slot j blk c.1 c.2), r.st)
  else
    let c := codeBlock j.desc.target (j.input.getD blk (3, [])).2
    (some ((take s).blockDone slot j c.1 c.2.length), s)

/-- The codes of the decompressor's errors: status, and RLR_ERR.CODE. -/
def RollerError.codes : RollerError → Status × Nat
  | .badCode => (.rollBadCode, 1)
  | .badDistance => (.rollBadDistance, 2)
  | .overrun => (.rollOverrun, 3)

/-- An error of a block on a pair: the event, RLR_ERR and the counter (R268). -/
def State.rollerError (s : State) (p slot blk : Nat) (e : RollerError) : State :=
  let s := (s.bump .rlrCnt 8).record 0x0203 p (leBytes 2 slot ++ leBytes 2 blk ++ leBytes 2 e.codes.1.code)
  s.modRoller p fun r => { r with errSlot := slot, errCode := e.codes.2, errNew := true, errBlock := blk }

/-- The bucket of the next block of a firmware decompress job, and the job after it is read; none where the next link breaks its
ranges (R260). In a PACKED job with a chain, where the first buffer ends is not given: whether the next bucket lies in the next
link's is a free choice. -/
def State.nextBucket (s : State) (j : RollerJob) (code : Nat) : Option (List Byte × Bool × RollerJob) × State :=
  let n := bucketKib code * 1024
  if j.desc.layout = 1 then
    let moves := if j.link = 0 then j.desc.chain != 0 && s.choice 2 == 1 else decide (j.used + n > j.bufLen)
    let s := s.tick
    let m := if moves then s.moveOn j else (.none, s)
    match m.1 with
    | .bad => (none, m.2)
    | x =>
      let j := match x with
        | .moved j => j
        | _ => j
      let r := m.2.memRead (j.buf + j.used) n
      (some (r.bytes, r.poison, { j with used := j.used + n }), r.st)
  else
    let r := s.memRead (j.desc.inAddr + 4096 * j.next) n
    (some (r.bytes, r.poison, j), r.st)

/-- A block of a decompress job is finished: the job after it. -/
def State.blockDecoded (s : State) (slot : Nat) (j : RollerJob) : State :=
  let s := (s.modRjob slot fun _ => { j with todo := j.todo.drop 1, finished := j.finished + 1 }).bump .rlrCnt 1
  if j.finished + 1 = j.desc.blocks then s.endRoller slot 0 0xFFFF else s

/-- Decodes the next block of a firmware decompress job on a pair (R254, R258). -/
def State.decodeRoller (s : State) (p slot : Nat) (j : RollerJob) : State :=
  let m := s.memRead (j.desc.mapAddr + j.next) 1
  let code := leNat m.bytes
  match m.st.nextBucket j code with
  | (none, t) => t.badLink slot j.next
  | (some x, s) =>
    if m.poison || x.2.1 then s
    else match if code > 3 then .error .badCode else decodeBlock code x.1 with
      | .error e => (s.rollerError p slot j.next e).endRoller slot e.codes.1.code j.next
      | .ok b => (s.memWrite (j.desc.outAddr + 4096 * j.next) b).blockDecoded slot x.2.2

/-- The oldest job of a ring that a half can go on with. -/
def RollerPair.oldest (r : RollerPair) (comp : Bool) : Option (Nat × RollerJob) :=
  leastBy (r.ring.filter fun e => e.2.comp == comp && decide (e.2.unstarted > 0) && !e.2.waiting) fun e => e.2.order

/-- Has a half a block to hold? -/
def RollerPair.hasWork (r : RollerPair) (comp : Bool) : Bool := (r.oldest comp).isSome || (comp && !r.stolen.isEmpty)

/-! ## Failures (R269, R270) -/

/-- Moves a job of a failed or retired half to the ring of the next Loaf whose half is online, or to those that wait for a slot
of it: it starts again from its first block (R269, R270). -/
def State.moveRoller (s : State) (p i : Nat) (comp : Bool) : State :=
  match (s.roller p).ring.look i with
  | none => s
  | some j => match (nextLoaves p ++ otherLoaves p).find? fun l => s.halfOn l comp with
    | none => s.modRjob (64 * p + i) RollerJob.restart
    | some l => (s.modRoller p fun r => { r with ring := r.ring.del i }).placeJob (l, j.restart)

/-- Moves the jobs that run only on their own ring out of the ring of a half that does not serve. -/
def State.moveJobs (s : State) (p : Nat) (comp : Bool) : State :=
  ((s.roller p).ring.filter fun e => e.2.comp == comp && !e.2.stealable).foldl (fun s e => s.moveRoller p e.1 comp) s

/-- The work of a half that leaves service (R269 step 2): the blocks that it has stolen go back among those of their jobs that
nobody has started, and what is unfinished of SLOT compress jobs is for the other compressors to take under R263; its other jobs
go to the next Loaf. -/
def State.moveWork (s : State) (p : Nat) (comp : Bool) : State :=
  let s := s.moveJobs p comp
  if comp then
    let back := (s.roller p).stolen
    back.foldl (fun s x => s.modRjob x.job fun j => { j with todo := sortBy id (j.todo ++ x.blocks) })
      (s.modRoller p fun r => { r with stolen := [] })
  else s

/-- A half fails (R269): it is held, its work moves, and it is reset and tested. -/
def State.rollerFails (s : State) (p : Nat) (comp : Bool) : State :=
  let s := (s.bump .rlrCnt 9).record 0x0204 p (leBytes 1 (b2n !comp))
  ((s.modRoller p fun r => r.setHalf comp .recovering).moveWork p comp).settle

/-- RETIRE of a half: its work moves, and it is retired. -/
def State.retireHalf (s : State) (p : Nat) (comp : Bool) : State :=
  if s.halfOn p comp then
    (((s.modRoller p fun r => r.setHalf comp .retired).moveWork p comp).record 0x0205 p (leBytes 1 (b2n !comp))).settle
  else s

/-- RESTORE of a half: a retired one runs its self-test. -/
def State.restoreHalf (s : State) (p : Nat) (comp : Bool) : State :=
  if (s.roller p).half comp = .retired then s.modRoller p fun r => r.setHalf comp .recovering else s

/-- RLR_RESUME of a slot in OUT_WAIT (R261). What the submitter has written into the empty CHAIN of a job that is still
in its first buffer is a free value; a NEXT lies in memory. -/
def State.resumeRoller (s : State) (slot : Nat) : State :=
  match s.rjob? slot with
  | none => s
  | some j =>
    if !j.waiting then s
    else if j.link = 0 ∧ j.desc.chain = 0 then
      (s.modRjob slot fun j => { j with waiting := false, desc := { j.desc with chain := s.free.toNat } }).tick
    else s.modRjob slot fun j => { j with waiting := false }

end Sys2Proof.Machine
end

