-- ==== Sys2Proof/Machine/JobEvents.lean ====
section
/-! DEFINITION. The Proofer's events (05 R172 to R198): jobs enter Running, slices are read, pushed, taken, stolen and
run, partials are combined, jobs end, and Crumbs are recovered, retired and restored. -/
namespace Sys2Proof.Machine

/-! ## Loading ends -/

/-- The pool bytes a job takes: scratch and table (R157, R175). -/
def Job.poolNeed (j : Job) : Nat := j.desc.scratchPages * 65536 + roundUp j.table.length 65536

/-- The first place in a Batch's job pool that has room, over the parts that jobs hold. -/
def State.poolPlace (s : State) (batch need : Nat) : Option Nat :=
  let held := s.jobs.filter fun j => j.batch == batch && j.st != .loading && j.ending.isNone && decide (0 < j.poolNeed)
  let free (p : Nat) : Bool :=
    decide (p + need ≤ poolSize) && held.all fun j => decide (p + need ≤ j.pool) || decide (j.pool + j.poolNeed ≤ p)
  leastBy ((0 :: held.map fun j => j.pool + j.poolNeed).filter free) id

/-- The lowest of the 4,096 device job slots that no Running job holds (R175, R181). -/
def State.freeSlot (s : State) : Option Nat := firstBelow 4096 fun r => !(s.jobs.any fun j => j.st == .running && j.runSlot == r)

/-- JOB_ENTER_RUNNING (R174, R175): the parameter block goes to scratch offset 0, the rest of the scratch is zeroed,
and the table is copied. It takes the lowest device job slot that no Running job holds. -/
def execJobEnterRunning (slot : Nat) (s : State) : Host.Outcome State Fault Refusal :=
  match s.job? slot with
  | none => .next s
  | some j =>
    let ready := (s.buf? (tableBuf slot)).all fun b => b.left == 0 && b.coded.isNone
    match s.poolPlace j.batch j.poolNeed, s.freeSlot with
    | none, _ | _, none => .next s
    | some p, some r =>
      if j.st ≠ .loading ∨ j.ending.isSome ∨ !ready ∨ !s.awake then .next s
      else
        let base := jobAddr j.batch (poolBase + p)
        let table := match s.buf? (tableBuf slot) with
          | some b => b.data
          | none => j.table
        let s := ((s.freeBuf (tableBuf slot)).moveArea j.batch (poolBase + p) j.poolNeed).jobZero j.batch (poolBase + p) j.poolNeed
        let s := (s.memWrite base j.desc.params).memWrite (base + j.desc.scratchPages * 65536) table
        .next ((s.modJob slot fun j => { j with st := .running, runSlot := r, pool := p, table := table }).advanceJob slot)

/-! ## Slice reads (R172, R176, R178) -/

/-- The Batch of an LBA's location. -/
def State.batchOfLba (s : State) (n : Namespace) (lba : Nat) : Option Nat :=
  (n.entry lba).bind fun e => e.sectors.head?.bind s.batchOfSector

/-- The end of an LBA slice that starts at a byte offset of an input (R172). -/
def State.lbaEnd (s : State) (n : Namespace) (i : JobInput) (off bytes : Nat) : Nat :=
  let total := i.nlb * 4096
  let e := runEnd (fun o => s.batchOfLba n (i.lba + o / 4096)) 257 none off (min (off + bytes) total)
  let start := i.lba + off / 4096
  let bound := (i.lba + e / 4096) / 64 * 64
  if e ≥ total then total
  else if bound > start then (bound - i.lba) * 4096
  else min total (((start / 64 + 1) * 64 - i.lba) * 4096)

/-- A free slice buffer of a Batch. -/
def State.freeSliceBuf (s : State) (batch : Nat) : Option Nat :=
  (firstBelow 4096 fun k => (s.buf? (batch * 4096 + k)).isNone).map fun k => batch * 4096 + k

/-- Has a Loaf a deque slot that no entry holds and no read has reserved? -/
def State.loafRoom (s : State) (loaf : Nat) : Bool :=
  let held := ((loafCrumbs loaf).map fun c => (s.crumb c).deque.length).sum
  let kept := (s.bufs.filter fun b => b.loaf == loaf && !b.pushed && decide (b.id < 2 ^ 20)).length
  decide (held + kept < 512)

/-- The Batch and the Loaf of a slice, by its first sector; a slice on no flash of this device goes to the job's home
Batch. -/
def State.slicePlace (s : State) (j : Job) (first : Option Nat) : Nat × Nat :=
  match first.bind s.sector? with
  | some x => (x.slot / 6, s.chanOf x / 3)
  | none => (j.batch, j.batch * 16)

/-- Reserves a buffer and a deque slot for the next slice of a job; none where one is lacking. -/
def State.reserveSlice (s : State) (j : Job) (first : Option Nat) (input off len : Nat) : Option (Nat × State) :=
  let p := s.slicePlace j first
  if s.loafRoom p.2 then
    (s.freeSliceBuf p.1).map fun id =>
      let e : Entry := ⟨id, len, j.tenant, j.slot, input, off, j.issued, 0, p.1, 0, j.runSlot⟩
      let s := s.moveArea p.1 (bufOff id) (2 ^ 20)
      (id, { s with bufs := s.bufs ++ [(⟨id, e, p.2, zeros len, 0, false, false, none⟩ : SliceBuf)] })
  else none

/-- The next slice of a job: its input, where its bytes begin and end, and the first sector. -/
structure NextSlice where
  input : Nat
  off : Nat
  upto : Nat
  first : Option Nat

/-- The blocks of an LBA slice that are mapped. -/
def lbaMapped (n : Namespace) (i : JobInput) (off upto : Nat) : List MapEntry :=
  (List.range ((upto - off) / 4096)).filterMap fun k => n.entry (i.lba + off / 4096 + k)

/-- The next slice of a job in slice order (R172, R178). -/
def State.nextSlice (s : State) (j : Job) : Option NextSlice :=
  match j.slices with
  | x :: _ => match (j.desc.inputs[x.1]?).bind JobInput.pin with
    | some v => some ⟨x.1, x.2.1, x.2.1 + x.2.2, (v.sectorsAt x.2.1 (x.2.1 + x.2.2)).head?⟩
    | none => none
  | [] => (j.desc.inputs[j.nextInput]?).map fun i => match s.ns? j.tenant i.container with
    | some n =>
      let upto := s.lbaEnd n i j.nextOff (j.desc.sliceKib * 1024)
      ⟨j.nextInput, j.nextOff, upto, ((lbaMapped n i j.nextOff upto).flatMap MapEntry.sectors).head?⟩
    | none => ⟨j.nextInput, j.nextOff, j.nextOff, none⟩

/-- May the read of a job's next slice be issued: a buffer and a deque slot are free for it (R178)? -/
def State.sliceReady (s : State) (j : Job) : Bool :=
  j.st == .running && j.ending.isNone && (s.nextSlice j).any fun x =>
    let p := s.slicePlace j x.first
    s.loafRoom p.2 && (s.freeSliceBuf p.1).isSome

/-- How long after the job slot that issued last a job slot has its turn (R178). -/
def turnDist (last slot : Nat) : Nat := (slot + 4095 - last % 4096) % 4096

/-- Has a job its turn, one slice at a time, over the jobs whose next read may be issued (R178; DESIGN CHOICE, log entry 105:
the turns go round in the order of the job slots)? -/
def State.sliceTurn (s : State) (j : Job) : Bool :=
  s.jobs.all fun k => !s.sliceReady k || decide (turnDist s.prf.turn j.runSlot ≤ turnDist s.prf.turn k.runSlot)

/-- Issues the next slice of an object input. -/
def State.issueObject (s : State) (j : Job) (x : NextSlice) : State :=
  match (j.desc.inputs[x.input]?).bind JobInput.pin with
  | none => s
  | some v =>
    if !s.versionKeyed v x.off x.upto then s.endJob j.slot 2 .notPermitted (some j.issued) 0 0
    else match s.reserveSlice j x.first x.input x.off (x.upto - x.off) with
      | none => s
      | some (id, s) =>
        s.modJob j.slot (fun j => { j with slices := j.slices.drop 1, issued := j.issued + 1 })
        |>.loadRange id v x.off x.upto

/-- The blocks of an LBA slice as stored, an unmapped LBA as zeros (02 R58). -/
def State.lbaBytes (s : State) (n : Namespace) (lba count : Nat) : List Byte :=
  (List.range count).flatMap fun k => match n.entry (lba + k) with
    | some e => (s.blockAt e).getD (zeros 4096)
    | none => zeros 4096

/-- Issues the next slice of an LBA input, or ends the job whose namespace has been deleted (R190). -/
def State.issueLba (s : State) (j : Job) (x : NextSlice) : State :=
  match j.desc.inputs[x.input]? with
  | none => s
  | some i => match s.ns? j.tenant i.container with
    | none => s.endJob j.slot 2 .containerUnknown (some j.issued) 0 0
    | some n =>
      let secs := (lbaMapped n i x.off x.upto).flatMap MapEntry.sectors
      if !s.keyedFor j.tenant secs then s.endJob j.slot 2 .notPermitted (some j.issued) 0 0
      else match s.reserveSlice j x.first x.input x.off (x.upto - x.off) with
        | none => s
        | some (id, s) =>
          let s := { s with bufs := adjWhere s.bufs (fun b => b.id == id) fun b =>
            { b with
              left := secs.eraseDups.length, coded := s.codedPiece 0 ((lbaMapped n i x.off x.upto).map MapEntry.sectors), data := s.lbaBytes n (i.lba + x.off / 4096) ((x.upto - x.off) / 4096) } }
          let last := decide (x.upto ≥ i.nlb * 4096)
          let s := s.modJob j.slot fun j => { j with
            nextInput := if last then j.nextInput + 1 else j.nextInput, nextOff := if last then 0 else x.upto
            issued := j.issued + 1, total := j.total + 1 }
          s.beginReads (.slice id) secs

/-- SLICE_READ_ISSUE (R178): the read of the job whose turn it is. -/
def execSliceReadIssue (slot : Nat) (s : State) : Host.Outcome State Fault Refusal :=
  match s.job? slot with
  | none => .next s
  | some j =>
    if !s.sliceReady j ∨ !s.sliceTurn j ∨ !s.awake then .next s
    else match s.nextSlice j with
      | none => .next s
      | some x =>
        let s := s.modPrf fun p => { p with turn := j.runSlot }
        .next (if j.slices.isEmpty then s.issueLba j x else s.issueObject j x)

/-- SLICE_PUSH (R179, R180): the decoded slice is written to its buffer and its entry pushed. -/
def execSlicePush (id : Nat) (s : State) : Host.Outcome State Fault Refusal :=
  match s.buf? id with
  | none => .next s
  | some b =>
    if id ≥ 2 ^ 20 ∨ b.left ≠ 0 ∨ b.coded.isSome ∨ b.pushed ∨ !s.awake then .next s
    else
      let s := s.memWrite (jobAddr b.entry.batch (bufOff id)) b.data
      let s := { s with bufs := adjWhere s.bufs (fun x => x.id == id) fun x => { x with pushed := true } }
      .next (s.placeEntry b.loaf b.entry none)

/-! ## The filter library (R169) -/

/-- The byte strings of the records of a slice. What a library program does with a last record that is cut off is not
stated: it is left out here (DESIGN CHOICE, log entry 148). -/
def recordsOf (n : Nat) (b : List Byte) : List (List Byte) :=
  (List.range (b.length / n)).map fun i => (b.drop (i * n)).take n

/-- Does a record's field meet OP against VALUE? -/
def recordMeets (p r : List Byte) : Bool :=
  let f := fieldLe r (fieldLe p 2 2) (fieldLe p 4 1)
  let v := fieldLe p 8 8
  let op := fieldLe p 5 1
  if op = 0 then f == v else if op = 1 then f != v else if op = 2 then decide (f < v) else if op = 3 then decide (f ≤ v)
  else if op = 4 then decide (f > v) else decide (f ≥ v)

/-- PROJECT's output for a record. -/
def projectRecord (p r : List Byte) : List Byte :=
  (List.range (fieldLe p 2 2)).flatMap fun k => (r.drop (fieldLe p (4 + 4 * k) 2)).take (fieldLe p (6 + 4 * k) 2)

/-- The output for a slice of a library program other than PATTERN, and its partial. -/
def libOutput (d : JobDesc) (b : List Byte) : List Byte × List Byte :=
  let p := d.params
  let recs := recordsOf (fieldLe p 0 2) b
  if d.program = 0x80000001 then ((recs.filter (recordMeets p)).flatten, zeros 64)
  else if d.program = 0x80000002 then (recs.flatMap (projectRecord p), zeros 64)
  else ([], leBytes 8 (recs.filter (recordMeets p)).length ++ zeros 56)

/-- Runs a library program on the slice in hand: PATTERN begins to submit its keys (09 R326), the others run to their end. -/
def State.runLibrary (s : State) (c : Nat) (e : Entry) (j : Job) : State :=
  let r := s.memRead (jobAddr e.batch (bufOff e.buf)) e.length
  if r.poison then (r.st.mendSlice c).pushAgain c
  else if j.desc.program = 0x80000004 then
    ((r.st.modCrumb c fun k => { k with
      scan := some ⟨r.bytes, fieldLe j.desc.params 0 2, fieldLe j.desc.params 2 1, 0, [], []⟩ }).fillScan c).scanEnd c
  else
    let o := libOutput j.desc r.bytes
    r.st.endLibrary c o.1 o.2

/-- Starts what a Crumb has in hand: a slice, a reduction step, or a library program. -/
def State.startEntry (s : State) (c : Nat) : State :=
  match (s.crumb c).run with
  | none => s
  | some e => match s.job? e.job with
    | none => s.stopCrumb c
    | some j =>
      if (s.crumb c).reducing then s.startReduce c j
      else if j.desc.program ≥ 2 ^ 31 then (s.startSlice c).runLibrary c e j
      else s.startSlice c

/-- Takes an entry in hand: at once when the Crumb's last tenant is the entry's, after a scrub otherwise (R187). -/
def State.takeEntry (s : State) (c : Nat) (e : Entry) (reducing : Bool) : State :=
  let same := (s.crumb c).lastTenant == e.tenant
  let s := s.modCrumb c fun k => { k with run := some e, reducing := reducing, asleep := false, turnOver := if same then k.turnOver else none }
  if same then s.startEntry c
  else
    let s := s.modJob e.job fun j => { j with scrubs := min (j.scrubs + 1) 0xFFFF }
    (s.bump .prfCnt 3).modCrumb c fun k => { k with st := .scrubbing }

/-! ## Deques (R182 to R186) -/

/-- May a Crumb take an entry under MAX_CRUMBS: it runs the job already, or fewer Crumbs than that do (R182)? -/
def State.crumbCap (s : State) (c : Nat) (e : Entry) : Bool :=
  match s.job? e.job with
  | some j => j.desc.maxCrumbs == 0 || (s.crumb c).runsJob e.job ||
      decide ((s.crumbs.filter fun x => x.2.runsJob e.job).length < j.desc.maxCrumbs)
  | none => true

/-- Has an entry of another tenant waited in the deque throughout a tenant turn (R182)? -/
def Crumb.waited (k : Crumb) : Bool := k.turnOver.any fun x => k.deque.any fun e => e.job == x.1 && e.slice == x.2

/-- The entry that a Crumb takes from its own deque, and the deque without it (R182). -/
def State.ownEntry (s : State) (c : Nat) : Option (Entry × List Entry) :=
  let k := s.crumb c
  let idx := (List.range k.deque.length).reverse
  let may (i : Nat) (p : Entry → Bool) : Bool := match k.deque[i]? with
    | some e => p e && s.crumbCap c e
    | none => false
  let own := idx.find? fun i => may i fun e => e.tenant == k.lastTenant
  let any' := idx.find? fun i => may i fun _ => true
  let pick := if k.waited then any' else match own with
    | some i => some i
    | none => any'
  pick.bind fun i => (k.deque[i]?).map fun e => (e, k.deque.eraseIdx i)

/-- SLICE_TAKE (R182). -/
def execSliceTake (crumb : Fin 1024) (s : State) : Host.Outcome State Fault Refusal :=
  if (s.crumb crumb).st ≠ .idle ∨ !s.awake then .next s
  else match s.ownEntry crumb with
    | none => .next s
    | some (e, rest) => .next ((s.modCrumb crumb fun k => { k with deque := rest }).takeEntry crumb e false)

/-- The victim among some Crumbs, with a least number of entries (R183). -/
def State.victim (s : State) (c : Nat) (cands : List Nat) (least : Nat) : Option Nat :=
  let ok := cands.filter fun v => decide (((s.crumb v).deque.filter (s.crumbCap c)).length ≥ least)
  let liked := ok.filter fun v => (s.crumb v).deque.head?.any fun e => e.tenant == (s.crumb c).lastTenant
  greatestBy (if liked.isEmpty then ok else liked) fun v => (s.crumb v).deque.length

/-- The level and the victim that a thief finds. -/
def State.findVictim (s : State) (c : Nat) : Option (Nat × Nat) :=
  let all := (List.range 1024).filter (· != c)
  let l1 := s.victim c (all.filter fun v => v / 16 == c / 16) 2
  let l2 := s.victim c (all.filter fun v => v / 16 != c / 16 && v / 256 == c / 256) 2
  let l3 := s.victim c (all.filter fun v => v / 256 != c / 256) (s.regBits .prfCfg 0 21 16)
  match l1, l2, l3 with
  | some v, _, _ => some (0, v)
  | none, some v, _ => some (1, v)
  | none, none, some v => some (2, v)
  | none, none, none => none

/-- The entries a steal takes: from TOP, up to a number, of one tenant (R184). -/
def stealRun : Nat → Nat → List Entry → List Entry
  | 0, _, _ => []
  | _, _, [] => []
  | n + 1, t, e :: l => if e.tenant = t then e :: stealRun n t l else []

/-- STEAL (R183, R184): a Crumb that is awake and finds no victim goes idle; a deque that reaches 4 entries wakes the
device's idle Crumbs (R186). -/
def execSteal (crumb : Fin 1024) (s : State) : Host.Outcome State Fault Refusal :=
  if (s.crumb crumb).st ≠ .idle ∨ (s.crumb crumb).asleep ∨ (s.ownEntry crumb).isSome ∨ !s.awake then .next s
  else match s.findVictim crumb with
    | none => .next (s.modCrumb crumb fun k => { k with asleep := true })
    | some (level, v) =>
      let d := (s.crumb v).deque
      let n := min (d.length / 2) (32 - (s.crumb crumb).deque.length)
      let run := stealRun n ((d.head?.map Entry.tenant).getD 0) d
      let s := s.modCrumb v fun k => { k with deque := k.deque.drop run.length }
      let s := s.modCrumb crumb fun k => { k with deque := k.deque ++ run }
      let full := decide (4 ≤ (s.crumb crumb).deque.length) && !run.isEmpty
      .next ((s.wake fun _ => full).bump .prfCnt level)

/-- TENANT_TURN_EXPIRY (R182): the oldest entry of another tenant in the deque has waited throughout the Crumb's turn. -/
def execTenantTurnExpiry (crumb : Fin 1024) (s : State) : Host.Outcome State Fault Refusal :=
  let k := s.crumb crumb
  match k.deque.find? fun e => e.tenant != k.lastTenant with
  | some e =>
    if k.online && k.lastTenant != 0 then .next (s.modCrumb crumb fun k => { k with turnOver := some (e.job, e.slice) }) else .next s
  | none => .next s

/-- SCRUB_DONE (R187): nothing of the last tenant is left; the entry in hand starts. -/
def execScrubDone (crumb : Fin 1024) (s : State) : Host.Outcome State Fault Refusal :=
  if (s.crumb crumb).st ≠ .scrubbing then .next s
  else
    let s := s.jobZero (crumb / 256) (outOff crumb) (2 ^ 20)
    let s := s.modCrumb crumb fun k => { k with store := [], core := Core.init, loaded := none, codeLen := 0, wins := [], readBuf := [] }
    .next (s.startEntry crumb)

/-! ## Reductions (R195) -/

/-- The entry that stands for a reduction step. -/
def reduceEntry (j : Job) : Entry := ⟨2 ^ 21 + j.slot, 0, j.tenant, j.slot, 0, 0, 0xFFFFFFFF, 0, j.batch, 0, j.runSlot⟩

/-- Is a reduction step of a job in hand? -/
def State.reducing (s : State) (slot : Nat) : Bool :=
  s.crumbs.any fun c => c.2.reducing && (c.2.run.any fun e => e.job == slot)

/-- May a Crumb take a job's reduction step: it holds the job's program, or no Crumb does any more and MAX_CRUMBS lets it run
the job (R182, R195; DEDUCED, log entry 152)? -/
def State.reduceCrumb (s : State) (c : Nat) (j : Job) : Bool :=
  s.crumbCap c (reduceEntry j) && ((s.crumb c).loaded == some j.slot || !(s.crumbs.any fun x => x.2.loaded == some j.slot))

/-- REDUCTION_STEP: two partials are combined by the program on a Crumb running the job; one step of a job at a time. -/
def execReductionStep (slot : Nat) (crumb : Fin 1024) (s : State) : Host.Outcome State Fault Refusal :=
  match s.job? slot with
  | none => .next s
  | some j =>
    if j.desc.reduceOp ≠ 6 ∨ j.partials.length < 2 ∨ j.ending.isSome ∨ s.reducing slot ∨ (s.crumb crumb).st ≠ .idle ∨
        !s.reduceCrumb crumb j then .next s
    else .next (s.takeEntry crumb (reduceEntry j) true)

/-! ## Jobs end -/

/-- Places a job's output object, or commits it when it is empty (R194), in the home Batch of the job (R175; DESIGN CHOICE, log
entry 144: the spec does not say whether 01 R16 picks another one for it). -/
def State.placeJobOut (s : State) (j : Job) : State :=
  let sq := s.takeSeq
  match sq.2.placeObject j.batch j.pclass (.jobOut j.slot) j.tenant j.desc.outSpace j.desc.outOid sq.1 0 j.records with
  | none => (s.endJob j.slot 2 .writeFailed none 0 0).finishJob j.slot
  | some r =>
    let s := r.2.modJob j.slot fun j => { j with outPhase := 1, outGroups := r.1 }
    if r.1.isEmpty then s.commitJobOut j.slot else s

/-- Writes a job's output object: under a compression target a Roller of the home Batch codes it first (01 R17). -/
def State.writeJobOut (s : State) (j : Job) : State :=
  let fails (st : Status) (s : State) : State := (s.endJob j.slot 2 st none 0 0).finishJob j.slot
  let target := s.objectTarget j.pclass
  if (s.space? j.tenant j.desc.outSpace).isNone then fails .containerUnknown s
  else if (s.tenantKey j.tenant (s.classKey j.pclass) 0).isNone then fails .notPermitted s
  else
    let room := s.needSpace j.records.length
    match room.1 with
    | some st => fails st room.2
    | none =>
      if target = 0 ∨ j.records.isEmpty then s.placeJobOut j
      else (s.modJob j.slot fun j => { j with outPhase := 4 }).submitCoding j.batch (.jobOut j.slot) target j.tenant
        ((objBlocks 0 j.records).map Prod.snd)

/-- JOB_FINISH (R174, R194, R197). -/
def execJobFinish (slot : Nat) (s : State) : Host.Outcome State Fault Refusal :=
  match s.job? slot with
  | none => .next s
  | some j =>
    if j.st ≠ .finishing ∨ !s.awake then .next s
    else if j.ending.isSome ∨ !bitOf j.desc.flags 1 ∨ j.outPhase = 3 then .next ((s.finishJob slot).pruneVersions.pumpGroup)
    else if j.outPhase = 0 then .next ((s.writeJobOut j).pumpGroup)
    else .next s

/-- JOB_TIMEOUT (R177): before Finishing only. -/
def execJobTimeout (slot : Nat) (s : State) : Host.Outcome State Fault Refusal :=
  match s.job? slot with
  | none => .next s
  | some j => if j.st = .finishing then .next s else .next (s.endJob slot 2 .jobTimeout none 0 0)

/-- STOP_JOB_TIMEOUT (04 R132). -/
def execStopJobTimeout (slot : Nat) (s : State) : Host.Outcome State Fault Refusal :=
  match s.job? slot with
  | none => .next s
  | some j => if (s.tenant j.tenant).state = .stopped then .next ((s.stopJob slot 1 .quiesced).pumpGroup) else .next s

/-- QUIESCE_JOB_TIMEOUT (03 R109). -/
def execQuiesceJobTimeout (slot : Nat) (s : State) : Host.Outcome State Fault Refusal :=
  if s.modes.mode = .quiesce then .next ((s.stopJob slot 1 .quiesced).pumpGroup) else .next s

/-- BUDGET_EXHAUSTED (R189): the count has reached INSN_BUDGET, and the Crumb is at an interruptible point (06 R240). -/
def execBudgetExhausted (crumb : Fin 1024) (s : State) : Host.Outcome State Fault Refusal :=
  let k := s.crumb crumb
  match k.run.bind fun e => s.job? e.job with
  | some _ => if k.st = .running ∧ s.spent (.crumb crumb) ∧ !k.core.inUnit then .next (s.budgetStop crumb) else .next s
  | none => .next s

/-! ## Watchdog, retirement (R191, R192) -/

/-- A Crumb fails on what it holds: its output is discarded, its slice and its deque go to other Crumbs, and it is
reset and tested (R192). -/
def State.crumbFails (s : State) (c : Nat) : State :=
  let k := s.crumb c
  let s := (s.bump .prfCnt 4).record 0x0201 c
    (leBytes 2 (k.run.map Entry.tenant |>.getD k.lastTenant) ++ leBytes 2 (k.run.map Entry.jobSlot |>.getD 0xFFFF))
  let mine := (match k.run with
    | some e => if k.reducing then [] else [{ e with attempt := e.attempt + 1 }]
    | none => []) ++ k.deque
  let s := if h : c < 1024 then s.dropCoreDigests (.crumb ⟨c, h⟩) else s
  let s := s.modCrumb c fun k => { k with
    st := .recovering, deque := [], run := none, reducing := false, lastTenant := 0, loaded := none, codeLen := 0
    core := Core.init, store := [], turnOver := none, wins := [], readBuf := [], asleep := false, scan := none
    failedOn := if k.reducing then none else k.run.map fun e => (e.job, e.slice) }
  mine.foldl (fun s e => s.placeEntry (c / 16) e (some c)) s

/-- CRUMB_WATCHDOG (R191): the Crumb holds a slice. -/
def execCrumbWatchdog (crumb : Fin 1024) (s : State) : Host.Outcome State Fault Refusal :=
  if (s.crumb crumb).st = .running then .next (s.crumbFails crumb) else .next s

/-- Counts one more Crumb that failed on a slice and passed its self-test. -/
def countPass (job slice : Nat) (e : Entry) : Entry := if e.job = job ∧ e.slice = slice then { e with passes := e.passes + 1 } else e

/-- A Crumb that failed on a slice has passed its self-test: at ATTEMPT 2 with both passed, the job ends (R192). -/
def State.passedTest (s : State) (job slice : Nat) : State :=
  let s := { s with crumbs := s.crumbs.mapVal fun _ k => { k with
    deque := k.deque.map (countPass job slice), run := k.run.map (countPass job slice) } }
  let bad (e : Entry) : Bool := e.job == job && e.slice == slice && decide (e.attempt ≥ 2) && decide (e.passes ≥ 2)
  if s.crumbs.any fun c => c.2.deque.any bad || c.2.run.any bad then s.endJob job 2 .programFault (some slice) 0 0xFFFE else s

/-- CRUMB_SELF_TEST_END (R192). -/
def execCrumbSelfTestEnd (crumb : Fin 1024) (pass : Bool) (s : State) : Host.Outcome State Fault Refusal :=
  let k := s.crumb crumb
  if k.st ≠ .recovering then .next s
  else if pass then
    let s := s.modCrumb crumb fun k => { k with st := .idle, lastTenant := 0, failedOn := none }
    match k.failedOn with
    | some x => .next ((s.passedTest x.1 x.2).settle)
    | none => .next s.settle
  else .next (((s.modCrumb crumb fun k => { k with st := .retired, failedOn := none }).record 0x0202 crumb []).settle)

/-- CRB_CTRL.RETIRE: the entries move, and the Crumb is retired once its slice has ended. -/
def State.retireCrumb (s : State) (c : Nat) : State :=
  let k := s.crumb c
  if !k.online then s
  else
    let s := s.modCrumb c fun k => { k with deque := [], retiring := true }
    let s := k.deque.foldl (fun s e => s.placeEntry (c / 16) e (some c)) s
    if k.st = .idle then
      ((s.modCrumb c fun k => { k with st := .retired, retiring := false, lastTenant := 0, loaded := none }).record 0x0202 c []).settle
    else s

/-- CRB_CTRL.RESTORE: a retired Crumb runs its self-test. -/
def State.restoreCrumb (s : State) (c : Nat) : State :=
  if (s.crumb c).st = .retired then
    s.modCrumb c fun k => { k with
      st := .recovering, failedOn := none, retiring := false, lastTenant := 0, loaded := none, store := [], core := Core.init }
  else s

/-- CRUMB_RETIRE. -/
def execCrumbRetire (port : Port) (crumb : Fin 1024) (s : State) : Host.Outcome State Fault Refusal :=
  if s.mmio port then .next ((s.mgmtAccess port).retireCrumb crumb) else .next s

/-- CRUMB_RESTORE. -/
def execCrumbRestore (port : Port) (crumb : Fin 1024) (s : State) : Host.Outcome State Fault Refusal :=
  if s.mmio port then .next ((s.mgmtAccess port).restoreCrumb crumb) else .next s

end Sys2Proof.Machine
end

