-- ==== Sys2Proof/Machine/ObjectCmds.lean ====
section
/-! DEFINITION. The commands on block namespaces and object spaces (02; 03 R91, R119), with the commit page, the
inactivity timer and the context cache. -/
namespace Sys2Proof.Machine

/-! ## Block namespaces -/

/-- The map entries in force for a range of LBAs, by index. -/
def Namespace.entries (n : Namespace) (lba count : Nat) : List (Nat × MapEntry) :=
  (List.range count).filterMap fun i => (n.entry (lba + i)).map fun e => (i, e)

/-- The blocks of some map entries as stored; an LBA with none reads as zeros (02 R58). -/
def State.blockPieces (s : State) (es : List (Nat × MapEntry)) (count : Nat) : AMap (List Byte) :=
  (List.range count).filterMap fun i => match es.find? fun e => e.1 == i with
    | some e => (s.blockAt e.2).map fun b => (i, b)
    | none => some (i, zeros 4096)

/-- BLOCK_READ: resolves all its LBAs at once (R61), and reads the sectors that hold them; coded blocks then pass a
decompressor (01 R18). -/
def execBlockRead (tag : Nat) (s : State) : Host.Outcome State Fault Refusal :=
  match s.ready tag 0x20 with
  | none => .next s
  | some c => match s.ns? c.fn c.pkt.container with
    | none => .next (s.fail c .containerUnknown)
    | some n =>
      let count := c.pkt.fld 32 2 + 1
      let es := n.entries (c.pkt.fld 24 8) count
      if !s.keyedFor c.fn (es.flatMap fun e => e.2.sectors) then .next (s.fail c .notPermitted)
      else
        let s := s.launch tag fun c => { c with
          got := s.blockPieces es count, ref := count, results := (0, 0)
          coded := es.filterMap fun e => s.codedPiece e.1 [e.2.sectors] }
        let s := es.foldl (fun s e => s.beginReads (.cmd tag e.1) e.2.sectors) s
        .next ((s.finishRead tag).pump.reap)

/-- Ends a command with a status of the Resource class, found at check 9 of 03 R89. -/
def State.failResource (s : State) (c : Cmd) (st : Status) : State := s.failCheck c st 9 0xFFFF

/-- The blocks of a write, by atomic unit: unit number and its blocks. -/
def unitBlocks (lba : Nat) (data : List Byte) : List (Nat × List (Nat × List Byte)) :=
  let n := data.length / 4096
  let all := (List.range n).map fun i => (lba + i, sliceB data (4096 * i) 4096)
  (List.range ((lba + n - 1) / 64 + 1 - lba / 64)).map fun k =>
    (lba / 64 + k, all.filter fun b => b.1 / 64 == lba / 64 + k)

/-- Places the coded blocks of a BLOCK_WRITE: each atomic unit is one group of one row, in its home Batch (01 R16; 02 R63; 10
R349). -/
def State.placeWrite (s : State) (tag : Nat) : State :=
  match s.cmd? tag with
  | none => s
  | some c =>
    let h := headerOf 1 c.fn c.pkt.container c.pclass c.dataSeq (s.classKey c.pclass) 0
    match (unitBlocks (c.pkt.fld 24 8) c.data).foldl (fun acc u => acc.bind fun a =>
        (a.2.placeBlocks (u.1 % 4) c.pclass (.write tag) h true u.2).map fun r => (a.1 ++ [r.1], r.2)) (some (([] : List Nat), s)) with
    | none => s.voidWrite c
    | some p => p.2.modCmd tag fun c => { c with groups := p.1 }

/-- BLOCK_WRITE: under a compression target, a Roller of its home Batch first codes each atomic unit (01 R16, R17; 07 R262). Its
space is judged again when it takes it (10 R368); then comes its key (08 R294). -/
def execBlockWrite (tag : Nat) (s : State) : Host.Outcome State Fault Refusal :=
  match s.ready tag 0x21 with
  | none => .next s
  | some c => match s.ns? c.fn c.pkt.container with
    | none => .next (s.fail c .containerUnknown)
    | some _ =>
      let target := s.classTarget c.pclass
      let room := s.needSpace c.data.length
      match room.1 with
      | some st => .next (room.2.failResource c st)
      | none =>
      if (s.tenantKey c.fn (s.classKey c.pclass) 0).isNone then .next (s.fail c .notPermitted)
      else if target = 0 then .next ((s.launch tag).placeWrite tag)
      else .next ((unitBlocks (c.pkt.fld 24 8) c.data).foldl (fun s u =>
        s.submitCoding (u.1 % 4) (.write tag) target c.fn (u.2.map Prod.snd)) (s.launch tag))

/-- FLUSH: completes once every earlier write-type command of its ring has (03 R101). -/
def execFlush (tag : Nat) (s : State) : Host.Outcome State Fault Refusal :=
  match s.ready tag 0x22 with
  | none => .next s
  | some _ => .next ((s.launch tag).pump.reap)

/-- DEALLOCATE: one trim record, whose durability completes it (R62). -/
def execDeallocate (tag : Nat) (s : State) : Host.Outcome State Fault Refusal :=
  match s.ready tag 0x23 with
  | none => .next s
  | some c => match s.ns? c.fn c.pkt.container with
    | none => .next (s.fail c .containerUnknown)
    | some _ =>
      match (s.launch tag fun c => { c with left := 1 }).addRecord tag c.fn c.pkt.container
          (.trim (c.pkt.fld 24 8) (c.pkt.fld 32 4 + 1)) c.dataSeq with
      | some s => .next s
      | none => .next (s.fail c .writeFailed)

/-! ## Write streams -/

/-- The first failing check of an OPEN_WRITE after the context (03 R119). A log extension whose START is not the object's
length opens, and fails when it commits (R46; DESIGN CHOICE, log entry 143: 03 R91 says what START must be and gives the
breach no status). -/
def State.openCheck (s : State) (c : Cmd) (oid len start : Nat) (log : Bool) : Option Status :=
  let sp := c.pkt.container
  match s.createOk c.fn sp oid with
  | some st => some st
  | none =>
    if !s.bytesOk c.fn sp (len - start) then some .quotaBytes
    else if s.indexFull c.fn sp oid then some .objectLimit
    else if (s.current c.fn sp oid).any fun v => v.log != log then some .notLogObject
    else none

/-- OPEN_WRITE (R41; 03 R119); last its class's key (08 R294). -/
def execOpenWrite (tag : Nat) (s : State) : Host.Outcome State Fault Refusal :=
  match s.ready tag 0x40 with
  | none => .next s
  | some c =>
    let p := c.pkt
    let oid := p.fld 24 16
    let len := p.fld 40 8
    let start := p.fld 48 8
    let log := bitOf p.aux 2
    if (s.space? c.fn p.container).isNone then .next (s.fail c .containerUnknown)
    else if !s.ctxAllowed c.fn then .next (s.failResource c .ctxExhausted)
    else match s.openCheck c oid len start log with
      | some .notLogObject => .next (s.fail c .notLogObject)
      | some st => .next (s.failResource c st)
      | none =>
        if (s.tenantKey c.fn (s.classKey c.pclass) 0).isNone then .next (s.fail c .notPermitted)
        else
        let batch := s.streamBatch
        let w : WriteStream := ⟨p.container, oid, len, start, p.aux % 4, log,
          if bitOf p.aux 3 then some c.data else none, .opened, [], c.pclass, batch, 0, [], none⟩
        match s.openCtx c.fn c.port (.write w) with
        | none => .next (s.failResource c .ctxExhausted)
        | some (h, s) => .next ((s.addMsg (.stream h) (s.nextOnline batch) 0).2.complete c .ok h 0 0)

/-- Takes an append into its stream: its bytes are received and digested (R42 to R44; 01 R16). -/
def State.receive (s : State) (c : Cmd) : State :=
  let s := (s.launch c.tag).modStream c.pkt.stream fun w =>
    { w with parts := w.parts ++ [(⟨c.pkt.fld 24 8, c.data, c.tag, [], false⟩ : Part)] }
  s.feedStream c.fn c.pkt.stream

/-- Places the coded blocks of an append in groups of its stream's home Batch; an append that cannot be placed fails, and its stream
goes on without it (R43; 10 R357). -/
def State.placeAppend (s : State) (tag : Nat) : State :=
  match s.cmd? tag with
  | none => s
  | some c => match s.stream? c.fn c.pkt.stream with
    | none => s
    | some w => match s.placeObject w.batch w.pclass (.append tag) c.fn w.space w.oid c.dataSeq (c.pkt.fld 24 8) c.data with
      | some r => r.2.modCmd tag fun c => { c with groups := r.1 }
      | none => (((s.dropPart c).fail c .writeFailed).tryCommit c.fn c.pkt.stream).pumpGroup

/-- The staging of a Batch in bytes: half of it where one of its stacks is lost (11 R383). -/
def State.stagingSize (s : State) (b : Nat) : Nat :=
  if s.mem.memStacks.any fun x => x.1 / 2 == b && x.2.st == 2 then 10003415040 / 2 else 10003415040

/-- What the staging of a Batch holds: groups whose rows are not durable, programmed appends that no checkpoint of their
stream's digest covers (R44; 08 R279), and read data on its way to the host (01 R18). -/
def State.staged (s : State) (b : Nat) : Nat :=
  let rows := s.flash.rows.foldl (fun n r => if r.batch = b ∧ !r.dead then n + r.used * 4096 else n) 0
  let waits := s.flash.stalled.foldl (fun n x => if x.batch = b then n + x.group.sectors.length * 4096 else n) 0
  let appends := s.ctxs.foldl (fun n c => match c.kind with
    | .write w => if w.batch = b then
        let held := max w.start (min w.frontier (w.start + w.checkpoint))
        w.parts.foldl (fun n p => if p.durable ∧ p.off + p.data.length > held then n + p.data.length else n) n else n
    | _ => n) 0
  let reads := s.cmds.foldl (fun n c => c.staged.foldl (fun n e => if e.1 = b then n + e.2 else n) n) 0
  rows + waits + appends + reads

/-- APPEND (R42 to R44, R46; 03 R119; 08 R294): one in flight when the COMMIT was accepted still runs. With the staging of
the home Batch full it waits. Under a compression target a Roller of the home Batch codes its blocks before they are placed (01
R17). -/
def execAppend (tag : Nat) (s : State) : Host.Outcome State Fault Refusal :=
  match s.ready tag 0x41 with
  | none => .next s
  | some c => match s.stream? c.fn c.pkt.stream with
    | none => .next (s.fail c .streamUnknown)
    | some w =>
      let off := c.pkt.fld 24 8
      let len := c.data.length
      let fails (st : Status) : Host.Outcome State Fault Refusal := .next ((s.fail c st).tryCommit c.fn c.pkt.stream).pumpGroup
      if w.state ≠ .opened ∧ !w.inFlight.contains tag then .next (s.fail c .streamCommitting)
      else if off + len > w.declLen then .next (s.abortStream c.fn c.pkt.stream .lengthOver)
      else if w.overlaps off len then fails .appendOverlap
      else if off ≥ w.frontier + 2 ^ 26 then fails .outOfWindow
      else match (s.needSpace len).1 with
      | some st => .next (((s.needSpace len).2.failResource c st).tryCommit c.fn c.pkt.stream).pumpGroup
      | none =>
      if (s.tenantKey c.fn (s.classKey w.pclass) 0).isNone then fails .notPermitted
      else if s.staged w.batch + len > s.stagingSize w.batch then .next s
      else if s.objectTarget w.pclass = 0 then .next ((s.receive c).placeAppend tag)
      else .next ((s.receive c).submitCoding w.batch (.write tag) (s.objectTarget w.pclass) c.fn ((objBlocks off c.data).map Prod.snd))

/-- COMMIT (R46): the stream is Committing; its appends that are in flight, on whatever ring, end first. -/
def execCommit (tag : Nat) (s : State) : Host.Outcome State Fault Refusal :=
  match s.ready tag 0x42 with
  | none => .next s
  | some c => match s.stream? c.fn c.pkt.stream with
    | none => .next (s.fail c .streamUnknown)
    | some w =>
      if w.state ≠ .opened then .next (s.fail c .streamCommitting)
      else
        let flying := (s.cmds.filter fun k => k.fn == c.fn && k.pkt.opcode == 0x41 && k.pkt.stream == c.pkt.stream && k.started && !k.launched).map Cmd.tag
        let s := (s.launch tag).modStream c.pkt.stream fun w => { w with state := .committing, inFlight := flying }
        .next ((s.tryCommit c.fn c.pkt.stream).pumpGroup)

/-- ABORT_STREAM (R41). -/
def execAbortStream (tag : Nat) (s : State) : Host.Outcome State Fault Refusal :=
  match s.ready tag 0x43 with
  | none => .next s
  | some c => match s.stream? c.fn c.pkt.stream with
    | none => .next (s.fail c .streamUnknown)
    | some w =>
      if w.state ≠ .opened then .next (s.fail c .streamCommitting)
      else .next ((s.abortStream c.fn c.pkt.stream .streamUnknown (some tag)).complete c .ok 0 0 0)

/-! ## Reading objects -/

/-- The version that a read stream pins (R54). -/
def State.readStream? (s : State) (tenant h : Nat) : Option Version :=
  match s.ctx? tenant h with
  | some x => match x.kind with
    | .read sp oid ver => s.version? tenant sp oid ver
    | _ => none
  | none => none

/-- The version an OBJECT_READ reads (R52, R54; 03 R119). -/
def State.readVersion (s : State) (c : Cmd) : Except Status Version :=
  if c.pkt.stream ≠ 0 then match s.readStream? c.fn c.pkt.stream with
    | some v => .ok v
    | none => .error .streamUnknown
  else if (s.space? c.fn c.pkt.container).isNone then .error .containerUnknown
  else s.resolve c.fn c.pkt.container (c.pkt.fld 24 16) (c.pkt.fld 48 8)

/-- Reads a range of a version for a command: by 4 KiB blocks from flash, or by stripes from the Group. -/
def State.readRange (s : State) (c : Cmd) (v : Version) (lo hi : Nat) : State :=
  match v.group with
  | some g =>
    let w := g.k * 262144
    let ps := cutRange w lo hi
    let s := s.launch c.tag fun c => { c with ref := ps.length, results := (v.version, v.length) }
    let s := (List.range ps.length).foldl (fun s i =>
      let p := ps.getD i (0, 0)
      s.beginGather (.cmd c.tag i) (shardKey (s.keyOf v) (p.1 / w) 0) v.stub g (p.1 % w) (p.2 - p.1 / w * w)) s
    (s.gatherSteps.finishRead c.tag)
  | none =>
    let ps := cutRange 4096 lo hi
    let got : AMap (List Byte) := (List.range ps.length).map fun i =>
      (i, s.versionBytes v (ps.getD i (0, 0)).1 (ps.getD i (0, 0)).2)
    let coded := (List.range ps.length).filterMap fun i =>
      s.codedPiece i (v.blocksAt (ps.getD i (0, 0)).1 (ps.getD i (0, 0)).2)
    let s := s.launch c.tag fun c => { c with ref := ps.length, got := got, coded := coded, results := (v.version, v.length) }
    let s := (List.range ps.length).foldl (fun s i =>
      s.beginReads (.cmd c.tag i) (v.sectorsAt (ps.getD i (0, 0)).1 (ps.getD i (0, 0)).2)) s.tick
    s.finishRead c.tag

/-- OBJECT_READ (R52, R53): all its bytes come from one version. -/
def execObjectRead (tag : Nat) (s : State) : Host.Outcome State Fault Refusal :=
  match s.ready tag 0x44 with
  | none => .next s
  | some c => match s.readVersion c with
    | .error st => .next (s.fail c st)
    | .ok v =>
      let lo := c.pkt.fld 40 8
      let hi := min (lo + c.pkt.dataLen) v.length
      if !s.versionKeyed v lo hi then .next (s.fail c .notPermitted)
      else .next ((s.readRange c v lo hi).pump.reap)

/-- OPEN_READ (R54): selector 0 or the current version's number. -/
def execOpenRead (tag : Nat) (s : State) : Host.Outcome State Fault Refusal :=
  match s.ready tag 0x45 with
  | none => .next s
  | some c =>
    let oid := c.pkt.fld 24 16
    let sel := c.pkt.fld 40 8
    if (s.space? c.fn c.pkt.container).isNone then .next (s.fail c .containerUnknown)
    else if !s.ctxAllowed c.fn then .next (s.failResource c .ctxExhausted)
    else match s.current c.fn c.pkt.container oid with
      | none => .next (s.fail c .notFound)
      | some v =>
        if sel ≠ 0 ∧ sel ≠ v.version then .next (s.fail c .versionGone)
        else match s.openCtx c.fn c.port (.read c.pkt.container oid v.version) with
          | none => .next (s.failResource c .ctxExhausted)
          | some (h, s) => .next (s.complete c .ok h v.version v.length)

/-- CLOSE_READ (R54): the pin goes. -/
def execCloseRead (tag : Nat) (s : State) : Host.Outcome State Fault Refusal :=
  match s.ready tag 0x46 with
  | none => .next s
  | some c =>
    if (s.readStream? c.fn c.pkt.stream).isNone then .next (s.fail c .streamUnknown)
    else .next (((s.closeCtx c.pkt.stream).pruneVersions.pumpGroup).complete c .ok 0 0 0)

/-! ## DELETE, STAT, LOG_TRIM, LIST -/

/-- The tombstone of a delete (R51, R55). -/
def tombstone (tenant space oid pclass : Nat) (log : Bool) : Version :=
  ⟨tenant, space, oid, 0, false, log, 0, 0, 0, [], [], [], pclass, 0, none, false, [], none⟩

/-- DELETE (R55; 03 R119): the version condition, then the object. -/
def execDelete (tag : Nat) (s : State) : Host.Outcome State Fault Refusal :=
  match s.ready tag 0x47 with
  | none => .next s
  | some c =>
    let oid := c.pkt.fld 24 16
    let want := c.pkt.fld 40 8
    let l := s.latestInOrder c.fn c.pkt.container oid
    if (s.space? c.fn c.pkt.container).isNone then .next (s.fail c .containerUnknown)
    else if !versionOk want l then .next (s.complete c .commitConflict 0 (latestNo l) 0)
    else if !(l.any Version.live) then
      if want = 2 ^ 64 - 1 then .next (s.fail c .notFound) else .next (s.complete c .ok 0 (latestNo l) 0)
    else match (s.launch tag).addCommit (.cmd tag) 0 (tombstone c.fn c.pkt.container oid c.pclass (l.any Version.log)) with
      | .ok t => .next t.pumpGroup
      | .error st => .next (s.fail c st)

/-- STAT of an object (03 R90, R91). -/
def execStat (tag : Nat) (s : State) : Host.Outcome State Fault Refusal :=
  match s.ready tag 0x48 with
  | none => .next s
  | some c =>
    if bitOf c.pkt.aux 0 then .next s
    else if (s.space? c.fn c.pkt.container).isNone then .next (s.fail c .containerUnknown)
    else
      let out (b : List Byte) : List Byte := if c.pkt.dataLen = 32 then padTo b 32 else []
      match s.latest c.fn c.pkt.container (c.pkt.fld 24 16) with
      | none => .next (s.deliver c (out []) 0 0 0)
      | some v =>
        if v.live then .next (s.deliver c (out v.digest) (1 + 2 * b2n v.log) v.version v.length)
        else .next (s.deliver c (out []) 0 v.version 0)

/-- The number of a stream state, in the order of R41. -/
def StreamState.num : StreamState → Nat
  | .opened => 0
  | .committing => 1
  | .committed => 2
  | .aborted => 3
  | .released => 4

/-- STAT with STREAM_QUERY (03 R90). -/
def execStatStreamQuery (tag : Nat) (s : State) : Host.Outcome State Fault Refusal :=
  match s.ready tag 0x48 with
  | none => .next s
  | some c =>
    if !bitOf c.pkt.aux 0 then .next s
    else match s.stream? c.fn c.pkt.stream with
      | none => .next (s.fail c .streamUnknown)
      | some w => .next (s.complete c .ok w.state.num w.frontier w.received)

/-- Releases the whole extents inside a range and marks the range as trimmed (R57). -/
def Version.trim (v : Version) (lo hi : Nat) : Version :=
  let hi := min hi v.length
  if hi ≤ lo then v
  else { v with
    trimmed := v.trimmed ++ [(lo, hi)]
    parts := v.parts.map fun e => if lo ≤ e.off ∧ e.off + e.data.length ≤ hi then { e with sectors := [] } else e }

/-- LOG_TRIM (R57): the part of the range below the length of the moment; versions in commit hold the same bytes. A version
that a read stream or job pins keeps its extents (R54; log 131). -/
def execLogTrim (tag : Nat) (s : State) : Host.Outcome State Fault Refusal :=
  match s.ready tag 0x49 with
  | none => .next s
  | some c =>
    let oid := c.pkt.fld 24 16
    let lo := c.pkt.fld 40 8
    if (s.space? c.fn c.pkt.container).isNone then .next (s.fail c .containerUnknown)
    else match s.current c.fn c.pkt.container oid with
      | none => .next (s.fail c .notFound)
      | some v =>
        if !v.log then .next (s.fail c .notLogObject)
        else
          let hi := min (lo + c.pkt.fld 48 8) v.length
          let f (w : Version) : Version := if w.is c.fn c.pkt.container oid && w.live && w.log && !s.pinnedVersion w then w.trim lo hi else w
          let s := { s with versions := s.versions.map f, commits := s.commits.map fun (x : Commit) => ({ x with ver := f x.ver } : Commit) }
          .next (s.complete c .ok 0 0 0)

/-- LIST (03 R91). -/
def execList (tag : Nat) (s : State) : Host.Outcome State Fault Refusal :=
  match s.ready tag 0x4A with
  | none => .next s
  | some c =>
    if (s.space? c.fn c.pkt.container).isNone then .next (s.fail c .containerUnknown)
    else
      let all := s.listFrom c.fn c.pkt.container (c.pkt.fld 24 16)
      let part := all.take (c.pkt.dataLen / 24)
      let last := decide (part.length = all.length) || part.getLast?.any fun e => e.1 == 2 ^ 128 - 1
      .next (s.deliver c (part.flatMap fun e => leBytes 16 e.1 ++ leBytes 8 e.2) part.length 0 (b2n last))

/-! ## Commit pages, timers, the context cache -/

/-- COMMIT_PAGE_PROGRAM (R50; 10 R362): the records that may go out are gathered in one commit page, with the extent lists
they name (10 R352); both are placed in the metadata row of a Batch, which is programmed when it is full or its fill time
has passed (10 R356). The page's DATA_SEQ is the highest of its records (DESIGN CHOICE, log 77). -/
def execCommitPageProgram (s : State) : Host.Outcome State Fault Refusal :=
  let cs := s.pageable
  if cs.isEmpty || !s.awake then .next s
  else
    let page := s.nextCommit
    let s := { s with nextCommit := page + 1 }
    let seq := cs.foldl (fun m c => max m c.ver.seq) 0
    let lists := cs.foldl (fun (acc : Option State) c => acc.bind fun s => s.placeList (page % 4) .metadata c.ver c.ver.seq 7 false) (some s)
    let placed := lists.bind fun s =>
      let ng := s.newGroup
      let g : Group := ⟨ng.1, .commits (cs.map Commit.id),
        [(deviceHeader 3 seq page, padTo (cs.flatMap fun c => c.record 0) 4096)], [], 0, [], 7⟩
      ng.2.placeGroup (page % 4) .metadata true g
    match placed with
    | none => .next (cs.foldl (fun s c => if s.commits.any (fun x => x.id == c.id) then s.commitFail c .writeFailed else s) s).pumpGroup
    | some t => .next (cs.foldl (fun t c => t.modCommit c.id fun c => { c with phase := .paged }) t)

/-- COMMIT_RECORD_DURABLE (R49): a version whose page is durable becomes visible, in the object's commit order. -/
def execCommitRecordDurable (id : Nat) (s : State) : Host.Outcome State Fault Refusal :=
  match s.commits.find? fun c => c.id == id with
  | none => .next s
  | some c =>
    let first := (s.commitsOf c.ver.tenant c.ver.space c.ver.oid).all fun x => decide (c.ver.version ≤ x.ver.version)
    if c.phase = .durable ∧ first then .next (s.commitVisible c).pumpGroup else .next s

/-- Do a tenant's inactivity timers stand still (03 R109, 04 R132, 13 R455)? -/
def State.timersStand (s : State) (tenant : Nat) : Bool :=
  s.modes.mode == .quiesce || s.modes.mode == .maintenance || (s.tenant tenant).state == .stopped

/-- STREAM_INACTIVITY_TIMEOUT (R45, R54; 08 R280): not while the tenant's timers stand still. -/
def execStreamInactivityTimeout (handle : Nat) (s : State) : Host.Outcome State Fault Refusal :=
  match s.ctxs.find? fun c => c.handle == handle with
  | none => .next s
  | some x =>
    if s.timersStand x.tenant then .next s
    else match x.kind with
      | .write w => if w.state = .opened then .next (s.abortStream x.tenant handle .streamUnknown) else .next s
      | .read _ _ _ => .next (s.abortStream x.tenant handle .streamUnknown).pruneVersions.pumpGroup
      | .digest _ => .next (s.abortStream x.tenant handle .streamUnknown)
      | _ => .next s

/-- CONTEXT_CACHE_LOAD (04 R139): it waits while every cached context is in use, or while no stack holds a copy. -/
def execContextCacheLoad (handle : Nat) (s : State) : Host.Outcome State Fault Refusal :=
  if s.ctxs.any fun c => c.handle == handle && !c.cached && !c.copies.isEmpty then
    match s.cacheRoom with
    | some t => .next (t.modCtx handle fun c => { c with cached := true })
    | none => .next s
  else .next s

end Sys2Proof.Machine
end

