-- ==== Sys2Proof/Machine/RollerCmds.lean ====
section
/-! DEFINITION. Roller jobs and their events, and the direct services (07 R261 to R269). -/
namespace Sys2Proof.Machine

/-- ROLLER_JOB_SUBMIT (R257, R262, R270): while the ring is full the submitter waits. A descriptor that breaks a range
fails before any block is coded. -/
def execRollerJobSubmit (loaf : Fin 64) (desc : List Byte) (s : State) : Host.Outcome State Fault Refusal :=
  if !s.awake then .next s
  else
    let d := rollerDesc desc
    let l := s.rollerLoaf loaf (d.kind == 1)
    match (s.roller l).freeEntry with
    | none => .next s
    | some i =>
      let j := newRollerJob d s.rolls.order
      let s := { s.modRoller l fun r => { r with ring := r.ring.put i j } with rolls := { s.rolls with order := s.rolls.order + 1 } }
      if rollerDescOk desc then .next s else .next (s.endRoller (64 * l + i) Status.invalidField.code 0xFFFF)

/-- Writes the output of a direct service at OUT_ADDR. -/
def State.writeOut (s : State) (c : Cmd) (b : List Byte) : State :=
  if c.doomed then s else s.hostWrite c.port c.fn (c.pkt.fld 24 8) b

/-- A Roller stream of coded blocks under a target (R264). -/
def rollerStream (target : Nat) (blks : List (Nat × List Byte)) : List Byte :=
  let payload := blks.flatMap Prod.snd
  let head := leBytes 4 0x4C524B56 ++ [1] ++ leBytes 1 target ++ leBytes 2 blks.length ++ leBytes 4 payload.length
  let map := leBytes 64 ((List.range blks.length).foldl (fun m i => m + 4 ^ i * (blks.getD i (0, [])).1) 0)
  head ++ crcBytes (head ++ map) ++ map ++ payload

/-- A direct service writes its output and ends with a status; HOST_DMA_ERROR where its function is not usable (04 R121). -/
def State.directOut (s : State) (c : Cmd) (b : List Byte) (st : Status) : State :=
  if !s.usable c.port c.fn then s.fail c .hostDmaError
  else if st = .ok then (s.writeOut c b).complete c .ok b.length 0 0
  else (s.writeOut c b).fail c st

/-- What the last block of a job does for its owner: the coded blocks of a write are placed once all its jobs have ended; a direct
service ends; the decoded piece of a read is here; a slice is decoded (01 R17 to R19; 07 R264 to R268). -/
def State.rolled (s : State) (j : RollerJob) (out : List (List Byte)) : State :=
  match j.owner with
  | .firmware => s
  | .write tag =>
    if s.hasRoller j.owner then s
    else match s.cmd? tag with
      | some c => if c.pkt.opcode = 0x21 then s.placeWrite tag else s.placeAppend tag
      | none => s
  | .direct tag => match s.cmd? tag with
    | some c =>
      if j.comp then s.directOut c (rollerStream j.desc.target (j.input.map fun b => codeBlock j.desc.target b.2)) .ok
      else s.directOut c out.flatten .ok
    | none => s
  | .jobOut slot => match s.job? slot with
    | some k => s.placeJobOut k
    | none => s
  | .read tag idx =>
    ((s.modCmd tag fun c => { c with coded := c.coded.filter fun p => p.idx != idx }).finishRead tag).pump.reap
  | .slice buf => { s with bufs := adjWhere s.bufs (fun b => b.id == buf) fun b => { b with coded := none } }

/-- After a block of the job of a slot: where that was its last one, its owner goes on. -/
def State.afterBlock (s : State) (slot : Nat) (j : RollerJob) (out : List (List Byte)) : State :=
  if (s.rjob? slot).any fun k => k.order == j.order then s else s.rolled j out

/-- Codes one block of what the compressor of a pair has at hand: its own oldest job, or what it stole (R263). -/
def State.compressorStep (s : State) (p : Nat) : State :=
  let r := s.roller p
  match r.oldest true with
  | some (i, j) =>
    let x := s.codeRoller (64 * p + i) j j.next true
    match x.1 with
    | some t => t.afterBlock (64 * p + i) j []
    | none => x.2
  | none => match r.stolen with
    | [] => s
    | x :: _ => match s.rjob? x.job, x.blocks with
      | some j, blk :: rest =>
        let y := s.codeRoller x.job j blk false
        match y.1 with
        | none => y.2
        | some t => (t.modRoller p fun r => { r with
            stolen := r.stolen.filterMap fun (z : StolenRange) =>
              if z = x then (if rest.isEmpty then none else some ({ x with blocks := rest } : StolenRange)) else some z }).afterBlock x.job j []
      | _, _ => s.modRoller p fun r => { r with stolen := r.stolen.drop 1 }

/-- A coded block of a read that does not decode is rebuilt from parity and decoded once more (R268): the first time its sectors are
read again so, the second time it is lost. -/
def State.decodeAgain (s : State) (j : RollerJob) : State :=
  let again (p : CodedPiece) : CodedPiece := { p with again := p.again ++ [j.next] }
  match j.owner with
  | .read tag idx => match (s.cmd? tag).bind fun c => c.coded.find? fun p => p.idx == idx with
    | some p =>
      if p.again.contains j.next then ((s.missPiece tag idx).finishRead tag).pump.reap
      else
        let s := s.modCmd tag fun c => { c with coded := adjWhere c.coded (fun p => p.idx == idx) again }
        (s.beginRebuilds (.cmd tag idx) (p.blocks.getD j.next [])).pieceRead tag idx
    | none => s
  | .slice buf => match (s.buf? buf).bind SliceBuf.coded with
    | some p =>
      let secs := (p.blocks.getD j.next []).eraseDups
      if p.again.contains j.next then s.sliceFailed buf .unrecoveredRead
      else
        let s := { s with bufs := adjWhere s.bufs (fun b => b.id == buf) fun b =>
          { b with left := secs.length, coded := b.coded.map again } }
        s.beginRebuilds (.slice buf) secs
    | none => s
  | _ => s

/-- Decodes the next block of a job that is not the firmware's. A direct service gives its own bytes, and its error ends it with the
blocks before the failing one (R268). A stored block decodes unless media corruption has passed the LDPC decoder or a Roller has
failed, which is a free choice (log entry 156). -/
def State.decodeOwned (s : State) (p slot : Nat) (j : RollerJob) : State :=
  match j.owner with
  | .direct tag =>
    let x := j.input.getD j.next (3, [])
    match decodeBlock x.1 x.2 with
    | .ok b =>
      let j' := { j with out := j.out ++ [b] }
      (s.blockDecoded slot j').afterBlock slot j j'.out
    | .error e =>
      let s := (s.rollerError p slot j.next e).endRoller slot 0 0
      match s.cmd? tag with
      | some c => s.directOut c j.out.flatten e.codes.1
      | none => s
  | _ =>
    let e := [RollerError.badCode, .badDistance, .overrun][s.choice 4]?
    match e with
    | none => (s.tick.blockDecoded slot j).afterBlock slot j []
    | some e => ((s.tick.rollerError p slot j.next e).endRoller slot 0 0).decodeAgain j

/-- ROLLER_BLOCK_CODE (R254, R263): an online half codes one block. -/
def execRollerBlockCode (pair : Fin 64) (comp : Bool) (s : State) : Host.Outcome State Fault Refusal :=
  if !s.halfOn pair comp then .next s
  else if comp then .next (s.compressorStep pair)
  else match (s.roller pair).oldest false with
    | some (i, j) =>
      if j.owner = .firmware then .next (s.decodeRoller pair (64 * pair.val + i) j)
      else .next (s.decodeOwned pair (64 * pair.val + i) j)
    | none => .next s

/-- The unstarted blocks of a pair's stealable jobs. -/
def RollerPair.spoil (r : RollerPair) : Nat := r.ring.foldl (fun n e => if e.2.stealable then n + e.2.unstarted else n) 0

/-- The victim of a thief and the level of the steal: the most unstarted blocks, then the lowest pair (R263). A compressor out of
service can start no block itself: the others take even its last one (R269; DEDUCED, log entry 154). -/
def State.rollerVictim (s : State) (p : Nat) : Option (Nat × Nat) :=
  let pick (cands : List Nat) (least : Nat) : Option Nat :=
    greatestBy (cands.filter fun q => decide ((s.roller q).spoil ≥ if s.halfOn q true then least else 1)) fun q => (s.roller q).spoil
  let near := (List.range 64).filter fun q => q / 16 == p / 16 && q != p
  let far := (List.range 64).filter fun q => q / 16 != p / 16
  match pick near 2 with
  | some q => some (q, 1)
  | none => (pick far (s.regBits .rlrCfg 0 23 16)).map fun q => (q, 2)

/-- ROLLER_STEAL (R263): the last half of the unstarted blocks of the victim's newest stealable job. -/
def execRollerSteal (pair : Fin 64) (s : State) : Host.Outcome State Fault Refusal :=
  if !s.halfOn pair true || (s.roller pair).hasWork true then .next s
  else match s.rollerVictim pair with
    | none => .next s
    | some (q, level) =>
      match greatestBy ((s.roller q).ring.filter fun e => e.2.stealable && decide (e.2.unstarted > 0)) fun e => e.2.order with
      | none => .next s
      | some (i, j) =>
        let k := max (j.unstarted / 2) (if s.halfOn q true then 0 else 1)
        if k = 0 then .next s
        else
          let s := s.modRjob (64 * q + i) fun j => { j with todo := j.todo.take (j.unstarted - k) }
          let s := s.modRoller pair fun r => { r with stolen := r.stolen ++ [(⟨64 * q + i, j.todo.drop (j.unstarted - k)⟩ : StolenRange)] }
          .next (s.bump .rlrCnt (5 + level))

/-- OUT_WAIT_TIMEOUT (R261). -/
def execOutWaitTimeout (slot : Nat) (s : State) : Host.Outcome State Fault Refusal :=
  match s.rjob? slot with
  | none => .next s
  | some j => if j.waiting then .next (s.endRoller slot Status.invalidBuffer.code j.next) else .next s

/-- RLR_RESUME (R261): a slot not in OUT_WAIT is ignored. -/
def execRlrResume (port : Port) (slot : Nat) (s : State) : Host.Outcome State Fault Refusal :=
  if s.mmio port then .next ((s.mgmtAccess port).resumeRoller (slot % 4096)) else .next s

/-- ROLLER_WATCHDOG (R269): the half holds a block. -/
def execRollerWatchdog (pair : Fin 64) (comp : Bool) (s : State) : Host.Outcome State Fault Refusal :=
  if s.halfOn pair comp && (s.roller pair).hasWork comp then .next (s.rollerFails pair comp) else .next s

/-- A half has come back: jobs that waited in rings whose half does not serve go on, and so do those that waited for a slot
(R270). -/
def State.regainHalf (s : State) (comp : Bool) : State :=
  (((List.range 64).filter fun p => !s.halfOn p comp).foldl (fun s p => s.moveJobs p comp) s).drainRings

/-- ROLLER_SELF_TEST_END (R269, R270). -/
def execRollerSelfTestEnd (pair : Fin 64) (comp pass : Bool) (s : State) : Host.Outcome State Fault Refusal :=
  if (s.roller pair).half comp ≠ .recovering then .next s
  else if pass then .next (((s.modRoller pair fun r => r.setHalf comp .idle).regainHalf comp).settle)
  else .next (((s.modRoller pair fun r => r.setHalf comp .retired).record 0x0205 pair (leBytes 1 (b2n !comp))).settle)

/-- RETIRE_C. -/
def execRetireC (port : Port) (pair : Fin 64) (s : State) : Host.Outcome State Fault Refusal :=
  .next (if s.mmio port then (s.mgmtAccess port).retireHalf pair true else s)

/-- RESTORE_C. -/
def execRestoreC (port : Port) (pair : Fin 64) (s : State) : Host.Outcome State Fault Refusal :=
  .next (if s.mmio port then (s.mgmtAccess port).restoreHalf pair true else s)

/-- RETIRE_D. -/
def execRetireD (port : Port) (pair : Fin 64) (s : State) : Host.Outcome State Fault Refusal :=
  .next (if s.mmio port then (s.mgmtAccess port).retireHalf pair false else s)

/-- RESTORE_D. -/
def execRestoreD (port : Port) (pair : Fin 64) (s : State) : Host.Outcome State Fault Refusal :=
  .next (if s.mmio port then (s.mgmtAccess port).restoreHalf pair false else s)

/-! ## Direct services (R264 to R268) -/

/-- The bucket codes of a stream's map. -/
def mapCodes (map n : Nat) : List Nat := (List.range n).map fun i => bitsOf map (2 * i + 1) (2 * i)

/-- COMPRESS_DIRECT (R265): a PACKED job on a Loaf of the Batch that stages its data, which the spec does not name: a free
choice (log entry 153). -/
def execCompressDirect (tag : Nat) (s : State) : Host.Outcome State Fault Refusal :=
  match s.ready tag 0x91 with
  | none => .next s
  | some c =>
    let blks := chunks 4096 c.data
    .next ((s.launch tag).tick.submitRoller (s.batchLoaf (s.choice 4)) (.direct tag) 1 (c.pkt.fld 36 1) 1 c.fn blks.length
      (blks.map fun b => (3, b)))

/-- Checks 1 and 2 of R266 on a stream. -/
def streamOk (b : List Byte) : Bool :=
  let target := fieldLe b 5 1
  let n := fieldLe b 6 2
  let map := fieldLe b 16 64
  let codes := mapCodes map n
  let sum := codes.foldl (fun a c => a + bucketKib c * 1024) 0
  fieldLe b 0 4 == 0x4C524B56 && fieldLe b 4 1 == 1 && decide (1 ≤ target) && decide (target ≤ 4) && decide (1 ≤ n) && decide (n ≤ 255) &&
  map / 4 ^ n == 0 && (target == 4 || codes.all fun c => c == target - 1 || c == 3) &&
  fieldLe b 12 4 == (crc32c (b.take 12 ++ (b.drop 16).take 64)).toNat && fieldLe b 8 4 == sum && b.length == 80 + sum

/-- The buckets of a stream, by their codes. -/
def streamBuckets : List Nat → List Byte → List (Nat × List Byte)
  | [], _ => []
  | c :: cs, b => (c, b.take (bucketKib c * 1024)) :: streamBuckets cs (b.drop (bucketKib c * 1024))

/-- DECOMPRESS_DIRECT (R266, R268): the checks of its stream, then a PACKED job on a Loaf of the Batch that stages its data, which
the spec does not name: a free choice (log entry 153). -/
def execDecompressDirect (tag : Nat) (s : State) : Host.Outcome State Fault Refusal :=
  match s.ready tag 0x92 with
  | none => .next s
  | some c =>
    let b := c.data
    let n := fieldLe b 6 2
    if !streamOk b then .next (s.fail c .rollBadCode)
    else if c.pkt.fld 32 4 < 4096 * n then .next (s.fail c .invalidBuffer)
    else .next ((s.launch tag).tick.submitRoller (s.batchLoaf (s.choice 4)) (.direct tag) 2 0 1 c.fn n
      (streamBuckets (mapCodes (fieldLe b 16 64) n) (b.drop 80)))

end Sys2Proof.Machine
end

