-- ==== Sys2Proof/Machine/MemEvents.lean ====
section
/-! DEFINITION. The events of in-package memory (11): requests, refresh, merge buffers, scrub, failures, delays and
page retirement. -/
namespace Sys2Proof.Machine

/-! ## Requests (R388, R389) -/

/-- The level of a port (MEM_QOS). -/
def State.portLevel (s : State) (p : Nat) : Nat := s.regBits .memQos 0 (3 * p + 2) (3 * p)

/-- The effective level of a waiting request (R389). -/
def State.reqLevel (s : State) (c : MemCtrl) (r : MemReq) : Nat :=
  if c.aged.contains r.id then 7 else s.portLevel r.port.val

/-- May a waiting request be served: no earlier one names its block (R389)? -/
def eligible : List MemReq → List MemReq → List MemReq
  | _, [] => []
  | seen, r :: rest => if seen.any fun x => x.block == r.block then eligible (seen ++ [r]) rest else r :: eligible (seen ++ [r]) rest

/-- The distance of a port in turn order after the port served last. -/
def turnOf (last p : Nat) : Nat := (p + 7 - last % 8) % 8

/-- The request to serve next: the highest effective level; among ports at one level in turn, within a port the
oldest (R389). -/
def State.nextReq (s : State) (c : MemCtrl) : Option MemReq :=
  let cands := eligible [] c.queue
  let top := cands.foldl (fun m r => max m (s.reqLevel c r)) 0
  leastBy (cands.filter fun r => s.reqLevel c r == top) fun r => turnOf c.lastPort r.port.val

/-- Carries out a request: a write, or a read whose answer goes to its requester. -/
def State.serveReq (s : State) (c : Nat) (r : MemReq) : State :=
  let stack := c / 32
  let sa := r.block * 32
  if r.write then s.writeBlock stack sa r.mask r.data
  else
    let x := (s.flushMerge stack sa).readBlock stack sa false
    x.2.2.modCtrl c fun k => { k with answers := k.answers ++ [⟨r.id, x.1, x.2.1⟩] }

/-- Does the block of a request belong to the controller (R383)? -/
def ownReq (c : Nat) (r : MemReq) : Bool := decide (r.block * 32 < 36 * 2 ^ 30) && ctrlOf (c / 32) (r.block * 32) == c

/-- Does a throttle pause begin for a request (R390; 14 R477): the throttle step is above 0, and the request needs a row
activate. Whether it does is a free choice: the spec gives no page policy (log entry 160). -/
def State.pauses (s : State) (c : MemCtrl) (r : MemReq) : Bool :=
  decide (s.hk.step ≠ 0) && !c.held.contains r.id && s.choice 2 == 1

/-- Requests reach a controller and it serves one, or holds it for a throttle pause, or pays its refresh debt when none waits
(R389 to R391). A request that has been held is served when it is next chosen. At a failed controller every request is issued
again at once under R405. -/
def execMemoryAccess (ctrl : Fin 256) (arrivals : List MemReq) (s : State) : Host.Outcome State Fault Refusal :=
  let new := arrivals.filter (ownReq ctrl)
  if (s.ctrl ctrl).st = 0 then .next s
  else if (s.ctrl ctrl).st = 2 then .next (new.foldl (fun s r => s.serveReq ctrl r) s)
  else
    let s := s.modCtrl ctrl fun k => { k with queue := k.queue ++ new }
    match s.nextReq (s.ctrl ctrl) with
    | none => .next (s.modCtrl ctrl fun k => { k with debt := 0 })
    | some r =>
      let pause := s.pauses (s.ctrl ctrl) r
      let s := if s.hk.step = 0 then s else s.tick
      if pause then .next (s.modCtrl ctrl fun k => { k with held := k.held ++ [r.id] })
      else
        let s := s.modCtrl ctrl fun k => { k with
          queue := k.queue.filter (fun x => x.id != r.id), aged := k.aged.filter (· != r.id)
          held := k.held.filter (· != r.id), lastPort := r.port.val }
        .next (s.serveReq ctrl r)

/-- A request that has waited AGE_US rises to level 7 (R389). -/
def execRequestAgeRaise (ctrl : Fin 256) (req : Nat) (s : State) : Host.Outcome State Fault Refusal :=
  if (s.ctrl ctrl).queue.any (fun r => r.id == req) && !(s.ctrl ctrl).aged.contains req then
    .next (s.modCtrl ctrl fun k => { k with aged := k.aged ++ [req] })
  else .next s

/-! ## Refresh (R391 to R393) -/

/-- The postponement limit in force (R391, R392). -/
def State.postponeLimit (s : State) (c : MemCtrl) : Nat :=
  let m := s.regBits .memRef 0 15 12
  if c.double then min 4 m else m

/-- A refresh falls due: it is postponed while a request of POSTPONE_LEVEL or higher waits and the debt is below
the limit, and issued at once otherwise; with no request waiting the debt is paid too (R391). A request held by a throttle
pause does not count as waiting for the postponement (R390). -/
def execRefreshDue (ctrl : Fin 256) (s : State) : Host.Outcome State Fault Refusal :=
  let c := s.ctrl ctrl
  if c.st ≠ 1 then .next s
  else
    let urgent := c.queue.any fun r => !c.held.contains r.id && decide (s.reqLevel c r ≥ s.regBits .memRef 0 30 28)
    if urgent && decide (c.debt < s.postponeLimit c) then .next (s.modCtrl ctrl fun k => { k with debt := k.debt + 1 })
    else if urgent then .next (s.bump .memCnt 7)
    else if c.queue.isEmpty then .next (s.modCtrl ctrl fun k => { k with debt := 0 })
    else .next s

/-- The controllers of a stack. -/
def stackCtrls (stack : Nat) : List Nat := (List.range 32).map fun i => stack * 32 + i

/-- A stack as power-on leaves it. -/
def MemStack.init : MemStack := ⟨0, 0, 0, 0, false⟩

/-- A memory stack. -/
def State.stack (s : State) (n : Nat) : MemStack := s.mem.memStacks.lookD n MemStack.init

/-- Changes a memory stack. -/
def State.modStack (s : State) (n : Nat) (f : MemStack → MemStack) : State :=
  s.modMem fun m => { m with memStacks := m.memStacks.upd n MemStack.init f }

/-- Doubled refresh begins on a stack: each controller's debt is doubled and paid in one burst (R392). -/
def State.doubleRefresh (s : State) (n : Nat) : State :=
  if (s.stack n).double then s
  else
    let s := s.modStack n fun x => { x with double := true }
    (stackCtrls n).foldl (fun s c =>
      if (s.ctrl c).st ≠ 1 then s
      else
        let s := if (s.ctrl c).debt = 0 then s else s.bump .memCnt 8
        s.modCtrl c fun k => { k with double := true, debt := 0 }) s

/-- Normal refresh returns on a stack: each debt is halved, rounded up (R393). -/
def State.normalRefresh (s : State) (n : Nat) : State :=
  if !(s.stack n).double then s
  else
    let s := s.modStack n fun x => { x with double := false }
    (stackCtrls n).foldl (fun s c =>
      if (s.ctrl c).st ≠ 1 then s else s.modCtrl c fun k => { k with double := false, debt := (k.debt + 1) / 2 }) s

/-- A merge-buffer entry reaches its age limit (R401). -/
def execMergeEntryRetire (ctrl : Fin 256) (block : Nat) (s : State) : Host.Outcome State Fault Refusal :=
  match (s.ctrl ctrl).merge.find? fun e => e.block == block with
  | some e => .next (s.retireMerge ctrl e)
  | none => .next s

/-! ## Failures (R404, R405) -/

/-- A pseudo-channel fails: it is fenced, and its pending requests are issued again under R405. -/
def State.fencePc (s : State) (c cause : Nat) : State :=
  let q := (s.ctrl c).queue
  let s := s.modCtrl c fun k => { k with st := 2, cause := cause, queue := [], aged := [], held := [], merge := [] }
  q.foldl (fun s r => s.serveReq c r) s

/-- A command whose payload lay on the lost stack reads it again from host memory (02 R66; 03 R88). -/
def State.refetchLost (s : State) (tag : Nat) : State :=
  match s.cmd? tag with
  | some c => if s.choice 2 = 1 then s.tick.refetch c else s.tick
  | none => s

/-- A peer's shard that lay on the lost stack is asked for again: its copy is dropped, and SHARD_DURABLE with a failing STATUS
makes its sender send it again (02 R66; 12 R429, R430; log entry 161). -/
def State.askAgain (s : State) (key : List Byte) : State :=
  match s.shard? key with
  | some x => if s.choice 2 = 1 then s.tick.refuseShard x Status.writeFailed.code else s.tick
  | none => s

/-- What a lost stack held in staging and in the context store: payloads of commands that have not completed are read again,
a peer's shards not yet durable are asked for again, and contexts have one copy fewer (02 R66; 04 R139). Which payloads and
shards lay on the stack is a free choice (log entry 161). -/
def State.restage (s : State) (n : Nat) : State :=
  let s : State := { s with ctxs := s.ctxs.map fun c => { c with copies := c.copies.filter (· != n) } }
  let held := s.cmds.filter fun c => c.started && c.want == .nothing && c.payload.any (fun b => !b.isEmpty)
  let s := (held.map Cmd.tag).foldl State.refetchLost s
  let shards := s.firon.shards.filter fun x => !x.durable && x.after == .tellOrigin
  (shards.map Shard.key).foldl State.askAgain s

/-- A stack is lost: all its pseudo-channels fail, and STACK_LOST stands for those that had not (R404); what was staged there
is fetched again (02 R66). -/
def State.loseStack (s : State) (n : Nat) : State :=
  if (s.stack n).st = 2 then s
  else
    let s := s.modStack n fun x => { x with st := 2 }
    let s := (stackCtrls n).foldl (fun s c => if (s.ctrl c).st = 2 then s else s.fencePc c 0) s
    ((s.record 0x0404 n []).restage n).settle

/-- A pseudo-channel fails on its own (R404). Whether the four failures of a stack fell within 10 ms is a free
choice: the model has no clock. -/
def State.failPc (s : State) (c cause : Nat) : State :=
  if (s.ctrl c).st ≠ 1 then s
  else
    let s := (s.fencePc c cause).record 0x0403 c (leBytes 1 cause)
    let failed := ((stackCtrls (c / 32)).filter fun x => (s.ctrl x).st == 2).length
    if failed ≥ 4 ∧ s.choice 2 = 1 then s.tick.loseStack (c / 32)
    else s.tick.settle

/-- An uncorrectable block is found: 32 of them within 1 ms fail the pseudo-channel (R404). Whether they fell
within 1 ms is a free choice. -/
def State.countUncorrectable (s : State) (c : Nat) : State :=
  let s := s.modCtrl c fun k => { k with uncorrectable := k.uncorrectable + 1 }
  if (s.ctrl c).uncorrectable ≥ 32 ∧ s.choice 2 = 1 then s.tick.failPc c 3 else s.tick

/-- A scrub read of a block, by stack × 2^35 + stack address div 32 (R399). -/
def execMemoryScrub (block : Nat) (s : State) : Host.Outcome State Fault Refusal :=
  let stack := block / 2 ^ 35
  let sa := block % 2 ^ 35 * 32
  let c := ctrlOf stack sa
  if stack ≥ 8 ∨ sa ≥ 36 * 2 ^ 30 ∨ (s.ctrl c).st ≠ 1 then .next s
  else
    let s := s.flushMerge stack sa
    let region := s.regionOf stack sa
    let d := s.mem.data block
    let corrected (s : State) (row : Nat) : State :=
      s.record 0x0401 stack (leBytes 5 sa ++ [Config.eccClassCode row])
    match s.mem.cls block with
    | .clean => .next s
    | .dataBit b => .next (corrected ((s.modMem fun m => m.store block (flipBit d b) 0).bump .memCnt 0) 1)
    | .checkBit => .next (corrected ((s.modMem fun m => m.store block d 0).bump .memCnt 1) 2)
    | cls =>
      if region = 0 ∨ region = 3 then
        .next ((s.readBlock stack sa true).2.2.countUncorrectable c)
      else if cls = .uncorrectable then
        let s := (s.bump .memCnt 2).record 0x0402 stack (leBytes 5 sa ++ leBytes 1 region)
        .next (((s.modMem fun m => m.store block d (BitVec.allOnes 32)).bump .memCnt 3).countUncorrectable c)
      else .next s

/-- A read returns no data within 1 µs (R404). -/
def execMemoryReadTimeout (ctrl : Fin 256) (s : State) : Host.Outcome State Fault Refusal := .next (s.failPc ctrl 2)

/-- A command/address parity error: retried, and the pseudo-channel fails when it persists through three retries
(R404). -/
def execCaParityError (ctrl : Fin 256) (persists : Bool) (s : State) : Host.Outcome State Fault Refusal :=
  .next (if persists then s.failPc ctrl 1 else s)

/-! ## Delays and page retirement (R386, R407, R408) -/

/-- The stack's controllers take their shadow delays (R386); a band out of range is recorded. -/
def State.applyDelays (s : State) (port : Port) (stack band : Nat) : State :=
  if band > 4 then s.rejectSetting port ((regDef .memStackCtrl).offset stack) (1 + 16 * band)
  else
    let s := (stackCtrls stack).foldl (fun s c => s.setReg .memDlyAct c (s.reg .memDly c)) s
    s.modStack stack fun x => { x with band := band }

/-- A write of MEM_STACK_CTRL.APPLY (R386). -/
def execDelayApply (port : Port) (stack : Fin 8) (band : Nat) (s : State) : Host.Outcome State Fault Refusal :=
  .next (if s.mmio port then (s.mgmtAccess port).applyDelays port stack band else s)

/-- A remap entry of a stack. -/
def State.remapEntry (s : State) (stack i : Nat) : Remap := s.mem.remap.lookD (stack * 4096 + i) ⟨0, 0, 0⟩

/-- The remap entries of a stack that are not free. -/
def State.remapUsed (s : State) (stack : Nat) : List (Nat × Remap) :=
  s.mem.remap.filter fun e => e.1 / 4096 == stack && e.2.st != 0

/-- A write of STATE 1 to a remap entry (R407): it acts on a free entry, with an old page of the regions and a
spare page no other entry names. Every other write is recorded; so is a page that finds all entries active
(R408). -/
def State.retirePage (s : State) (port : Port) (stack idx old new : Nat) : State :=
  let used := s.remapUsed stack
  let ok := (s.remapEntry stack idx).st == 0 && decide (old ≤ 8790527) && decide (8790528 ≤ new) &&
    decide (new ≤ 9437183) && !(used.any fun e => e.2.new == new)
  if ok then s.modMem fun m => { m with remap := m.remap.put (stack * 4096 + idx) ⟨1, old, new⟩ }
  else
    let s := s.rejectSetting port ((regDef .memRemap).base + 0x8000 * stack + 8 * idx) (1 + 256 * old)
    if used.length = 4096 ∧ used.all (fun e => e.2.st == 2) then s.record 0x0407 stack (leBytes 4 old) else s

/-- A write of STATE 1 to MEM_REMAP (R407). -/
def execPageRetireStart (port : Port) (stack : Fin 8) (idx old new : Nat) (s : State) :
    Host.Outcome State Fault Refusal :=
  .next (if s.mmio port && decide (idx < 4096) then (s.mgmtAccess port).retirePage port stack idx old new else s)

/-- Copies one block of a page, rebuilding metadata that cannot be read and carrying poison across (R397, R407). -/
def State.copyBlock (s : State) (stack old new i : Nat) : State :=
  let r := (s.flushMerge stack (old * 4096 + 32 * i)).readBlock stack (old * 4096 + 32 * i) false
  r.2.2.modMem fun m =>
    m.store (stack * 2 ^ 35 + (new * 4096 + 32 * i) / 32) r.1 (if r.2.1 then BitVec.allOnes 32 else 0)

/-- An entry of the retired page list (13 R443). -/
def retiredEntry (stack old new : Nat) : List Byte :=
  let b := leBytes 1 stack ++ leBytes 3 old ++ leBytes 3 new
  b ++ leBytes 1 (crc32c b).toNat

/-- A page copy ends: the entry becomes active, and the list of retired pages in the boot flash takes it (R407,
R408). -/
def execPageCopyDone (stack : Fin 8) (idx : Nat) (s : State) : Host.Outcome State Fault Refusal :=
  let e := s.remapEntry stack idx
  if e.st ≠ 1 then .next s
  else
    let s := (List.range 128).foldl (fun s i => s.copyBlock stack e.old e.new i) s
    let s := s.modMem fun m => { m with remap := m.remap.put (stack * 4096 + idx) ⟨2, e.old, e.new⟩ }
    let s := s.emit (.spiWrite (0x180000 + 8 * s.boot.retired.length) (retiredEntry stack e.old e.new))
    let s := { s with boot := { s.boot with retired := s.boot.retired ++ [(stack.val, e.old, e.new)] } }
    .next ((s.bump .memCnt 9).record 0x0406 stack (leBytes 4 e.old ++ leBytes 4 e.new))

end Sys2Proof.Machine
end

