-- ==== Sys2Proof/Machine/StartOps.lean ====
section
/-! DEFINITION. Device reset, Starter, Discovery and Rebuild (13 R450 to R452, R461; 10 R372; 14 R483). -/
namespace Sys2Proof.Machine

/-! ## What a device reset leaves -/

/-- The programs that the reset interrupts: one that had been issued to its die either left its sectors or did not, which
is a free choice (10 R355, R375). -/
def State.layInterrupted (s : State) : State :=
  let runs := s.flash.rows.flatMap fun r => (r.progs.filter fun p => p.2 == .outstanding && r.repair.isNone &&
    s.runs (.program r.id (Fin.ofNat 24 p.1))).map fun p => (r, p.1)
  runs.foldl (fun s e => (if s.choice 2 == 0 then s.layMember e.1 e.2 else s).tick) s

/-- A group of a metadata or shard row that rebuild finds complete on flash (10 R371, R372): its records count. -/
def State.foundGroup (s : State) (g : Group) (first : Nat) : State :=
  match g.owner with
  | .commits _ => s.groupDurable g first
  | .extents _ _ _ _ _ => s.groupDurable g first
  | .record _ => s.groupDurable g first
  | .shard key => (s.modShard key fun y => { y with durable := true, sectors := (List.range g.sectors.length).map fun i => first + i }).modFiron
      fun f => { f with pendingShards := f.pendingShards.filter (· != key) }
  | .metadata _ => match g.sectors.head? with
    | some e => s.modKeys fun k => { k with fingerprints := k.fingerprints.put (fieldLe e.2 0 2) (sliceB e.2 2 8) }
    | none => s
  | _ => s

/-- What interrupted rows left on flash: every group all of whose sectors are there counts as if its row had become
durable (02 R65; 04 R140). -/
def State.settleRows (s : State) : State :=
  let rows := s.flash.rows.filter fun r => r.issued && r.repair.isNone
  let s := s.layInterrupted
  rows.foldl (fun s r => r.placed.foldl (fun s p =>
    let all := (List.range p.2.sectors.length).all fun i => (s.sector? (r.base + p.1 + i)).isSome
    if all && s.awaited p.2 then s.foundGroup p.2 (r.base + p.1)
    else match p.2.owner with
      | .metadata _ => if all then s.foundGroup p.2 (r.base + p.1) else s
      | _ => s) s) s

/-- A card at a device reset: its power is off and it is identified anew; what its tables record stays. -/
def Card.held (c : Card) : Card :=
  { Card.init with
    present := c.present, known := c.known, factoryBad := c.factoryBad, grownBad := c.grownBad
    programs := c.programs, erases := c.erases, uncorrectable := c.uncorrectable }

/-- The flash at a device reset: open rows and operations end, and the data sequence counter is lost; a set whose erase had begun keeps no sector, since every
copy from it was durable (10 R366, R375). -/
def State.heldFlash (s : State) : Flash :=
  let f := s.flash
  let erasing := (f.sets.filter fun x => x.victim && x.members.any fun m => m.erase != 0).map StripeSet.no
  { f with
    cards := f.cards.mapVal fun _ c => c.held
    dies := (List.filter (fun (e : Nat × Die) => e.2.failed) f.dies).map fun e => (e.1, { Die.init with failed := true })
    chanRetry := [], rows := [], reads := [], ops := [], stalled := []
    sectors := f.sectors.filter fun x => !erasing.contains x.set
    sets := f.sets.map fun x => { x with members := x.members.map fun m => { m with erase := 0, repair := false } }
    seq := 0, usable := 0, roWear := false, fullScan := false }

/-- A tenant at a device reset (04 R129; 05 R165): Disabled, with its containers. -/
def Tenant.held (t : Tenant) : Tenant := { Tenant.init with spaces := t.spaces, nss := t.nss }

/-- Commits whose records are durable take effect, in version order (02 R49, R65); nothing is posted. -/
def State.settleCommits (s : State) : State :=
  let s := ({ s with cmds := [], qps := [], jobs := [], held := [] } : State).settleRows
  let l := sortBy (fun c : Commit => c.ver.version) (s.commits.filter fun c => decide (c.phase = .durable))
  l.foldl State.commitVisible s

/-- MGMT_ALERT_N is low while WARN, TRIP or a rail alarm holds (15 R501). -/
def State.alertLow (s : State) : Bool := s.hk.warn || s.hk.trip || s.hk.rails.any fun r => r.2.alarm

/-- Only the objects' latest versions stay: no context pins another. -/
def State.deviceReset (s0 : State) : State :=
  let cards := (List.range 24).foldl (fun s n => s.cardPower n false) s0
  let s := (cards.settleCommits)
  let s := ({ s with ctxs := [], commits := [] } : State).pruneVersions
  let m := s0.modes
  let r := State.reset
  let live := s.versions.map fun v => s.keyOf v
  let gone := s.firon.shipped.filter fun x => !live.contains x.1
  { r with
    pending := s0.pending
    modes := { r.modes with
      mode := .standby, last := m.mode, auxOn := m.auxOn, resetN := m.resetN, mainOk := m.mainOk, parked := m.parked
      pwrFailN := m.pwrFailN, rootLock := m.rootLock, rootLost := m.rootLost, rootLol := m.rootLol, lolCount := m.lolCount
      cause := m.cause, nextCause := m.nextCause, starts := m.starts }
    boot := { (match s0.boot.ops with
      | [] => s0.boot
      | o :: _ => s0.boot.torn o) with ops := [] }
    cfg := { r.cfg with svnFused := s0.cfg.svnFused, revoked := s0.cfg.revoked }
    evr := { r.evr with next := s0.evr.next, circ := s0.evr.circ, durableRun := s0.evr.durableRun, perm := s0.evr.perm }
    bifHigh := s0.bifHigh
    mgmtSel := s0.mgmtSel
    hostA := { r.hostA with perst := s0.hostA.perst }
    hostB := { r.hostB with perst := s0.hostB.perst }
    tenants := s.tenants.mapVal fun _ t => t.held
    nextTag := s0.nextTag
    slotAllocs := s0.slotAllocs
    versions := s.versions
    nextCommit := s0.nextCommit
    records := s.records.filter Record.durable
    flash := s.heldFlash
    keys := { r.keys with fingerprints := s.keys.fingerprints }
    firon := { r.firon with
      shards := (s.firon.shards.filter Shard.durable).map fun x => { x with after := .nothing }
      shipped := s0.firon.shipped.filter fun x => live.contains x.1
      pendingShards := s.firon.pendingShards.filter fun x => live.contains (x.take 28)
      overrides := s0.firon.overrides, releases := s.firon.releases ++ (gone.flatMap fun x => s.releasesOf x.1 x.2), nextGather := s0.firon.nextGather }
    eid := s0.eid
    dynAddr := s0.dynAddr
    tx := s.tx ++ (if s0.hk.trip then [Tx.pin "THERMTRIP_N" 0 true] else []) ++
      if s0.alertLow then [Tx.pin "MGMT_ALERT_N" 0 true] else []
    fresh := s.fresh + 1 }

/-! ## Starter (M2) -/

/-- The numbering of records at a start (14 R483): the next number opens the run after the highest durable one; the
numbers skipped are recorded. -/
def State.recoverEvents (s : State) : State :=
  let run := s.evr.durableRun
  let newest := s.evr.circ.foldl (fun m r => max m r.number) 0
  let first := max (newest + 1) ((run - 1) * 4096 + 1)
  let s := { s with evr := { s.evr with next := run * 4096 + 1, nonce := s.free } }.tick
  if run ≠ 0 ∧ first ≤ run * 4096 then s.record 0x0703 0 (leBytes 6 first ++ leBytes 2 (run * 4096 - first + 1)) else s

/-- The park record (13 R461): is it that of the previous start? The seconds powered on resume from it, or from the newest
record on flash where that is higher. The area is erased when fewer than 64 places are free (R443). -/
def State.readPark (s : State) : State :=
  let last := s.boot.parks.getLast?
  let parked := last.any fun p => p.powerCycle == s.boot.powerCycle
  let secs := max ((last.map ParkRecord.poweredOnS).getD 0) (s.evr.circ.foldl (fun m r => max m r.poweredOnS) 0)
  (s.modModes fun m => { m with unclean := !parked }).modBoot fun b => { b with
    powerCycle := b.powerCycle + 1, poweredOnS := secs, parks := if b.parks.length > 1024 - 64 then [] else b.parks }

/-- The firmware image of a slot: what the slot holds is checked (R445). A slot that has not been written since
manufacture holds an image the spec does not give: whether it passes, and its fields, are free. -/
def State.slotImage (s : State) (n : Nat) : Option FwInfo :=
  match s.boot.slot n with
  | some b => (s.fwCheck b).toOption
  | none => if s.choice 2 = 0 then
      some ⟨s.free.toNat + 1, s.cfg.svnFused + s.free.toNat % (64 - s.cfg.svnFused), s.free.toNat % 4, s.free.toNat % 4096 / 4 * 4⟩
    else none

/-- Starter halts (R452). -/
def State.halt (s : State) (code : Nat) : State := s.modModes fun m => { m with halt := true, haltCode := code }

/-- Step 4 of R450: the image of the slot the boot selector names, or else the other one; none where both fail. -/
def State.bootFirmware (s : State) : State :=
  let n := min s.boot.named 1
  let use (slot : Nat) (i : FwInfo) (s : State) : State := s.modCfg fun x => { x with fwSlot := slot, fwActive := i }
  match s.slotImage n with
  | some i => use n i s
  | none => match s.slotImage (1 - n) with
    | some i => (use (1 - n) i (s.modModes fun m => { m with fwFallback := true })).record 0x010A (1 - n) []
    | none => s.halt 2

/-- The key record is unwrapped into D0 to D2 (08 R289; 13 R443). A key whose unwrap fails leaves its slot empty. -/
def State.loadKeys (s : State) : State :=
  match s.boot.keyRec with
  | none => s.record 0x010D 0 [0]
  | some r =>
    let keys := r.keys.map fun e => (e.1, unwrapDevice e.2)
    let s := s.modKeys fun k => { k with device := keys.filterMap fun e => e.2.map fun x => (e.1, x) }
    if keys.any fun e => e.2.isNone then s.record 0x010D 0 [1] else s

/-- One copy of the configuration: a copy that holds nothing reads as erased flash and fails its header check. -/
def readCopy (b : Option (List Byte)) : Except ImageFail CfgImage :=
  match b with
  | some x => cfgCheck x
  | none => .error .header

/-- The configuration is loaded (R448). -/
def State.loadCfg (s : State) : State :=
  match readCopy s.boot.cfgA with
  | .ok i => s.modCfg fun x => { x with source := 0, failA := 0, image := i }
  | .error a =>
    let s := (s.modCfg fun x => { x with failA := a.code }).record 0x0108 0 (leBytes 1 a.code)
    match readCopy s.boot.cfgB with
    | .ok i => (s.modModes fun m => { m with cfgCopyB := true }).modCfg fun x => { x with source := 1, image := i }
    | .error b =>
      let s := (s.modCfg fun x => { x with failB := b.code }).record 0x0108 1 (leBytes 1 b.code)
      ((s.modModes fun m => { m with cfgDefaulted := true }).modCfg fun x => { x with source := 2, image := CfgImage.reset }).record
        0x0109 0 []

/-- Steps 1 to 5 of R450 from the release of the device reset. A start for which the row reports no findings takes them
from `rep`. -/
def State.starter (s : State) (rep : StarterReport) (cause : Nat) : State :=
  let s := s.modModes fun m => { m with
    mode := .starter, last := .starter, cause := cause, starts := min (m.starts + 1) 255, nextCause := 0, parked := false
    rootLock := true }
  let s := (s.modFlash fun f => { f with nonce := s.free }).tick
  let s := s.modCfg fun x => { x with
    svnFused := max x.svnFused (Config.fusedSvn % 64), revoked := x.revoked ||| BitVec.ofNat 4 (Config.fusedSvn / 64) }
  let s := s.readPark.recoverEvents
  let s := if cause = 2 then s.record 0x0105 0 (leBytes 1 s.modes.lolCount) else s
  if !rep.fuseOk then s.halt 4
  else
    let s := s.modKeys fun k => { k with d3Loaded := true }
    if !rep.selfTestOk then s.halt 3
    else if !rep.sfdpOk then s.halt 1
    else
      let s := s.bootFirmware.tick
      if s.modes.halt then s else s.loadKeys.loadCfg

/-- Starter's findings where the row gives none: free, with the straps as sampled before. -/
def State.freeReport (s : State) : StarterReport :=
  let k := s.choice 4
  ⟨s.bifHigh, s.mgmtSel, k != 1, k != 2, k != 3⟩

/-- A start that no pin of the row reports on: after a loss of lock, a power failure, or a fault. -/
def State.restart (s : State) (cause : Nat) : State := (s.tick).starter s.freeReport cause

/-! ## Discovery (M3) -/

/-- The CRC of a stack and band of the fuse table (11 R385). -/
def bandCrc (k : Nat) : BitVec 32 := crc32c ((List.range 32).flatMap fun p => leBytes 4 (Config.memFuse (k * 32 + p)).toNat)

/-- Does the CRC of a stack's band pass? -/
def bandOk (stack t : Nat) : Bool := Config.memFuseBad (stack * 5 + t) == 0

/-- A word of MEM_FUSE. -/
def fuseWord (i : Nat) : Word :=
  if i < 1280 then Config.memFuse i else bandCrc (i - 1280) ^^^ Config.memFuseBad (i - 1280)

/-- The nearest band of a stack whose CRC passes, the lower one on a tie (11 R387). -/
def nearestBand (stack t : Nat) : Option Nat :=
  leastBy ((List.range 5).filter (bandOk stack)) fun b => if b ≤ t then 2 * (t - b) else 2 * (b - t) + 1

/-- The firmware writes the delays of a band and applies them (11 R386); a band whose CRC fails is recorded, and another
one stands in for it (R387). -/
def State.writeDelays (s : State) (stack t b : Nat) : State :=
  let s := (List.range 32).foldl (fun s p =>
    let w := (Config.memFuse ((stack * 5 + b) * 32 + p)).setWidth 64 &&& (regDef .memDly).maskOf fun _ => true
    (s.setReg .memDly (stack * 32 + p) w).setReg .memDlyAct (stack * 32 + p) w) s
  let s := s.modStack stack fun x => { x with band := b, tband := t }
  if b = t then s else s.record 0x0405 stack (leBytes 1 t)

/-- A stack is brought up at Discovery: its delays are those of its band, which housekeeping has not read yet: a free
choice (11 R385 to R387). A stack no band of which passes is lost. -/
def State.bringUpStack (s : State) (stack : Nat) : State :=
  let t := s.choice 5
  let s := s.tick
  let s := s.modStack stack fun x => { x with st := 1, tband := t }
  let s := (stackCtrls stack).foldl (fun s c => s.modCtrl c fun k => { k with st := 1 }) s
  match nearestBand stack t with
  | none => (s.record 0x0405 stack (leBytes 1 t)).loseStack stack
  | some b => s.writeDelays stack t b

/-- The retired pages of the boot flash go into MEM_REMAP (11 R408). -/
def State.loadRetired (s : State) : State :=
  s.boot.retired.foldl (fun s (e : Nat × Nat × Nat) =>
    let i := (s.remapUsed e.1).length
    s.modMem fun m => { m with remap := m.remap.put (e.1 * 4096 + i) ⟨2, e.2.1, e.2.2⟩ }) s

/-- The units of the dies come into service. -/
def State.bringUpUnits (s : State) : State :=
  let s := (List.range 1024).foldl (fun s c => s.modCrumb c fun k => { k with st := .idle }) s
  let s := (List.range 64).foldl (fun s p => s.modRoller p fun k => { k with stC := .idle, stD := .idle }) s
  let s := (List.range 4).foldl (fun s e =>
    { s with digests := { s.digests with engines := s.digests.engines.put e ⟨1, 0⟩ } }) s
  s.enterFirmware

/-- Steps 6 to 8 of R450. -/
def State.beginDiscovery (s : State) (ms : Nat) : State :=
  let s := s.modModes fun m => { m with timeMs := m.timeMs.put 0 ms }
  let s := (s.cfg.image.base.foldl State.applyBase s).changeMode .discovery
  let s := ((List.range 8).foldl State.bringUpStack s.bringUpUnits).loadRetired
  (List.range 24).foldl (fun s n => if (s.card n).present then s.identify n else s) s

/-! ## Rebuild (M4) -/

/-- What tells the groups of block data apart: tenant, container, atomic unit, DATA_SEQ, COPY and stripe set (10 R371). -/
def Sector.groupKey (x : Sector) : List Nat :=
  [x.header.tenant, x.header.container, x.header.logicalLo / 64, x.header.seq, b2n x.header.copy, x.set]

/-- The map entries that a sector of a group gives (10 R347, R349). -/
def Sector.entries (x : Sector) : List (Nat × MapEntry) :=
  let h := x.header
  if h.layout = 0 then if h.cont = 0 then [(h.logicalLo, ⟨x.id, 0, 3, h.seq⟩)] else []
  else
    let starts := (List.range 4).filter fun i => h.layout / 4 ^ i % 4 != 0
    (List.range starts.length).map fun k =>
      let i := starts.getD k 0
      (h.logicalLo + k, ⟨x.id, i, h.layout / 4 ^ i % 4 - 1, h.seq⟩)

/-- Is a group complete: all its UNIT_INDEX values are present (10 R371)? -/
def groupComplete (g : List Sector) : Bool :=
  match g.head? with
  | none => false
  | some x => (List.range x.header.unitSectors).all fun i => g.any fun y => y.header.unitIndex == i

/-- The map entries of every complete group of decodable sectors, with their tenant and namespace (10 R372); nothing of a
write that ended with WRITE_FAILED counts (log 72). -/
def State.foundEntries (s : State) : List (Nat × Nat × Nat × MapEntry) :=
  let xs := s.flash.sectors.filter fun x => x.header.kind == 1 && s.recoverable x && !s.flash.void.contains x.header.seq
  let keys := (xs.map Sector.groupKey).eraseDups
  keys.flatMap fun k =>
    let g := xs.filter fun x => x.groupKey == k
    if groupComplete g then g.flatMap fun x => x.entries.map fun e => (x.header.tenant, x.header.container, e.1, e.2) else []

/-- The DATA_SEQ below which a namespace's entries are those of one that was deleted. -/
def State.nsFloor (s : State) (tenant ns : Nat) : Nat :=
  s.records.foldl (fun m r => if r.kind = .nsDelete ∧ r.tenant = tenant ∧ r.container = ns then max m r.seq else m) 0

/-- One namespace's map as flash alone gives it: for each LBA the highest DATA_SEQ of a complete group. -/
def State.rebuiltNs (s : State) (found : List (Nat × Nat × Nat × MapEntry)) (tenant n : Nat) (ns : Namespace) : Namespace :=
  let mine := found.filter fun e => e.1 == tenant && e.2.1 == n && decide (s.nsFloor tenant n < e.2.2.2.seq)
  Namespace.switch { ns with map := [] } (mine.map fun e => (e.2.2.1, e.2.2.2))

/-- The block maps as flash alone gives them (10 R372; 02 R65); trims act through the namespace's trim records. -/
def State.rebuildMaps (s : State) : State :=
  let found := s.foundEntries
  let one (t : Nat) (x : Tenant) : Tenant := { x with nss := x.nss.mapVal fun n ns => s.rebuiltNs found t n ns }
  { s with tenants := s.tenants.mapVal one }

/-- One more than the highest DATA_SEQ that flash carries (10 R373). -/
def State.seqAfter (s : State) : Nat :=
  let a := (s.flash.sectors.filter fun x => x.header.hasSeq && s.recoverable x).foldl (fun m x => max m x.header.seq) 0
  let a := s.flash.roots.foldl (fun m e => max m e.2) a
  let b := s.versions.foldl (fun m v => max m v.seq) a
  s.records.foldl (fun m r => max m r.seq) b + 1

/-- Blocks open at the power loss are copied and marked for erase, and erases left open go on (10 R372). -/
def State.reclaimOpen (s : State) : State :=
  let s := s.modFlash fun f => { f with sets := f.sets.map fun x => { x with closed := true, victim := x.victim || !x.summary } }
  ((s.flash.sets.filter StripeSet.victim).map StripeSet.no).foldl State.placeCopies s

/-- Rebuild: the counter, the maps, and the blocks to reclaim. The full scan is needed where no card in service holds a root
record that decodes, which is a free choice for one that is there (R363, R374). -/
def State.rebuild (s : State) (ms : Nat) : State :=
  let scan := !(s.inService.any fun n => s.flash.roots.has n) || s.choice 2 == 1
  let s := s.tick.rebuildMaps
  let s := s.modFlash fun f => { f with
    seq := s.seqAfter, fullScan := scan, health := { f.health with lastRebuildMs := ms } }
  let s := if scan then s.record 0x030C 0 (leBytes 4 (ms / 1000)) else s
  s.writeRoots.reclaimOpen.purge

/-- Does the key record ask for a sanitize (R451)? -/
def State.sanitizeDue (s : State) : Bool := s.boot.keyRec.any KeyRecord.sanitize

/-- The end of Rebuild: step 11 of R450, with START (R461). -/
def State.enterService (s : State) (ms : Nat) : State :=
  let s := s.modModes fun m => { m with timeMs := m.timeMs.put 2 ms, running := true }
  let t (k : Nat) : List Byte := leBytes 2 (min (s.modes.timeMs.lookD k 0) 65535)
  let s := s.record 0x0107 0 (leBytes 1 (b2n !s.modes.unclean) ++ t 0 ++ t 1 ++ t 2)
  s.settle.applyGroup

end Sys2Proof.Machine
end

