-- ==== Sys2Proof/Machine/TenantCmds.lean ====
section
/-! DEFINITION. FN_CONTROL, containers, the dirty-page log, and the events of the host ports (04 R125 to R150;
03 R105 to R107, R117; 15 R495, R503, R504). -/
namespace Sys2Proof.Machine

/-! ## FN_CONTROL (R130, R131) -/

/-- An FN_CONTROL of an OP, ready to run, and its tenant: it waits while another of the same tenant waits for a drain or
a reset (R131). ENABLE, DISABLE and RESTART change the tenant's Sieve region: they wait while a private bank is held (09
R329). -/
def State.fnCmd (s : State) (tag op : Nat) : Option (Cmd × Nat) :=
  match s.ready tag 0xF0 with
  | none => none
  | some c =>
    let n := c.pkt.fld 24 2
    let t := s.tenant n
    if c.pkt.fld 26 1 = op ∧ t.stopWait = none ∧ t.resetWait = none ∧ (op = 3 ∨ op = 5 ∨ !s.anyHeld s.privBanks) then some (c, n) else none

/-- Applies the shadow settings for a command (R134). -/
def State.settle? (s : State) (c : Cmd) (n : Nat) : State :=
  match s.applySettings n with
  | (some s, _) => (((s.complete c .ok 0 0 0).release .a n).release .b n).sweepCommitted
  | (none, s) => s.fail c .invalidField

/-- FN_CONTROL ENABLE. -/
def execFnControlEnable (tag : Nat) (s : State) : Host.Outcome State Fault Refusal :=
  match s.fnCmd tag 1 with
  | none => .next s
  | some (c, n) => if (s.tenant n).state = .disabled then .next (s.settle? c n) else .next (s.complete c .ok 0 0 0)

/-- FN_CONTROL DISABLE: a tenant reset without NOTIFY; the error log is emptied, its numbers go on (03 R92), and the Sieve
region is freed (09 R321). Containers are kept. -/
def execFnControlDisable (tag : Nat) (s : State) : Host.Outcome State Fault Refusal :=
  match s.fnCmd tag 2 with
  | none => .next s
  | some (_, n) =>
    let s := (s.launch tag).tenantReset n false
    .next ((s.modTenant n fun t => { t with
      state := .disabled, errors := [], resetWait := some tag }).dropRegion n)

/-- FN_CONTROL STOP (R132). -/
def execFnControlStop (tag : Nat) (s : State) : Host.Outcome State Fault Refusal :=
  match s.fnCmd tag 3 with
  | none => .next s
  | some (c, n) => match (s.tenant n).state with
    | .disabled => .next (s.fail c .invalidField)
    | .stopped => .next (s.complete c .ok 0 0 0)
    | .running => .next ((s.launch tag).modTenant n fun t => { t with state := .stopped, stopWait := some tag })

/-- FN_CONTROL RESTART (R134). -/
def execFnControlRestart (tag : Nat) (s : State) : Host.Outcome State Fault Refusal :=
  match s.fnCmd tag 4 with
  | none => .next s
  | some (c, n) => if (s.tenant n).state = .stopped then .next (s.settle? c n) else .next (s.fail c .invalidField)

/-- FN_CONTROL RESET (03 R105 to R107). -/
def execFnControlReset (tag : Nat) (s : State) : Host.Outcome State Fault Refusal :=
  match s.fnCmd tag 5 with
  | none => .next s
  | some (c, n) =>
    if (s.tenant n).state = .disabled then .next (s.complete c .ok 0 0 0)
    else
      let s := s.launch tag
      let s := if c.pkt.fld 27 1 = 2 then s.tenantReset n (bitOf c.pkt.aux 0) else s.pathReset (portOf (c.pkt.fld 27 1)) n
      .next (s.modTenant n fun t => { t with resetWait := some tag })

/-- The ports that an FN_CONTROL waits for. -/
def Cmd.resetPorts (c : Cmd) : List Port :=
  if c.pkt.fld 26 1 = 5 ∧ c.pkt.fld 27 1 < 2 then [portOf (c.pkt.fld 27 1)] else [.a, .b]

/-- PATH_RESET_COMPLETE (R126): the reset of a function on a port is complete, and an FN_CONTROL that waited for it is
answered. -/
def execPathResetComplete (port : Port) (fn : Nat) (s : State) : Host.Outcome State Fault Refusal :=
  if (s.fp port fn).resetting && !s.resetBusy port fn then
    let s := s.modFp port fn fun p => { p with resetting := false }
    match (s.tenant fn).resetWait with
    | none => .next s
    | some tag => match s.cmd? tag with
      | none => .next (s.modTenant fn fun t => { t with resetWait := none })
      | some c =>
        if c.resetPorts.any fun p => (s.fp p fn).resetting then .next s
        else .next ((s.modTenant fn fun t => { t with resetWait := none }).complete c .ok 0 0 0)
  else .next s

/-- TENANT_STOP_DRAINED (R131): no started command of the tenant is left (03 R513). -/
def execTenantStopDrained (tenant : Nat) (s : State) : Host.Outcome State Fault Refusal :=
  match (s.tenant tenant).stopWait with
  | none => .next s
  | some tag =>
    if s.cmds.any fun c => c.fn == tenant && c.started && c.pkt.opcode != 0x06 then .next s
    else
      let s := s.modTenant tenant fun t => { t with stopWait := none }
      match s.cmd? tag with
      | some c => .next (s.complete c .ok 0 0 0)
      | none => .next s

/-! ## Containers (R142, R144) -/

/-- A container command ready to run: its tenant and container number. -/
def State.boxCmd (s : State) (tag op : Nat) : Option (Cmd × Nat × Nat) :=
  (s.ready tag op).map fun c => (c, c.pkt.fld 24 2, c.pkt.fld 26 1)

/-- Is a delete record of a container on its way? -/
def State.deleting (s : State) (tenant box : Nat) (k : RecordKind) : Bool :=
  s.records.any fun r => r.tenant == tenant && r.container == box && r.kind == k && !r.durable

/-- SPACE_CREATE. A space created again keeps its commit counter (R144). -/
def execSpaceCreate (tag : Nat) (s : State) : Host.Outcome State Fault Refusal :=
  match s.boxCmd tag 0xF1 with
  | none => .next s
  | some (c, n, sp) =>
    if bitOf c.pkt.aux 0 ≠ (s.space? n sp).isSome then .next (s.fail c .invalidField)
    else
      let s := s.modTenant n fun t => { t with
        spaces := t.spaces.upd sp (⟨false, 0, 0, 0, false⟩ : Space) fun x =>
          { x with live := true, byteQuota := c.pkt.fld 32 8, objectQuota := c.pkt.fld 40 8 } }
      .next (s.complete c .ok 0 0 0)

/-- SPACE_DELETE: commits whose records are not durable fail at once; the space goes, and the reply is posted, when the
delete record is durable (R144). -/
def execSpaceDelete (tag : Nat) (s : State) : Host.Outcome State Fault Refusal :=
  match s.boxCmd tag 0xF2 with
  | none => .next s
  | some (c, n, sp) =>
    if (s.space? n sp).isNone || s.deleting n sp .spaceDelete then .next (s.fail c .containerUnknown)
    else
      let s := (s.launch tag).failSpaceCommits n sp
      match s.takeSeq.2.addRecord tag n sp .spaceDelete s.takeSeq.1 with
      | some s => .next s.pumpGroup
      | none => .next ((s.undelete n sp).fail c .writeFailed)

/-- The blocks of every namespace of the device. -/
def State.nsBlocks (s : State) : Nat := s.tenants.foldl (fun a t => t.2.nss.foldl (fun b n => b + n.2.size) a) 0

/-- NS_CREATE: 32 TB in all at most (02 R28). -/
def execNsCreate (tag : Nat) (s : State) : Host.Outcome State Fault Refusal :=
  match s.boxCmd tag 0xF3 with
  | none => .next s
  | some (c, n, ns) =>
    let old := ((s.ns? n ns).map Namespace.size).getD 0
    let size := c.pkt.fld 32 8
    if bitOf c.pkt.aux 0 ≠ (s.ns? n ns).isSome ∨ size < old then .next (s.fail c .invalidField)
    else if s.nsBlocks - old + size > 7812500000 then .next (s.failCheck c .namespaceLimit 9 0xFFFF)
    else
      let s := s.modTenant n fun t => { t with nss := t.nss.upd ns (⟨0, [], []⟩ : Namespace) fun x => { x with size := size } }
      .next (s.complete c .ok 0 0 0)

/-- NS_DELETE: the namespace goes, and the reply is posted, when the delete record is durable. -/
def execNsDelete (tag : Nat) (s : State) : Host.Outcome State Fault Refusal :=
  match s.boxCmd tag 0xF4 with
  | none => .next s
  | some (c, n, ns) =>
    if (s.ns? n ns).isNone || s.deleting n ns .nsDelete then .next (s.fail c .containerUnknown)
    else
      let s := s.launch tag
      match s.takeSeq.2.addRecord tag n ns .nsDelete s.takeSeq.1 with
      | some s => .next s
      | none => .next (s.fail c .writeFailed)

/-! ## Dirty-page log (R147, R150) -/

/-- A DIRTY_LOG of an operation, ready to run, and its tenant. -/
def State.dlogCmd (s : State) (tag op : Nat) : Option (Cmd × Nat) :=
  ((s.ready tag 0xF9).filter fun c => c.pkt.aux == op).map fun c => (c, c.pkt.fld 24 2)

/-- DIRTY_LOG START: the ring starts empty, at index 0; FN_DLOG_HEAD is function 0's to set. -/
def execDirtyLogStart (tag : Nat) (s : State) : Host.Outcome State Fault Refusal :=
  match s.dlogCmd tag 0 with
  | none => .next s
  | some (c, n) =>
    if (s.tenant n).dlog.on then .next (s.fail c .invalidField)
    else
      let s := s.modTenant n fun t => { t with dlog := { t.dlog with
        on := true, port := c.port, base := c.pkt.fld 32 8, log2 := c.pkt.fld 26 1, written := 0, since := 0, dropped := false } }
      .next (s.complete c .ok 0 0 0)

/-- DIRTY_LOG STOP. -/
def execDirtyLogStop (tag : Nat) (s : State) : Host.Outcome State Fault Refusal :=
  match s.dlogCmd tag 1 with
  | none => .next s
  | some (c, n) =>
    if !(s.tenant n).dlog.on then .next (s.fail c .invalidField)
    else .next ((s.modTenant n fun t => { t with dlog := { t.dlog with on := false } }).complete c .ok 0 0 0)

/-- Is an entry of a tenant's dirty log still to be written: does its port hold a write to the ring? -/
def State.dlogHeld (s : State) (d : DirtyLog) : Bool :=
  s.held.any fun h => h.fn == 0 && h.port == d.port && match h.out with
    | .hostWrite _ _ addr _ => decide (d.base ≤ addr) && decide (addr < d.base + 8 * 2 ^ d.log2)
    | _ => false

/-- DIRTY_LOG SYNC: it waits until every host write made so far has its entry: an entry goes out with its write, unless its
own link is down (R150). -/
def execDirtyLogSync (tag : Nat) (s : State) : Host.Outcome State Fault Refusal :=
  match s.dlogCmd tag 2 with
  | none => .next s
  | some (c, n) =>
    let d := (s.tenant n).dlog
    if !d.on then .next (s.fail c .invalidField)
    else if s.dlogHeld d then .next s
    else
      let s := s.modTenant n fun t => { t with dlog := { t.dlog with since := 0, dropped := false } }
      .next (s.complete c .ok d.since 0 (b2n d.dropped))

/-! ## Events of the host ports -/

/-- Does a configuration access reach a function of a port: the link is up and Discovery has ended (13 R450)? -/
def State.cfgReach (s : State) (port : Port) : Bool :=
  (s.hp port).up && match s.modes.mode with
    | .off | .standby | .starter | .discovery => false
    | _ => true

/-- FUNCTION_LEVEL_RESET (04 R125). -/
def execFunctionLevelReset (port : Port) (fn : Nat) (s : State) : Host.Outcome State Fault Refusal :=
  if !s.cfgReach port then .next s
  else if fn = 0 then .next (s.flrMgmt port)
  else if fn ≤ (s.hp port).enabledVfs then .next ((s.pathReset port fn).modFp port fn FnPort.unconfigured)
  else .next s

/-- Sets VF Enable and NumVFs, and sends what a function held that is usable now. -/
def State.changeVfs (s : State) (port : Port) (enable : Bool) (numVfs : Nat) : State :=
  ((s.setVfs port enable numVfs).releasePort port).sweepCommitted

/-- VF_ENABLE_CHANGE (04 R121, R125). -/
def execVfEnableChange (port : Port) (enable : Bool) (numVfs : Nat) (s : State) : Host.Outcome State Fault Refusal :=
  if s.cfgReach port && decide (numVfs ≤ 4096) then .next (s.changeVfs port enable numVfs) else .next s

/-- Sets Memory Space Enable and Bus Master Enable of a function, and sends what it held. -/
def State.changeCommand (s : State) (port : Port) (fn : Nat) (mse bme : Bool) : State :=
  ((s.modFp port fn fun p => { p with mse := mse, bme := bme }).release port fn).sweepCommitted

/-- VF_COMMAND_CHANGE (04 R121): what was held goes out when the function is usable again. -/
def execVfCommandChange (port : Port) (fn : Nat) (mse bme : Bool) (s : State) : Host.Outcome State Fault Refusal :=
  if s.cfgReach port && decide (1 ≤ fn) && decide (fn ≤ 4096) then .next (s.changeCommand port fn mse bme) else .next s

/-- Moves a function between D0 and D3hot, and sends what it held. -/
def State.changePower (s : State) (port : Port) (fn : Nat) (d3 : Bool) : State :=
  ((s.modFp port fn fun p => { p with d3hot := d3 }).release port fn).sweepCommitted

/-- PCIE_POWER_STATE_CHANGE (15 R503). -/
def execPciePowerStateChange (port : Port) (fn : Nat) (d3 : Bool) (s : State) : Host.Outcome State Fault Refusal :=
  if s.cfgReach port && decide (fn ≤ 4096) then .next (s.changePower port fn d3) else .next s

/-! ## PCIe configuration space (R120, R122 to R124; 15 R503) -/

/-- The routing ID of a function: that of function 0 plus its number (R120). -/
def State.routingId (s : State) (port : Port) (fn : Nat) : Nat := (s.hp port).bus * 256 + fn

/-- A 64-bit, non-prefetchable memory BAR of 16 MiB as it reads (R123). -/
def barRead (base : Nat) : Nat := base / 2 ^ 24 * 2 ^ 24 + 4

/-- The address at which a function's BAR0 lies: its own for function 0, its 16 MiB of the VF BAR0 space for the others
(R123). -/
def State.barBase (s : State) (port : Port) (fn : Nat) : Nat :=
  if fn = 0 then (s.fp port 0).pci.bar0 else (s.hp port).vfBar0 + (fn - 1) * 2 ^ 24

/-- What a field of the configuration space of a function reads as. The SR-IOV capability and BAR2 are function 0's. The
table and the pending bits lie in the BAR that holds the function's tenant registers. -/
def State.configRead (s : State) (port : Port) (fn : Nat) (reg : CfgReg) : Nat :=
  let p := s.fp port fn
  let own (v : Nat) : Nat := if fn = 0 then v else 0
  match reg with
  | .vendorId => 0x1E6B
  | .deviceId => if fn = 0 then 0x6410 else 0x6411
  | .classCode => 0x018000
  | .command => 2 * b2n p.mse + 4 * b2n p.bme
  | .bar0 => own (barRead p.pci.bar0)
  | .bar2 => own (barRead p.pci.bar2)
  | .vfBar0 => own (barRead (s.hp port).vfBar0)
  | .powerState => if p.d3hot then 3 else 0
  | .maxPayload => 512
  | .deviceControl2 => p.pci.timeout
  | .msixControl => 63 + 2 ^ 14 * b2n p.pci.msixMask + 2 ^ 15 * b2n p.pci.msixOn
  | .msixTable => 0x100000 + (if fn = 0 then 2 else 0)
  | .msixPba => 0x101000 + (if fn = 0 then 2 else 0)
  | .totalVfs => own 4096
  | .firstVfOffset => own 1
  | .vfStride => own 1
  | .sriovControl => own (b2n (s.hp port).vfEnable)
  | .numVfs => own (s.hp port).numVfs
  | .vfDeviceId => own 0x6411
  | .atsControl => 2 ^ 15 * b2n p.pci.atsOn
  | .linkStatus => own ((s.hp port).speed + 16 * (s.hp port).lanes)

/-- Sends the pending vectors of a function that are open now (R124). -/
def State.openVectors (s : State) (port : Port) (fn : Nat) : State :=
  (List.range 64).foldl (fun s v =>
    if (s.fp port fn).pba.getLsbD v && ((s.fp port fn).vectorOpen v).isSome then
      (s.modFp port fn fun p => { p with pba := p.pba &&& ~~~(1#64 <<< v) }).sendOrHold ⟨fn, port, .msix port fn v 0 0, none⟩
    else s) s

/-- A write of a field of the configuration space of a function. -/
def State.configWrite (s : State) (port : Port) (fn : Nat) (reg : CfgReg) (v : Nat) : State :=
  let pci (f : PciFn → PciFn) : State := s.modFp port fn fun p => { p with pci := f p.pci }
  let base := v % 2 ^ 64 / 2 ^ 24 * 2 ^ 24
  match reg with
  | .command => s.changeCommand port fn (bitOf v 1) (bitOf v 2)
  | .bar0 => if fn = 0 then pci fun x => { x with bar0 := base } else s
  | .bar2 => if fn = 0 then pci fun x => { x with bar2 := base } else s
  | .vfBar0 => if fn = 0 then s.modHp port fun h => { h with vfBar0 := base } else s
  | .powerState => if v % 4 = 3 then s.changePower port fn true else if v % 4 = 0 then s.changePower port fn false else s
  | .deviceControl2 => pci fun x => { x with timeout := v % 16 }
  | .msixControl => (pci fun x => { x with msixMask := bitOf v 14, msixOn := bitOf v 15 }).openVectors port fn
  | .sriovControl => if fn = 0 then s.changeVfs port (bitOf v 0) (s.hp port).numVfs else s
  | .numVfs => if fn = 0 ∧ v ≤ 4096 then s.changeVfs port (s.hp port).vfEnable v else s
  | .atsControl => s.modFp port fn fun p => { p with
      pci := { p.pci with atsOn := bitOf v 15 }, ats := if bitOf v 15 then p.ats else [] }
  | _ => s

/-- Does a configuration request find a function: function 0, whatever the bus number it is reached by, or a virtual function
that is enabled, at the bus number that function 0 has captured (R120)? -/
def State.cfgFinds (s : State) (port : Port) (bus fn : Nat) : Bool :=
  fn == 0 || (bus == (s.hp port).bus && decide (fn ≤ (s.hp port).enabledVfs))

/-- HOT_RESET (04 R125). -/
def execHotReset (port : Port) (s : State) : Host.Outcome State Fault Refusal :=
  if s.awake && (s.hp port).up then .next (s.flrMgmt port).sweepCommitted else .next s

/-- A link leaves L0 (03 R117; 15 HP_LINK, HP_CNT): replies are held from here on. -/
def State.linkDown (s : State) (port : Port) : State :=
  if (s.hp port).up then
    let s := s.modHp port fun h => { h with up := false, speed := 0, lanes := 0, flit := false, downSeen := true }
    (s.hpCount port 5).record 0x0502 (portNum port) []
  else s

/-- PERST_ASSERT (04 R125): the link of a port whose PERST_N is asserted is down. -/
def execPerstAssert (port : Port) (s : State) : Host.Outcome State Fault Refusal :=
  if (s.hp port).perst then .next s
  else
    let s := s.modHp port fun h => { h with perst := true }
    if s.awake then .next ((s.flrMgmt port).linkDown port) else .next s

/-- PERST_RELEASE (15 R495): training may start, and PCIE_LINK_UP ends it. -/
def execPerstRelease (port : Port) (s : State) : Host.Outcome State Fault Refusal :=
  .next (s.modHp port fun h => { h with perst := false })

/-- PCIE_LINK_DOWN (03 R117; 04 R125: no reset). -/
def execPcieLinkDown (port : Port) (s : State) : Host.Outcome State Fault Refusal := .next (s.linkDown port)

/-- May the link of a port train (01 R22; 13 R450, R452; 15 R490, R495)? -/
def State.mayTrain (s : State) (port : Port) (lanes : Nat) : Bool :=
  (s.awake || (s.modes.halt && port == .a)) && !(s.hp port).perst && s.modes.serdesLock.lookD (portNum port) true &&
  decide (1 ≤ lanes) && decide (lanes ≤ if s.bifHigh then 8 else 16)

/-- PCIE_LINK_UP (03 R117): what was held goes out, in order. -/
def execPcieLinkUp (port : Port) (speed lanes : Nat) (flit : Bool) (s : State) : Host.Outcome State Fault Refusal :=
  if s.mayTrain port lanes && decide (1 ≤ speed) && decide (speed ≤ 6) && !(s.hp port).up then
    .next (((s.modHp port fun h => { h with up := true, speed := speed, lanes := lanes, flit := flit }).releasePort port).sweepCommitted)
  else .next s

/-- CONFIGURATION_REQUEST (R120, R122; 13 R450): before Discovery ends it is answered with Request Retry Status. Afterwards
the function's configuration space answers: its routing ID is the request's bus and the function's number from it, and a
write to function 0 tells it its bus number. -/
def execConfigurationRequest (port : Port) (req : CfgRequest) (s : State) : Host.Outcome State Fault Refusal :=
  if !(s.hp port).up then .next s
  else if !s.cfgReach port then .next (s.emit (.retryStatus port req.fn))
  else if !s.cfgFinds port req.bus req.fn then .next (s.emit (.configUnsupported port req.bus req.fn))
  else match req.write with
    | none => .next (s.emit (.configData port req.fn (some (s.configRead port req.fn req.reg))))
    | some v =>
      let s := if req.fn = 0 then s.modHp port fun h => { h with bus := req.bus } else s
      .next ((s.configWrite port req.fn req.reg v).emit (.configData port req.fn none))

/-- ATS_INVALIDATE_REQUEST (04 R124): the translations of the pages in the range go. -/
def execAtsInvalidateRequest (port : Port) (fn addr len : Nat) (s : State) : Host.Outcome State Fault Refusal :=
  if s.cfgReach port && decide (fn ≤ 4096) then
    let hit (page : Nat) : Bool := decide (page * 4096 < addr + len) && decide (addr < page * 4096 + 4096)
    let s := s.modFp port fn fun p => { p with ats := (p.ats.filter fun e => !hit e.1 : List (Nat × Nat)) }
    .next (s.emit (.atsInvalidated port fn))
  else .next s

/-- MALFORMED_TLP (15 R504): a fatal error. -/
def execMalformedTlp (port : Port) (fn : Nat) (overflow : Bool) (s : State) : Host.Outcome State Fault Refusal :=
  if (s.hp port).up && s.awake then
    .next ((s.emit (.aer port fn (if overflow then "Receiver Overflow" else "Malformed TLP"))).hpCount port 1)
  else .next s

/-- FLIT_RETRY (15 R504): a correctable error, reported by function 0. -/
def execFlitRetry (port : Port) (s : State) : Host.Outcome State Fault Refusal :=
  if (s.hp port).up && s.awake then .next ((s.emit (.aer port 0 "FLIT Retry")).hpCount port 0) else .next s

end Sys2Proof.Machine
end

