-- ==== Sys2Proof/Machine/StartCmds.lean ====
section
/-! DEFINITION. Power, reset, start-up and Power-Fail (13 R438, R450 to R461; 15 R492 to R494; 01 R22). -/
namespace Sys2Proof.Machine

/-! ## Power and RESET_N -/

/-- AUX_POWER_ON: Standby. CLK_RESET, ROOT_LOL and LOL_COUNT take their reset values (01; 15). -/
def execAuxPowerOn (s : State) : Host.Outcome State Fault Refusal :=
  if s.modes.auxOn then .next s
  else .next ((s.modModes fun m => { m with
    mode := .standby, auxOn := true, resetN := false, pwrFailN := true, mainOk := false, parked := false
    rootLock := false, rootLost := false, rootLol := false, lolCount := 0, cause := 0, nextCause := 0, starts := 0 }))

/-- AUX_POWER_LOSS: Off. Only what is on flash and in the fuses stays. -/
def execAuxPowerLoss (s : State) : Host.Outcome State Fault Refusal :=
  if !s.modes.auxOn then .next s
  else
    let t := s.deviceReset.modModes fun m => { m with mode := .off, auxOn := false, resetN := false, mainOk := false, parked := false }
    .next { t with eid := 0, dynAddr := none }

/-- May Starter begin: every main rail in range, RESET_N released, the root PLL locked, and no park that awaits R460? -/
def Modes.mayStart (m : Modes) : Bool := m.auxOn && m.resetN && !m.parked && !m.rootLost

/-- RESET_N_RELEASE (15 R489, R494): the straps are sampled, and Starter begins unless the park has not ended or
something else holds the device. -/
def execResetNRelease (report : StarterReport) (s : State) : Host.Outcome State Fault Refusal :=
  if !s.modes.auxOn || s.modes.resetN then .next s
  else
    let s := s.modModes fun m => { m with resetN := true, mainOk := true }
    let s := { s with bifHigh := report.bifPin, mgmtSel := report.mgmtSelPin }
    let held := s.modes.mode != .standby && s.modes.mode != .starter
    .next (if s.modes.mayStart && !held then s.starter report s.modes.nextCause else s)

/-! ## Start-up (13 R450) -/

/-- DISCOVERY_START: the firmware starts at ENTRY. -/
def execDiscoveryStart (ms : Nat) (s : State) : Host.Outcome State Fault Refusal :=
  .next (if s.modes.mode = .starter ∧ s.keys.d3Loaded ∧ !s.modes.halt then s.beginDiscovery ms else s)

/-- The slots whose card is not in service leave the stripe sets degraded. -/
def State.loseAbsent (s : State) : State :=
  let here := s.inService
  s.loseUnits (fun m => !here.contains m.slot) true

/-- DISCOVERY_COMPLETE: every card has been identified; the SIEVE block is loaded, RWL fields lock and Rebuild begins. A
sanitize that was interrupted erases first (R451). -/
def execDiscoveryComplete (ms : Nat) (s : State) : Host.Outcome State Fault Refusal :=
  if s.modes.mode = .discovery ∧ (List.range 24).all (fun n => (s.card n).state != 1) then
    let s := s.modModes fun m => { m with timeMs := m.timeMs.put 1 ms, locked := true }
    let s := (s.applySieve.loseAbsent.takeUsable).changeMode .rebuild
    .next (if s.sanitizeDue then s.sanitizeErase else s)
  else .next s

/-- The key record as a resumed sanitize leaves it: no key and no marker (10 R377). -/
def State.clearMarker (s : State) : State := s.modBoot fun b => b.putKeyRec ⟨0, false, s.keys.record⟩

/-- REBUILD_COMPLETE: the first mode of R439 whose condition holds, with the GROUP block applied; a resumed sanitize ends in
Maintenance. -/
def execRebuildComplete (ms : Nat) (s : State) : Host.Outcome State Fault Refusal :=
  if s.modes.mode ≠ .rebuild then .next s
  else if s.sanitizeDue then
    if s.flash.sets.isEmpty then
      .next ((s.clearMarker.modModes fun m => { m with sanitizeResumed := true, maint := true }).enterService ms)
    else .next s
  else .next ((s.rebuild ms).enterService ms)

/-! ## Power-Fail (13 R458 to R460) -/

/-- May the device enter Power-Fail: it is in M2 to M10? -/
def Modes.canFail (m : Modes) : Bool := m.mode != .off && m.mode != .standby && m.mode != .powerFail

/-- The park record, unless the boot flash is busy (R459). -/
def State.startPark (s : State) : State :=
  if s.boot.ops.isEmpty then
    s.modBoot fun b => { b with ops := [SpiOp.parkRecord ⟨b.powerCycle, (b.poweredOnS + s.free.toNat) % 2 ^ 40⟩] }
  else s

/-- Step 2 of R459: M11 is shown, erases end with Reset LUN, Crumbs stop and their outputs are discarded. Power-Fail ends
Discovery too (R439), so the RWL fields lock (00 R10). -/
def State.enterPowerFail (s : State) (cause : Nat) : State :=
  let s := s.startPark.tick
  let s := (s.modModes fun m => { m with
    powerFail := true, running := false, nextCause := cause, locked := m.locked || m.mode == .discovery }).changeMode .powerFail
  let erases := s.flash.ops.filter fun o => o.run && o.rank == 2
  let s := erases.foldl (fun s o => s.onfi o.die [0xFA]) s
  let s := s.modFlash fun f => { f with
    sets := f.sets.map fun x => { x with members := x.members.map fun m => if m.erase = 1 then { m with erase := 0 } else m }
    ops := f.ops.filter fun o => o.rank != 2 }
  let s := (s.jobs.map Job.slot).foldl State.resetJob s
  { s with crumbs := s.crumbs.mapVal fun _ c => if c.st = .running then { c with st := .idle, run := none, reducing := false, scan := none } else c }

/-- PWR_FAIL_ASSERT. -/
def execPwrFailAssert (s : State) : Host.Outcome State Fault Refusal :=
  if !s.modes.auxOn then .next s
  else
    let s := s.modModes fun m => { m with pwrFailN := false }
    .next (if s.modes.canFail then s.enterPowerFail 3 else s)

/-- RESET_N_ASSERT (15 R494): in M2 to M10 it acts as a power failure; in Power-Fail and Standby it only holds the
device. -/
def execResetNAssert (s : State) : Host.Outcome State Fault Refusal :=
  if !s.modes.resetN then .next s
  else
    let s := s.modModes fun m => { m with resetN := false }
    .next (if s.modes.canFail then s.enterPowerFail 1 else s)

/-- BROWN_OUT (15 R493): a main rail, with PWR_FAIL_N high. -/
def execBrownOut (rail : Fin 12) (s : State) : Host.Outcome State Fault Refusal :=
  .next (if rail ≠ 11 ∧ s.modes.pwrFailN ∧ s.modes.canFail then s.enterPowerFail 3 else s)

/-- Is the boot flash programming the park record? -/
def State.parking (s : State) : Bool :=
  match s.boot.ops with
  | .parkRecord _ :: _ => true
  | _ => false

/-- PARK_RECORD_PROGRAMMED. -/
def execParkRecordProgrammed (s : State) : Host.Outcome State Fault Refusal :=
  match s.boot.ops with
  | .parkRecord r :: rest =>
    let w := s.boot.written (.parkRecord r)
    .next ((s.modBoot fun b => { b with ops := rest, parks := b.parks ++ [r] }).emit (.spiWrite w.1 w.2))
  | _ => .next s

/-- PARK (step 6 of R459): every program issued has ended. A park that a power failure caused ends under R460; one that
RESET_N caused ends at its release. -/
def execPark (aux : Bool) (s : State) : Host.Outcome State Fault Refusal :=
  if s.modes.mode = .powerFail ∧ !s.parking ∧ s.flash.ops.all (fun o => !(o.run && o.rank == 1)) then
    let wait := !s.modes.pwrFailN || s.modes.nextCause == 3
    let t := s.deviceReset
    if aux then
      let t := t.modModes fun m => { m with parked := wait }
      .next (if t.modes.mayStart then t.restart t.modes.nextCause else t)
    else
      let t := t.modModes fun m => { m with mode := .off, auxOn := false, resetN := false, mainOk := false, parked := false }
      .next { t with eid := 0, dynAddr := none }
  else .next s

/-- POWER_RESTART (R460): PWR_FAIL_N has been high for 10 ms after the park and the main rails are in range. -/
def execPowerRestart (s : State) : Host.Outcome State Fault Refusal :=
  if s.modes.mode = .standby ∧ s.modes.parked then
    let s := s.modModes fun m => { m with parked := false, pwrFailN := true, mainOk := true }
    .next (if s.modes.mayStart then s.restart s.modes.nextCause else s)
  else .next s

/-! ## The PLLs (01 R22) -/

/-- ROOT_LOL: the flag and the count are in the auxiliary domain; the rest of the device is held in reset. -/
def execRootLol (s : State) : Host.Outcome State Fault Refusal :=
  if !s.modes.auxOn || s.modes.rootLost || (s.modes.mode == .standby && !s.modes.rootLock) then .next s
  else
    let wasUp := s.modes.mode != .standby
    let pf := s.modes.powerFail && (!s.modes.pwrFailN || s.modes.nextCause == 3)
    let t := if wasUp then s.deviceReset else s
    .next (t.modModes fun m => { m with
      rootLock := false, rootLost := true, rootLol := true, lolCount := min (m.lolCount + 1) 255
      parked := m.parked || pf, nextCause := if wasUp then 2 else m.nextCause })

/-- ROOT_LOCK_REGAINED: the device starts again. -/
def execRootLockRegained (s : State) : Host.Outcome State Fault Refusal :=
  if !s.modes.rootLost then .next s
  else
    let s := s.modModes fun m => { m with rootLock := true, rootLost := false }
    .next (if s.modes.mode = .standby ∧ s.modes.mayStart then s.restart s.modes.nextCause else s)

/-- Do the SerDes PLLs run: training has started (13 R450), or the halted device brings up Port A (13 R452)? -/
def State.serdesRuns (s : State) (pll : Nat) : Bool := s.awake || (s.modes.halt && pll == 0)

/-- SERDES_LOL: only the PLL's port loses its link. -/
def execSerdesLol (pll : Fin 6) (s : State) : Host.Outcome State Fault Refusal :=
  if s.serdesRuns pll && s.modes.serdesLock.lookD pll true then
    let s := s.modModes fun m => { m with serdesLock := m.serdesLock.put pll false, serdesLol := true }
    let s := s.record 0x0106 pll []
    .next (if pll.val < 2 then s.linkDown (portOf pll) else s.ethDown (pll - 2))
  else .next s

/-- SERDES_LOCK_REGAINED: the port's link can train again. -/
def execSerdesLockRegained (pll : Fin 6) (s : State) : Host.Outcome State Fault Refusal :=
  .next (if s.serdesRuns pll then s.modModes fun m => { m with serdesLock := m.serdesLock.put pll true } else s)

end Sys2Proof.Machine
end

