-- ==== Sys2Proof/Machine/HouseCmds.lean ====
section
/-! DEFINITION. Housekeeping, throttling, the faults of units and the event recorder's events (14; 11 R409). -/
namespace Sys2Proof.Machine

/-! ## The housekeeping round (14 R473 to R475) -/

/-- Changes the housekeeping part of the state. -/
def State.modHk (s : State) (f : Housekeeping → Housekeeping) : State := { s with hk := f s.hk }

/-- Drives MGMT_ALERT_N where a change from `s` to `t` asks for it (15 R501). -/
def State.alertPin (s t : State) : State :=
  if s.alertLow = t.alertLow then t else t.emit (.pin "MGMT_ALERT_N" 0 (!t.alertLow))

/-- A sensor that has not been read. -/
def Sensor.init : Sensor := ⟨0, false, 0, false⟩

/-- A junction sensor. -/
def State.sensor (s : State) (i : Nat) : Sensor := s.hk.sensors.lookD i Sensor.init

/-- An 8-bit two's complement number. -/
def signed8 (n : Nat) : Int := if n < 128 then (n : Int) else (n : Int) - 256

/-- The temperature of a count in 0.25 °C (R474): the nearest; which of two equally near ones is the part's choice, and a
calibration with C1 = C2 gives a free value. -/
def junctionTemp (cal : Reg) (count : Int) (free : Int) : Int :=
  let c1 : Int := bitsOf cal.toNat 15 0
  let c2 : Int := bitsOf cal.toNat 31 16
  let t1 := signed8 (bitsOf cal.toNat 39 32)
  let t2 := signed8 (bitsOf cal.toNat 47 40)
  if c1 = c2 then free
  else
    let neg := decide (c2 < c1)
    let den := if neg then c1 - c2 else c2 - c1
    let num := 4 * (t1 * (c2 - c1) + (count - c1) * (t2 - t1)) * if neg then -1 else 1
    let q := num / den
    let r := 2 * (num - q * den)
    if r < den then q else if den < r then q + 1 else if Config.roundUp num then q + 1 else q

/-- The junction sensors of die 0 to 3 (the Batches) and 4 (the I/O die). -/
def dieSensors (d : Nat) : List Nat :=
  if d < 4 then (List.range 10).map fun i => 10 * d + i else (List.range 8).map fun i => 40 + i

/-- What counts toward TJ: the readings of the working sensors, and 100 °C for a die with fewer than two. -/
def State.junctions (s : State) : List (Nat × Int) :=
  (List.range 5).flatMap fun d =>
    let l := dieSensors d
    let up := l.filter fun i => !(s.sensor i).failed
    (if up.length < 2 then [(l.headD 0, (400 : Int))] else []) ++
      (up.filter fun i => (s.sensor i).read).map fun i => (i, (s.sensor i).temp)

/-- TJ is taken again from the readings. -/
def State.takeTj (s : State) : State :=
  match s.junctions with
  | [] => s
  | x :: xs =>
    let top := xs.foldl (fun m y => if m.2 < y.2 then y else m) x
    s.modHk fun h => { h with tj := top.2, tjSensor := top.1 }

/-- A junction sensor is read; one that fails is excluded from then on. -/
def State.readJunction (s : State) (i : Nat) (reading : Option Int) : State :=
  let old := s.sensor i
  let t := reading.map fun c => junctionTemp (Config.hkCal i) c ((s.choice 4096 : Int) - 2048)
  let bad := match t with
    | some t => decide (t < -220) || decide (600 < t)
    | none => true
  let count := match reading with
    | some c => (c % 65536).toNat
    | none => old.count
  let s := s.tick.modHk fun h => { h with sensors := h.sensors.put i ⟨t.getD old.temp, old.failed || bad, count, true⟩ }
  let s := if bad && !old.failed then (s.modHk fun h => { h with evSensor := true }).record 0x0604 i (leBytes 2 count) else s
  s.takeTj

/-- A card's sensor as nothing has read it. -/
def CardTemp.init : CardTemp := ⟨0, false, 0⟩

/-- A reading in 0.25 °C; the spec does not say how a sixteenth is rounded. -/
def quarters (t : Int) : Int := if t % 4 ≠ 0 ∧ Config.roundUp t then t / 4 + 1 else t / 4

/-- Does a card count as at or above its TEMP_WARN (R474, R479)? -/
def State.cardHot (s : State) (n : Nat) : Bool :=
  let t := s.hk.cardTemps.lookD n CardTemp.init
  match (s.card n).info with
  | some i => decide (t.misses ≥ 3) || (t.valid && decide ((16 * i.tempWarn : Nat) ≤ t.temp))
  | none => false

/-- Bytes of a number in two's complement. -/
def leInt (n : Nat) (t : Int) : List Byte := leBytes n (t % (2 ^ (8 * n) : Nat)).toNat

/-- A card's temperature is read: register 0x05 at bus address 0x18 plus the slot's straps, bits 12:0 in 1/16 °C (R474). -/
def State.readCardTemp (s : State) (n : Nat) (reading : Option Int) : State :=
  let c := s.card n
  let old := s.hk.cardTemps.lookD n CardTemp.init
  if !c.powered then s.modHk fun h => { h with cardTemps := h.cardTemps.del n }
  else
    let wasHot := s.cardHot n
    let new : CardTemp := match reading with
      | some v => ⟨if v % 8192 < 4096 then v % 8192 else v % 8192 - 8192, true, 0⟩
      | none => ⟨old.temp, false, old.misses + 1⟩
    let s := (s.emit (.i2cRead n (0x18 + (Config.cardStrap n).toNat) 5 2)).modHk fun h => { h with cardTemps := h.cardTemps.put n new }
    let s := if s.cardHot n then
        let s := s.modCard n fun c => { c with errTemp := true }
        if wasHot then s else s.record 0x0305 n (leInt 2 (quarters new.temp))
      else s
    match c.info with
    | some i => if new.valid ∧ (16 * i.tempMax : Nat) < new.temp then s.failCard n 1 else s
    | none => s

/-- The band of a temperature reading, given the band so far (11 R386): up at a band's lower bound, down 3 °C below it. -/
def bandOf (old : Nat) (t : Int) : Nat :=
  let bounds : List Int := [20, 45, 70, 90]
  let up := (bounds.filter fun b => decide (b ≤ t)).length
  let down := (bounds.filter fun b => decide (b - 3 ≤ t)).length
  if old ≤ up then up else if down < old then down else old

/-- A stack's temperature is read: refresh (11 R392, R393), and the delays of the band it is in (R386). -/
def State.readStack (s : State) (n : Nat) (reading : Option Int) : State :=
  match reading with
  | none => s
  | some t =>
    if (s.stack n).st ≠ 1 then s
    else
      let s := s.modStack n fun x => { x with temp := t }
      let s := s.modHk fun h => { h with stackRead := h.stackRead.put n true }
      let dbl : Int := s.regBits .memRef 0 23 16
      let hyst : Int := s.regBits .memRef 0 27 24
      let s := if dbl ≤ t then s.doubleRefresh n else if t < dbl - hyst then s.normalRefresh n else s
      let old := (s.stack n).tband
      let b := bandOf old t
      if b = old then s else match nearestBand n b with
        | some x => s.writeDelays n b x
        | none => s

/-- A rail that has not been read. -/
def Rail.init : Rail := ⟨0, 0, false, false, false, false, false⟩

/-- Nominal mV, alarm limit in % and maximum current in 0.1 A of each rail (15 R491). -/
def railLimits : List (Nat × Nat × Nat) :=
  [(750, 5, 960), (750, 5, 960), (750, 5, 960), (750, 5, 960), (850, 5, 471), (750, 5, 1493), (900, 5, 533), (1100, 5, 870),
    (400, 7, 840), (1800, 7, 82), (1200, 7, 583), (1800, 7, 100)]

/-- Does a reading of a rail lie outside its limits? -/
def railBad (r : Nat) (current : Bool) (x : Nat) : Bool :=
  let l := railLimits.getD r (0, 0, 0)
  if current then decide (100 * x > 110 * l.2.2)
  else decide (100 * x < l.1 * (100 - l.2.1)) || decide (100 * x > l.1 * (100 + l.2.1))

/-- The Batches whose Digest engines a rail's alarm reaches: rails 0 to 3 supply one compute die each, rail 4 all. -/
def railEngines (r : Nat) : List Nat := if r < 4 then [r] else if r = 4 then [0, 1, 2, 3] else []

/-- A rail's voltage or current is read; the second round in a row outside its limits raises its alarm (R475). -/
def State.readRail (s : State) (r : Nat) (current : Bool) (reading : Option Int) : State :=
  match reading with
  | none => s
  | some v =>
    let x := (v % 65536).toNat
    let old := s.hk.rails.lookD r Rail.init
    let bad := railBad r current x
    let raise := bad && (if current then old.cBad else old.vBad)
    let other := if current then old.vBad else old.cBad
    let new : Rail := {
      mv := if current then old.mv else x, current := if current then x else old.current
      vBad := if current then old.vBad else bad, cBad := if current then bad else old.cBad
      alarm := raise || (old.alarm && (bad || other)), vRead := old.vRead || !current, cRead := old.cRead || current }
    let s := s.modHk fun h => { h with rails := h.rails.put r new }
    if raise && !old.alarm then
      let s := (s.modHk fun h => { h with evRail := true }).record 0x0605 r (leBytes 2 new.mv ++ leBytes 2 new.current)
      (railEngines r).foldl (fun s e => if (s.engine e).st = 1 then s.alarm e 8 else s) s
    else s

/-- The filtered presence state of a slot is read (R341). -/
def State.readPresence (s : State) (n : Nat) (reading : Option Int) : State :=
  match reading with
  | none => s
  | some v => if v ≠ 0 then s.cardInserted n else s.cardRemoved n

/-- One channel of the round. -/
def State.visit (s : State) (chan : Nat) (reading : Option Int) : State :=
  if chan < 48 then s.readJunction chan reading
  else if chan < 72 then s.readCardTemp (chan - 48) reading
  else if chan < 80 then s.readStack (chan - 72) reading
  else if chan < 104 then s.readRail ((chan - 80) / 2) (chan % 2 == 1) reading
  else s.readPresence (chan - 104) reading

/-- Does the housekeeping round run: the main rails are up and the device is out of reset? -/
def State.housekeeps (s : State) : Bool := s.modes.mode != .off && s.modes.mode != .standby

/-- HOUSEKEEPING_VISIT: channels are visited in order. -/
def execHousekeepingVisit (chan : Fin 128) (reading : Option Int) (s : State) : Host.Outcome State Fault Refusal :=
  .next (if s.housekeeps ∧ s.hk.next = chan.val then
    s.alertPin ((s.visit chan reading).modHk fun h => { h with next := chan + 1 }) else s)

/-! ## Throttling (14 R476 to R478) -/

/-- The warning. -/
def State.evalWarn (s : State) : State :=
  let hot := decide (380 ≤ s.hk.tj)
  let tell := hot && s.hk.warnArmed
  let s := s.modHk fun h => { h with
    warn := hot, evWarn := h.evWarn || (hot && !h.warn), warnArmed := !tell && (h.warnArmed || decide (h.tj < 368)) }
  if tell then s.record 0x0601 s.hk.tjSensor (leInt 2 s.hk.tj) else s

/-- The counts of successive rounds below 98 °C and at 110 °C or above. -/
def Housekeeping.counted (h : Housekeeping) : Housekeeping :=
  { h with
    coolRounds := if h.tj < 392 then min (h.coolRounds + 1) 4 else 0
    hotRounds := if 440 ≤ h.tj then min (h.hotRounds + 1) 2 else 0 }

/-- The step that the rules ask for. -/
def Housekeeping.wanted (h : Housekeeping) : Nat :=
  if h.hotRounds ≥ 2 then 8
  else if 400 ≤ h.tj then min (h.step + 1) 8
  else if h.coolRounds ≥ 4 then h.step - 1
  else h.step

/-- The step changes, and its change is recorded. -/
def State.evalStep (s : State) : State :=
  let s := s.modHk Housekeeping.counted
  let old := s.hk.step
  let new := s.hk.wanted
  let s := s.modHk fun h => { h with
    step := new, evThrottle := h.evThrottle || (old == 0 && new != 0), coolRounds := if new < old then 0 else h.coolRounds }
  if new = old then s else s.record 0x0602 s.hk.tjSensor (leBytes 1 old ++ leBytes 1 new ++ leInt 2 s.hk.tj)

/-- THERMTRIP_N. -/
def State.evalTrip (s : State) : State :=
  if s.hk.hotRounds ≥ 2 ∧ !s.hk.trip then
    ((s.modHk fun h => { h with trip := true }).emit (.pin "THERMTRIP_N" 0 false)).record 0x0603 s.hk.tjSensor (leInt 2 s.hk.tj)
  else s

/-- THROTTLE_EVALUATION: the round has ended, and the next one begins. -/
def execThrottleEvaluation (s : State) : Host.Outcome State Fault Refusal :=
  .next (if s.housekeeps ∧ s.hk.next = 128 then
    s.alertPin (((s.modHk fun h => { h with next := 0 }).takeTj.evalWarn.evalStep.evalTrip).settle) else s)

/-! ## Control cores and erasure-code units (14 R463, R469) -/

/-- CCORE_WATCHDOG: the core is reset; its work goes to the others. -/
def execCcoreWatchdog (core : Fin 4) (s : State) : Host.Outcome State Fault Refusal :=
  let k := s.ccore core
  if k.st ≠ 1 then .next s
  else
    let s := s.dropCoreDigests (.ctrl core)
    let s := s.modCcore core fun _ => ⟨s.freshCore, [], false, false, 2, min (k.resets + 1) 255⟩
    .next ((s.modHk fun h => { h with evCcore := true }).record 0x010F core (leBytes 1 (b2n k.halted)))

/-- CCORE_SELF_TEST_END: with three cores failed the device takes a device reset. -/
def execCcoreSelfTestEnd (core : Fin 4) (pass : Bool) (s : State) : Host.Outcome State Fault Refusal :=
  if (s.ccore core).st ≠ 2 then .next s
  else
    let s := s.modCcore core fun k => { k with st := if pass then 1 else 3 }
    let failed := ((List.range 4).filter fun c => (s.ccore c).st == 3).length
    .next (if failed ≥ 3 then s.deviceReset.restart 4 else s)

/-- ECU_FAULT: the unit's parity work moves to the unit of the next Batch. -/
def execEcuFault (batch : Fin 4) (s : State) : Host.Outcome State Fault Refusal :=
  .next (if s.awake ∧ !s.ecuFailed.contains batch.val then
    (({ s with ecuFailed := s.ecuFailed ++ [batch.val] } : State).record 0x0208 batch []).settle else s)

/-! ## On-die SRAMs (11 R409) -/

/-- A Crumb's store or registers hold an uncorrectable block. -/
def State.crumbSram (s : State) (c : Nat) : State := if (s.crumb c).online then s.crumbFails c else s

/-- A merge-buffer entry that cannot be read is retired poisoned; in the metadata region its requester writes it again. -/
def State.mergeSram (s : State) (c : Nat) : State :=
  let l := (s.ctrl c).merge
  match l[s.choice (max l.length 1)]? with
  | none => s
  | some e =>
    let s := s.tick
    let sa := 32 * e.block
    if s.regionOf (c / 32) (s.remapped (c / 32) sa) = 0 then s.retireMerge c e
    else
      let s := s.modCtrl c fun k => { k with merge := k.merge.filter fun x => x.block != e.block }
      let blk := s.blockNo (c / 32) sa
      (s.modMem fun m => m.store blk (mergeBytes e.mask e.data (m.data blk)) (BitVec.allOnes 32)).bump .memCnt 3

/-- The halves of a pair in service fail as under the watchdog. -/
def State.ringSram (s : State) (p : Nat) : State :=
  let s := if s.halfOn p true then s.rollerFails p true else s
  if s.halfOn p false then s.rollerFails p false else s

/-- SRAM_SCRUB: a read that finds an uncorrectable block. A cached context is loaded again from its copies, which changes
nothing. -/
def execSramScrub (owner : SramOwner) (unit : Nat) (ok : Bool) (s : State) : Host.Outcome State Fault Refusal :=
  if ok then .next s
  else match owner with
    | .crumb => .next (if unit < 1024 then s.crumbSram unit else s)
    | .loaf => .next (if unit < 64 then (loafCrumbs unit).foldl State.crumbSram s else s)
    | .sieve => .next (if unit < 4 then s.tick.sieveError unit (s.choice 65536) else s)
    | .digest => .next (if unit < 4 ∧ (s.engine unit).st = 1 then s.alarm unit 2 else s)
    | .ctxCache => .next s
    | .merge => .next (if unit < 256 then s.mergeSram unit else s)
    | .rollerRing => .next (if unit < 64 then s.ringSram unit else s)

/-! ## The event recorder (14 R482 to R486) -/

/-- Changes the event recorder. -/
def State.modEvr (s : State) (f : EvRecorder → EvRecorder) : State := { s with evr := f s.evr }

/-- SUPPRESSION_WINDOW_END. -/
def execSuppressionWindowEnd (code source : Nat) (s : State) : Host.Outcome State Fault Refusal :=
  match s.evr.window code source with
  | none => .next s
  | some w =>
    let s := s.modEvr fun e => { e with windows := e.windows.filter fun x => !(x.code == code && x.source == source) }
    .next (if w.dropped = 0 then s else s.record 0x0702 code (leBytes 2 source ++ leBytes 4 w.dropped))

/-- EVENT_RECORD_FLUSH: the records created reach flash, and EVENT_CLEAR is answered once its record has. -/
def execEventRecordFlush (s : State) : Host.Outcome State Fault Refusal :=
  if !s.awake then .next s
  else
    let wait := s.evr.clearWait
    let s := s.modEvr fun e => { e with circ := (e.queued ++ e.circ).take 262144, queued := [], clearWait := [] }
    .next (wait.foldl (fun s w => match s.cmd? w.1 with
      | some c => s.complete c .ok 0 w.2.2 0
      | none => s) s)

/-- A write of EVR_FETCH: none while BUSY is 1. -/
def State.evrFetch (s : State) (value : Reg) : State :=
  if s.evr.fetch.isSome then s
  else s.modEvr fun e => { e with fetch := some (bitsOf value.toNat 47 0, bitOf value.toNat 63) }

/-- EVR_FETCH. -/
def execEvrFetch (port : Port) (value : Reg) (s : State) : Host.Outcome State Fault Refusal :=
  .next (if s.mmio port then (s.mgmtAccess port).evrFetch value else s)

/-- EVR_FETCH_DONE: 128 records from the number written; one that is not held reads as 0xFF. -/
def execEvrFetchDone (s : State) : Host.Outcome State Fault Refusal :=
  match s.evr.fetch with
  | none => .next s
  | some (first, area) =>
    let from' := if area then s.evr.perm else s.evr.circ
    .next (s.modEvr fun e => { e with
      fetch := none, done := true
      buf := (List.range 128).map fun i => from'.find? fun r => r.number == first + i })

/-- The message whose HMAC an EVENT_CLEAR token is. -/
def clearMessage (nonce : List Byte) : List Byte :=
  [0x56, 0x4B, 0x45, 0x43] ++ (List.range 16).map Config.serial ++ nonce ++ zeros 4

/-- The first check of R486 that an EVENT_CLEAR fails. -/
def State.clearCheck (s : State) (c : Cmd) : Option Nat :=
  let nonce := sliceB c.pkt.body 0 8
  match s.keys.device.look 2 with
  | none => some 1
  | some k =>
    if leNat nonce ≠ s.evr.nonce.toNat then some 2
    else if (hmacSha256 k.key (clearMessage nonce)).take 16 ≠ sliceB c.pkt.body 8 16 then some 3
    else none

/-- EVENT_CLEAR: EVR_NONCE takes a new value whether the checks pass or not; the reply follows the durability of
EVENTS_CLEARED. -/
def execEventClear (tag : Nat) (s : State) : Host.Outcome State Fault Refusal :=
  match s.ready tag 0xFA with
  | none => .next s
  | some c =>
    let t := (s.modEvr fun e => { e with nonce := s.free }).tick
    match s.clearCheck c with
    | some k => .next (((t.bump .evrCnt 3).record 0x0704 (portNum c.port) (leBytes 1 k)).fail c .notPermitted)
    | none =>
      let newest := s.evr.next - 1
      let t := (t.modEvr fun e => { e with circ := [], ring := [], queued := [] }).bump .evrCnt 2
      let t := (t.launch tag).record 0x0701 (portNum c.port) (leBytes 6 newest)
      .next (t.modEvr fun e => { e with clearWait := e.clearWait ++ [(tag, newest + 1, newest)] })

end Sys2Proof.Machine
end

