-- ==== Sys2Proof/Machine/Isa16.lean ====
section
/-! DEFINITION. The 16-bit instructions (06 R212, R219, R221, R223 to R225), but for the Sieve's and the
privileged ones. -/
namespace Sys2Proof.Machine

/-! ## Effects on the registers -/

/-- Writes a register and sets NZ from the value. -/
def Core.wrNz (k : Core) (d : Fin 16) (r : Word) : Core := (k.flagsNz r).setR d r

/-- An addition into a register, with NZCV. -/
def Core.wrAdd (k : Core) (d : Fin 16) (a b : Word) (cin : Bool) : Core :=
  let r := a + b + BitVec.ofNat 32 (b2n cin)
  (k.flagsAdd a b cin r).setR d r

/-- A subtraction into a register, with NZCV. -/
def Core.wrSub (k : Core) (d : Fin 16) (a b : Word) (bin : Bool) : Core :=
  let r := a - b - BitVec.ofNat 32 (b2n bin)
  (k.flagsSub a b bin r).setR d r

/-- MOV. -/
def movOp (a b : Fin 16) (k : Core) : Core := k.setR a (k.r b)
/-- ADD. -/
def addOp (a b : Fin 16) (k : Core) : Core := k.wrAdd a (k.r a) (k.r b) false
/-- SUB. -/
def subOp (a b : Fin 16) (k : Core) : Core := k.wrSub a (k.r a) (k.r b) false
/-- AND. -/
def andOp (a b : Fin 16) (k : Core) : Core := k.wrNz a (k.r a &&& k.r b)
/-- OR. -/
def orOp (a b : Fin 16) (k : Core) : Core := k.wrNz a (k.r a ||| k.r b)
/-- XOR. -/
def xorOp (a b : Fin 16) (k : Core) : Core := k.wrNz a (k.r a ^^^ k.r b)
/-- CMP. -/
def cmpOp (a b : Fin 16) (k : Core) : Core := k.flagsSub (k.r a) (k.r b) false (k.r a - k.r b)
/-- TST. -/
def tstOp (a b : Fin 16) (k : Core) : Core := k.flagsNz (k.r a &&& k.r b)
/-- ADDQ: the constant is B + 1. -/
def addqOp (a b : Fin 16) (k : Core) : Core := k.wrAdd a (k.r a) (BitVec.ofNat 32 (b.val + 1)) false
/-- SUBQ: the constant is B + 1. -/
def subqOp (a b : Fin 16) (k : Core) : Core := k.wrSub a (k.r a) (BitVec.ofNat 32 (b.val + 1)) false
/-- MOVQ: the constant is B. -/
def movqOp (a b : Fin 16) (k : Core) : Core := k.setR a (BitVec.ofNat 32 b.val)
/-- NEG. -/
def negOp (a b : Fin 16) (k : Core) : Core := k.wrSub a 0 (k.r b) false
/-- NOT. -/
def notOp (a b : Fin 16) (k : Core) : Core := k.wrNz a (~~~ k.r b)

/-- The number of leading zero bits, 32 for zero. -/
def clz (w : Word) : Nat := ((List.range 32).find? fun i => w.getLsbD (31 - i)).getD 32

/-- The number of one bits. -/
def popc (w : Word) : Nat := ((List.range 32).filter fun i => w.getLsbD i).length

/-! ## Memory operations that REP may repeat (R215) -/

/-- Are the fields of LDF and STF valid (R210, R215)? -/
def ldfOk (d a x : Fin 16) (sc mode size : Fin 4) (sgn isLoad : Bool) : Bool :=
  size.val != 3 && mode.val != 3 && !(sgn && size.val == 2) &&
  (mode.val == 0 || (x.val == 0 && sc.val == 0 && !(isLoad && d == a)))

/-- The flat address of LDF and STF, and the base register's value after the access (R215). -/
def ldfAddr (k : Core) (a x : Fin 16) (sc mode size : Fin 4) : Word × Word :=
  let n := BitVec.ofNat 32 (sizeBytes size)
  if mode.val = 0 then (k.r a + k.r x <<< sc.val, k.r a)
  else if mode.val = 1 then (k.r a, k.r a + n)
  else (k.r a - n, k.r a - n)

/-- LDF (R215). -/
def ldfOp (k : CoreSel) (d a x : Fin 16) (sc mode size : Fin 4) (sgn : Bool) (s : State) : Except Exn State := do
  need (ldfOk d a x sc mode size sgn true)
  let p := ldfAddr (s.core k) a x sc mode size
  let (b, s) ← s.loadFlat k p.1 (sizeBytes size)
  .ok ((s.setG k a p.2).setG k d (extend b sgn))

/-- STF (R215): it stores gD as it was before the write-back. -/
def stfOp (k : CoreSel) (d a x : Fin 16) (sc mode size : Fin 4) (s : State) : Except Exn State := do
  need (ldfOk d a x sc mode size false false)
  let p := ldfAddr (s.core k) a x sc mode size
  let s' ← s.storeFlat k p.1 (leBytes (sizeBytes size) (s.g k d).toNat)
  .ok (s'.setG k a p.2)

/-- Are the fields of VLD and VST valid (R209, R215)? -/
def vldOk (d : Fin 16) (bk : Fin 4) (f : Bool) (disp : BitVec 12) : Bool :=
  vOk d && (!f || (bk.val == 0 && disp == 0))

/-- The window and offset of VLD and VST (R215). -/
def vldPlace (k : Core) (a : Fin 16) (bk : Fin 4) (f : Bool) (disp : BitVec 12) : Nat × Nat :=
  if f then (flatWin (k.r a), flatOff (k.r a))
  else ((k.rb bk).toNat, bankedOff (k.r a) ((disp.signExtend 16) * 16))

/-- The base register after VLD and VST. -/
def vldBase (k : Core) (a : Fin 16) (f : Bool) : Word := if f then k.r a + 16 else k.r a

/-- VLD (R215). -/
def vldOp (k : CoreSel) (d a : Fin 16) (bk : Fin 4) (f : Bool) (disp : BitVec 12) (s : State) : Except Exn State := do
  need (vldOk d bk f disp)
  let p := vldPlace (s.core k) a bk f disp
  let (b, s') ← s.load k p.1 p.2 16
  .ok ((s'.modCore k fun c => c.setV d (laneOf b)).setG k a (vldBase (s.core k) a f))

/-- VST (R215). -/
def vstOp (k : CoreSel) (d a : Fin 16) (bk : Fin 4) (f : Bool) (disp : BitVec 12) (s : State) : Except Exn State := do
  need (vldOk d bk f disp)
  let p := vldPlace (s.core k) a bk f disp
  let s' ← s.storeAt k p.1 p.2 (laneBytes ((s.core k).rv d))
  .ok (s'.setG k a (vldBase (s.core k) a f))

/-- The bytes of CPY's SIZE field. -/
def cpyBytes (size : Fin 4) : Nat := if size.val = 3 then 16 else 2 ^ size.val

/-- CPY (R213, R215). -/
def cpyOp (k : CoreSel) (d a : Fin 16) (size : Fin 4) (s : State) : Except Exn State := do
  need (d != a)
  let n := cpyBytes size
  let (b, s1) ← s.loadFlat k (s.g k a) n
  let s2 ← s1.storeFlat k (s.g k d) b
  .ok ((s2.setG k a (s.g k a + BitVec.ofNat 32 n)).setG k d (s.g k d + BitVec.ofNat 32 n))

/-! ## Repeated instructions (R223) -/

/-- The register effect of a repeated S16 instruction. -/
def repS16 (op : RepOp) (a b : Fin 16) : Core → Core :=
  match op with
  | .mov => movOp a b
  | .add => addOp a b
  | .sub => subOp a b
  | .and => andOp a b
  | .or => orOp a b
  | .xor => xorOp a b
  | .cmp => cmpOp a b
  | .tst => tstOp a b
  | .addq => addqOp a b
  | .subq => subqOp a b
  | .movq => movqOp a b
  | .neg => negOp a b
  | .not => notOp a b

/-- Do the B fields of an S16 instruction name a register? -/
def repNames (op : RepOp) : Bool := op != .addq && op != .subq && op != .movq

/-- The effect of one repetition. -/
def repEffect (k : CoreSel) (body : RepBody) (s : State) : Except Exn State :=
  match body with
  | .s16 op a b => s.pureOp k (repS16 op a b)
  | .ldf d a x sc mode size sgn => ldfOp k d a x sc mode size sgn s
  | .stf d a x sc mode size => stfOp k d a x sc mode size s
  | .vld d a bk f disp => vldOp k d a bk f disp s
  | .vst d a bk f disp => vstOp k d a bk f disp s
  | .cpy d a size => cpyOp k d a size s
  | .other => .error exnInvalid

/-- May a prefix with count register `c` be followed by the instruction (R210, R223)? -/
def repOk (c : Fin 16) (body : RepBody) : Bool :=
  match body with
  | .s16 op a b => a != c && (!repNames op || b != c)
  | .ldf d a x sc mode size sgn => mode.val != 0 && ldfOk d a x sc mode size sgn true && d != c && a != c
  | .stf d a x sc mode size => mode.val != 0 && ldfOk d a x sc mode size false false && d != c && a != c
  | .vld d a bk f disp => f && vldOk d bk f disp && a != c
  | .vst d a bk f disp => f && vldOk d bk f disp && a != c
  | .cpy d a _ => d != a && d != c && a != c
  | .other => false

/-- The length in bytes of a prefix with its instruction; a prefix that ends the code stands alone. -/
def repLen (body : RepBody) : Nat :=
  match body with
  | .s16 .. => 4
  | .other => 2
  | _ => 6

/-! ## The stack (R219 to R222) -/

/-- The registers a mask names, in ascending order (R220). -/
def maskRegs (mask : Nat) : List (Fin 16) := (List.finRange 16).filter fun i => bitOf mask i.val

/-- Loads the registers of a frame from its offset 8 on (R221). -/
def popRegs (k : CoreSel) : List (Fin 16) → Word → State → Except Exn State
  | [], _, s => .ok s
  | i :: r, a, s => do
    let (b, s) ← s.loadFlat k a 4 4
    popRegs k r (a + 4) (s.setG k i (extend b false))

/-- RET's frame (R221): the state with the registers restored. -/
def retFrame (k : CoreSel) (s : State) : Except Exn State := do
  let sp := s.g k 14
  if flatOff sp % 4 ≠ 0 then .error (exnAlign sp)
  let (b, s) ← s.loadFlat k (sp + 4) 4 4
  let mask := fieldLe b 0 2
  need (mask / 2 ^ 14 == 0 && fieldLe b 2 2 == 0)
  let s ← popRegs k (maskRegs mask) (sp + 8) s
  let (l, s) ← s.loadFlat k sp 4 4
  .ok ((s.setG k 15 (extend l false)).setG k 14 (sp + BitVec.ofNat 32 (8 + 4 * (maskRegs mask).length)))

/-- A jump target must be even (R204). -/
def evenTarget (t : Word) : Except Exn Unit := if t.getLsbD 0 then .error (exnAlign t) else .ok ()

/-! ## The meanings -/

/-- ILL raises INVALID (R210, R212). -/
def execIll (k : CoreSel) (s : State) : Host.Outcome State Fault Refusal :=
  s.retire k 2 fun _ => .error exnInvalid

/-- MOV (R212). -/
def execMov (k : CoreSel) (a b : Fin 16) (s : State) : Host.Outcome State Fault Refusal :=
  s.retire k 2 fun s => s.pureOp k (movOp a b)

/-- ADD (R212). -/
def execAdd (k : CoreSel) (a b : Fin 16) (s : State) : Host.Outcome State Fault Refusal :=
  s.retire k 2 fun s => s.pureOp k (addOp a b)

/-- SUB (R212). -/
def execSub (k : CoreSel) (a b : Fin 16) (s : State) : Host.Outcome State Fault Refusal :=
  s.retire k 2 fun s => s.pureOp k (subOp a b)

/-- AND (R212). -/
def execAnd16 (k : CoreSel) (a b : Fin 16) (s : State) : Host.Outcome State Fault Refusal :=
  s.retire k 2 fun s => s.pureOp k (andOp a b)

/-- OR (R212). -/
def execOr16 (k : CoreSel) (a b : Fin 16) (s : State) : Host.Outcome State Fault Refusal :=
  s.retire k 2 fun s => s.pureOp k (orOp a b)

/-- XOR (R212). -/
def execXor16 (k : CoreSel) (a b : Fin 16) (s : State) : Host.Outcome State Fault Refusal :=
  s.retire k 2 fun s => s.pureOp k (xorOp a b)

/-- CMP (R212). -/
def execCmp (k : CoreSel) (a b : Fin 16) (s : State) : Host.Outcome State Fault Refusal :=
  s.retire k 2 fun s => s.pureOp k (cmpOp a b)

/-- TST (R212). -/
def execTst (k : CoreSel) (a b : Fin 16) (s : State) : Host.Outcome State Fault Refusal :=
  s.retire k 2 fun s => s.pureOp k (tstOp a b)

/-- ADDQ (R212). -/
def execAddq (k : CoreSel) (a b : Fin 16) (s : State) : Host.Outcome State Fault Refusal :=
  s.retire k 2 fun s => s.pureOp k (addqOp a b)

/-- SUBQ (R212). -/
def execSubq (k : CoreSel) (a b : Fin 16) (s : State) : Host.Outcome State Fault Refusal :=
  s.retire k 2 fun s => s.pureOp k (subqOp a b)

/-- MOVQ (R212). -/
def execMovq (k : CoreSel) (a b : Fin 16) (s : State) : Host.Outcome State Fault Refusal :=
  s.retire k 2 fun s => s.pureOp k (movqOp a b)

/-- NEG (R212). -/
def execNeg (k : CoreSel) (a b : Fin 16) (s : State) : Host.Outcome State Fault Refusal :=
  s.retire k 2 fun s => s.pureOp k (negOp a b)

/-- NOT (R212). -/
def execNot16 (k : CoreSel) (a b : Fin 16) (s : State) : Host.Outcome State Fault Refusal :=
  s.retire k 2 fun s => s.pureOp k (notOp a b)

/-- PUSH (R212, R219). -/
def execPush (k : CoreSel) (a : Fin 16) (s : State) : Host.Outcome State Fault Refusal :=
  s.retire k 2 fun s => do
    let addr := s.g k 14 - 4
    let t ← s.storeFlat k addr (leBytes 4 (s.g k a).toNat) 4 (some (s.core k).slimit)
    .ok (t.setG k 14 addr)

/-- POP (R212, R219). -/
def execPop (k : CoreSel) (a : Fin 16) (s : State) : Host.Outcome State Fault Refusal :=
  s.retire k 2 fun s => do
    need (a != 14)
    let sp := s.g k 14
    let (b, t) ← s.loadFlat k sp 4 4
    .ok ((t.setG k a (extend b false)).setG k 14 (sp + 4))

/-- JR (R206, R212). -/
def execJr (k : CoreSel) (a : Fin 16) (s : State) : Host.Outcome State Fault Refusal :=
  s.retireTo k 2 true fun s => do
    evenTarget (s.g k a)
    .ok (s, s.g k a)

/-- RET (R221, R222): at the exit address it reads no frame. -/
def execRet (k : CoreSel) (s : State) : Host.Outcome State Fault Refusal :=
  s.retireTo k 2 true fun s =>
    let target := s.g k 15
    if s.user k && target == exitAddr then .ok (s, target)
    else do
      let t ← retFrame k s
      evenTarget target
      .ok (t, target)

/-- REP (R223 to R225). -/
def execRep (k : CoreSel) (a : Fin 16) (body : RepBody) (s : State) : Host.Outcome State Fault Refusal :=
  s.retireRep k (repLen body) a false
    (if !repOk a body then some exnInvalid else if (s.g k a).toNat > 4096 then some exnRepRange else none)
    (repEffect k body)

/-- REPI (R223 to R225). -/
def execRepi (k : CoreSel) (a : Fin 16) (body : RepBody) (s : State) : Host.Outcome State Fault Refusal :=
  s.retireRep k (repLen body) a true (if !repOk a body then some exnInvalid else none) (repEffect k body)

/-- MTB (R205, R212). -/
def execMtb (k : CoreSel) (a b : Fin 16) (s : State) : Host.Outcome State Fault Refusal :=
  s.retire k 2 fun s => do
    need (decide (a.val < 4))
    let w := (s.g k b).setWidth 16
    if s.bankOk k w then s.pureOp k fun c => c.setB (Fin.ofNat 4 a.val) w
    else .error (exnWindow (BitVec.ofNat 32 (w.toNat * 65536)))

/-- MFB (R212). -/
def execMfb (k : CoreSel) (a b : Fin 16) (s : State) : Host.Outcome State Fault Refusal :=
  s.retire k 2 fun s => do
    need (decide (b.val < 4))
    s.pureOp k fun c => c.setR a ((c.rb (Fin.ofNat 4 b.val)).setWidth 32)

/-- NOP (R212). -/
def execNopInstruction (k : CoreSel) (s : State) : Host.Outcome State Fault Refusal :=
  s.retire k 2 fun s => .ok s

/-- FENCE (R231): every earlier access of the model is complete and visible when it retires. -/
def execFence (k : CoreSel) (s : State) : Host.Outcome State Fault Refusal :=
  s.retire k 2 fun s => .ok s

/-- BRK raises BREAK (R212). -/
def execBrk (k : CoreSel) (s : State) : Host.Outcome State Fault Refusal :=
  s.retire k 2 fun _ => .error exnBreak

/-- CLZ (R212). -/
def execClz (k : CoreSel) (a b : Fin 16) (s : State) : Host.Outcome State Fault Refusal :=
  s.retire k 2 fun s => s.pureOp k fun c => c.setR a (BitVec.ofNat 32 (clz (c.r b)))

/-- POPC (R212). -/
def execPopc (k : CoreSel) (a b : Fin 16) (s : State) : Host.Outcome State Fault Refusal :=
  s.retire k 2 fun s => s.pureOp k fun c => c.setR a (BitVec.ofNat 32 (popc (c.r b)))

end Sys2Proof.Machine
end

