-- ==== Sys2Proof/Machine/IsaAlu.lean ====
section
/-! DEFINITION. The 32-bit and 48-bit register instructions (06 R213, R214, R218). -/
namespace Sys2Proof.Machine

/-! ## Shared computations -/

/-- A shift by `n` with its flags (R214): kind 0 left, 1 right logically, 2 right arithmetically. C is the last bit
shifted out; with 32 and above it is 0, but bit 31 of gA for kind 2. -/
def Core.wrShift (k : Core) (d : Fin 16) (kind : Nat) (a : Word) (n : Nat) : Core :=
  let r := if kind = 0 then a <<< n else if kind = 1 then a >>> n else a.sshiftRight n
  let out := if n ≥ 32 then kind == 2 && a.msb
    else if kind = 0 then a.getLsbD (32 - n) else a.getLsbD (n - 1)
  (k.flagsShift r n out).setR d r

/-- Unsigned division; all ones for a zero divisor (R214). -/
def divU (a b : Word) : Word := if b = 0 then 0xFFFFFFFF#32 else BitVec.ofNat 32 (a.toNat / b.toNat)

/-- Unsigned remainder; gA for a zero divisor (R214). -/
def remU (a b : Word) : Word := if b = 0 then a else BitVec.ofNat 32 (a.toNat % b.toNat)

/-- Signed division truncated toward zero; all ones for a zero divisor; the most negative number by −1 wraps to
itself (R214). -/
def divS (a b : Word) : Word := if b = 0 then 0xFFFFFFFF#32 else BitVec.ofInt 32 (a.toInt.tdiv b.toInt)

/-- Signed remainder with the sign of gA; gA for a zero divisor (R214). -/
def remS (a b : Word) : Word := if b = 0 then a else BitVec.ofInt 32 (a.toInt.tmod b.toInt)

/-- The bytes of a word in reverse order. -/
def bswap (a : Word) : Word := BitVec.ofNat 32 (leNat (leBytes 4 a.toNat).reverse)

/-- Bits [p + l − 1 : p] of a word (R213, BFX). -/
def fieldOf (a : Word) (p l : Nat) (sgn : Bool) : Word :=
  let v := bitsOf a.toNat (p + l - 1) p
  if sgn && bitOf v (l - 1) then BitVec.ofNat 32 (2 ^ 32 + v - 2 ^ l) else BitVec.ofNat 32 v

/-- Bits [p + l − 1 : p] of old gD replaced by the low bits of gA (R213, BFI). -/
def insertField (old a : Word) (p l : Nat) : Word :=
  let mask := BitVec.ofNat 32 ((2 ^ l - 1) * 2 ^ p)
  (old &&& ~~~mask) ||| (BitVec.ofNat 32 (a.toNat % 2 ^ l * 2 ^ p))

/-- PERM (R213): byte `i` selects a byte of gA, a byte of old gD, or zero. -/
def permBytes (old a : Word) (sel : BitVec 16) : Word :=
  BitVec.ofNat 32 (leNat ((List.range 4).map fun i =>
    let x := bitsOf sel.toNat (4 * i + 3) (4 * i)
    if x < 4 then a.extractLsb' (8 * x) 8 else if x < 8 then old.extractLsb' (8 * (x - 4)) 8 else 0))

/-! ## The ALU (R214) -/

/-- ALU ADD (R214). -/
def execAluAdd (k : CoreSel) (d a b : Fin 16) (s : State) : Host.Outcome State Fault Refusal :=
  s.retire k 4 fun s => s.pureOp k fun k => k.wrAdd d (k.r a) (k.r b) false

/-- ALU ADC (R214). -/
def execAluAdc (k : CoreSel) (d a b : Fin 16) (s : State) : Host.Outcome State Fault Refusal :=
  s.retire k 4 fun s => s.pureOp k fun k => k.wrAdd d (k.r a) (k.r b) k.c

/-- ALU SUB (R214). -/
def execAluSub (k : CoreSel) (d a b : Fin 16) (s : State) : Host.Outcome State Fault Refusal :=
  s.retire k 4 fun s => s.pureOp k fun k => k.wrSub d (k.r a) (k.r b) false

/-- ALU SBC (R214). -/
def execAluSbc (k : CoreSel) (d a b : Fin 16) (s : State) : Host.Outcome State Fault Refusal :=
  s.retire k 4 fun s => s.pureOp k fun k => k.wrSub d (k.r a) (k.r b) k.c

/-- ALU AND (R214). -/
def execAluAnd (k : CoreSel) (d a b : Fin 16) (s : State) : Host.Outcome State Fault Refusal :=
  s.retire k 4 fun s => s.pureOp k fun k => k.wrNz d (k.r a &&& k.r b)

/-- ALU OR (R214). -/
def execAluOr (k : CoreSel) (d a b : Fin 16) (s : State) : Host.Outcome State Fault Refusal :=
  s.retire k 4 fun s => s.pureOp k fun k => k.wrNz d (k.r a ||| k.r b)

/-- ALU XOR (R214). -/
def execAluXor (k : CoreSel) (d a b : Fin 16) (s : State) : Host.Outcome State Fault Refusal :=
  s.retire k 4 fun s => s.pureOp k fun k => k.wrNz d (k.r a ^^^ k.r b)

/-- ALU ANDN (R214). -/
def execAluAndn (k : CoreSel) (d a b : Fin 16) (s : State) : Host.Outcome State Fault Refusal :=
  s.retire k 4 fun s => s.pureOp k fun k => k.wrNz d (k.r a &&& ~~~ k.r b)

/-- ALU SHL (R214). -/
def execAluShl (k : CoreSel) (d a b : Fin 16) (s : State) : Host.Outcome State Fault Refusal :=
  s.retire k 4 fun s => s.pureOp k fun k => k.wrShift d 0 (k.r a) ((k.r b).toNat % 256)

/-- ALU SHR (R214). -/
def execAluShr (k : CoreSel) (d a b : Fin 16) (s : State) : Host.Outcome State Fault Refusal :=
  s.retire k 4 fun s => s.pureOp k fun k => k.wrShift d 1 (k.r a) ((k.r b).toNat % 256)

/-- ALU SAR (R214). -/
def execAluSar (k : CoreSel) (d a b : Fin 16) (s : State) : Host.Outcome State Fault Refusal :=
  s.retire k 4 fun s => s.pureOp k fun k => k.wrShift d 2 (k.r a) ((k.r b).toNat % 256)

/-- ALU ROR (R214). -/
def execAluRor (k : CoreSel) (d a b : Fin 16) (s : State) : Host.Outcome State Fault Refusal :=
  s.retire k 4 fun s => s.pureOp k fun k => k.wrNz d ((k.r a).rotateRight ((k.r b).toNat % 32))

/-- ALU MUL (R214). -/
def execAluMul (k : CoreSel) (d a b : Fin 16) (s : State) : Host.Outcome State Fault Refusal :=
  s.retire k 4 fun s => s.pureOp k fun k => k.setR d (k.r a * k.r b)

/-- ALU MULHU (R214). -/
def execAluMulhu (k : CoreSel) (d a b : Fin 16) (s : State) : Host.Outcome State Fault Refusal :=
  s.retire k 4 fun s => s.pureOp k fun k => k.setR d (BitVec.ofNat 32 ((k.r a).toNat * (k.r b).toNat / 2 ^ 32))

/-- ALU MULHS (R214). -/
def execAluMulhs (k : CoreSel) (d a b : Fin 16) (s : State) : Host.Outcome State Fault Refusal :=
  s.retire k 4 fun s => s.pureOp k fun k => k.setR d (BitVec.ofInt 32 ((k.r a).toInt * (k.r b).toInt / 2 ^ 32))

/-- ALU DIVU (R214). -/
def execAluDivu (k : CoreSel) (d a b : Fin 16) (s : State) : Host.Outcome State Fault Refusal :=
  s.retire k 4 fun s => s.pureOp k fun k => k.setR d (divU (k.r a) (k.r b))

/-- ALU REMU (R214). -/
def execAluRemu (k : CoreSel) (d a b : Fin 16) (s : State) : Host.Outcome State Fault Refusal :=
  s.retire k 4 fun s => s.pureOp k fun k => k.setR d (remU (k.r a) (k.r b))

/-- ALU DIVS (R214). -/
def execAluDivs (k : CoreSel) (d a b : Fin 16) (s : State) : Host.Outcome State Fault Refusal :=
  s.retire k 4 fun s => s.pureOp k fun k => k.setR d (divS (k.r a) (k.r b))

/-- ALU REMS (R214). -/
def execAluRems (k : CoreSel) (d a b : Fin 16) (s : State) : Host.Outcome State Fault Refusal :=
  s.retire k 4 fun s => s.pureOp k fun k => k.setR d (remS (k.r a) (k.r b))

/-- ALU MINU (R214). -/
def execAluMinu (k : CoreSel) (d a b : Fin 16) (s : State) : Host.Outcome State Fault Refusal :=
  s.retire k 4 fun s => s.pureOp k fun k => k.setR d (if (k.r b).toNat < (k.r a).toNat then k.r b else k.r a)

/-- ALU MAXU (R214). -/
def execAluMaxu (k : CoreSel) (d a b : Fin 16) (s : State) : Host.Outcome State Fault Refusal :=
  s.retire k 4 fun s => s.pureOp k fun k => k.setR d (if (k.r a).toNat < (k.r b).toNat then k.r b else k.r a)

/-- ALU MINS (R214). -/
def execAluMins (k : CoreSel) (d a b : Fin 16) (s : State) : Host.Outcome State Fault Refusal :=
  s.retire k 4 fun s => s.pureOp k fun k => k.setR d (if (k.r b).toInt < (k.r a).toInt then k.r b else k.r a)

/-- ALU MAXS (R214). -/
def execAluMaxs (k : CoreSel) (d a b : Fin 16) (s : State) : Host.Outcome State Fault Refusal :=
  s.retire k 4 fun s => s.pureOp k fun k => k.setR d (if (k.r a).toInt < (k.r b).toInt then k.r b else k.r a)

/-- ALU BSWAP (R214). -/
def execAluBswap (k : CoreSel) (d a : Fin 16) (s : State) : Host.Outcome State Fault Refusal :=
  s.retire k 4 fun s => s.pureOp k fun k => k.setR d (bswap (k.r a))

/-! ## Immediates, fields and conditions (R213, R218) -/

/-- ADDI (R213). -/
def execAddi (k : CoreSel) (d a : Fin 16) (imm : BitVec 16) (s : State) : Host.Outcome State Fault Refusal :=
  s.retire k 4 fun s => s.pureOp k fun k => k.wrAdd d (k.r a) (imm.signExtend 32) false

/-- ANDI (R213). -/
def execAndi (k : CoreSel) (d a : Fin 16) (imm : BitVec 16) (s : State) : Host.Outcome State Fault Refusal :=
  s.retire k 4 fun s => s.pureOp k fun k => k.wrNz d (k.r a &&& imm.setWidth 32)

/-- ORI (R213). -/
def execOri (k : CoreSel) (d a : Fin 16) (imm : BitVec 16) (s : State) : Host.Outcome State Fault Refusal :=
  s.retire k 4 fun s => s.pureOp k fun k => k.wrNz d (k.r a ||| imm.setWidth 32)

/-- XORI (R213). -/
def execXori (k : CoreSel) (d a : Fin 16) (imm : BitVec 16) (s : State) : Host.Outcome State Fault Refusal :=
  s.retire k 4 fun s => s.pureOp k fun k => k.wrNz d (k.r a ^^^ imm.setWidth 32)

/-- CMPI (R213). -/
def execCmpi (k : CoreSel) (a : Fin 16) (imm : BitVec 16) (s : State) : Host.Outcome State Fault Refusal :=
  s.retire k 4 fun s => s.pureOp k fun k => k.flagsSub (k.r a) (imm.signExtend 32) false (k.r a - imm.signExtend 32)

/-- SHI: KIND 0 SHL, 1 SHR, 2 SAR, 3 ROR (R213). -/
def execShi (k : CoreSel) (d a : Fin 16) (sh : Fin 32) (kind : Fin 4) (s : State) : Host.Outcome State Fault Refusal :=
  s.retire k 4 fun s => s.pureOp k fun k => if kind.val = 3 then k.wrNz d ((k.r a).rotateRight sh.val)
    else k.wrShift d kind.val (k.r a) sh.val

/-- BFX: P + L above 32 is invalid (R213). -/
def execBfx (k : CoreSel) (d a : Fin 16) (p l1 : Fin 32) (sgn : Bool) (s : State) : Host.Outcome State Fault Refusal :=
  s.retire k 4 fun s => do
    need (decide (p.val + l1.val + 1 ≤ 32))
    s.pureOp k fun k => k.setR d (fieldOf (k.r a) p.val (l1.val + 1) sgn)

/-- BFI: P + L above 32 is invalid (R213). -/
def execBfi (k : CoreSel) (d a : Fin 16) (p l1 : Fin 32) (s : State) : Host.Outcome State Fault Refusal :=
  s.retire k 4 fun s => do
    need (decide (p.val + l1.val + 1 ≤ 32))
    s.pureOp k fun k => k.setR d (insertField (k.r d) (k.r a) p.val (l1.val + 1))

/-- PERM (R213). -/
def execPerm (k : CoreSel) (d a : Fin 16) (sel : BitVec 16) (s : State) : Host.Outcome State Fault Refusal :=
  s.retire k 4 fun s => s.pureOp k fun k => k.setR d (permBytes (k.r d) (k.r a) sel)

/-- SETcc (R213). -/
def execSetcc (k : CoreSel) (d cond : Fin 16) (s : State) : Host.Outcome State Fault Refusal :=
  s.retire k 4 fun s => s.pureOp k fun k => k.setR d (BitVec.ofNat 32 (b2n (k.cond cond)))

/-- CSEL (R213). -/
def execCsel (k : CoreSel) (d a b cond : Fin 16) (s : State) : Host.Outcome State Fault Refusal :=
  s.retire k 4 fun s => s.pureOp k fun k => k.setR d (if k.cond cond then k.r a else k.r b)

/-- FLAT (R213). -/
def execFlat (k : CoreSel) (d a : Fin 16) (bk : Fin 4) (s : State) : Host.Outcome State Fault Refusal :=
  s.retire k 4 fun s => s.pureOp k fun k => k.setR d (BitVec.ofNat 32 ((k.rb bk).toNat * 65536 + (k.r a).toNat % 65536))

/-- MOVI (R218). -/
def execMovi (k : CoreSel) (d : Fin 16) (imm : Word) (s : State) : Host.Outcome State Fault Refusal :=
  s.retire k 6 fun s => s.pureOp k fun k => k.setR d imm

/-- ADDIW (R218). -/
def execAddiw (k : CoreSel) (d a : Fin 16) (imm : Word) (s : State) : Host.Outcome State Fault Refusal :=
  s.retire k 6 fun s => s.pureOp k fun k => k.wrAdd d (k.r a) imm false

/-- ANDIW (R218). -/
def execAndiw (k : CoreSel) (d a : Fin 16) (imm : Word) (s : State) : Host.Outcome State Fault Refusal :=
  s.retire k 6 fun s => s.pureOp k fun k => k.wrNz d (k.r a &&& imm)

/-- CMPIW (R218). -/
def execCmpiw (k : CoreSel) (a : Fin 16) (imm : Word) (s : State) : Host.Outcome State Fault Refusal :=
  s.retire k 6 fun s => s.pureOp k fun k => k.flagsSub (k.r a) imm false (k.r a - imm)

end Sys2Proof.Machine
end

