-- ==== Sys2Proof/Machine/IsaLane.lean ====
section
/-! DEFINITION. The lane instructions (06 R216, R217). -/
namespace Sys2Proof.Machine

/-- Lane `i` of width `w` of a lane register. -/
def laneAt (w : Nat) (v : Lane) (i : Nat) : Nat := v.toNat / 2 ^ (w * i) % 2 ^ w

/-- A per-lane operation on two lane registers, as a number. -/
def lanes2 (w : Nat) (f : Nat → Nat → Nat → Nat) (a b : Lane) : Nat :=
  (List.range (128 / w)).foldl (fun r i => r + f w (laneAt w a i) (laneAt w b i) * 2 ^ (w * i)) 0

/-- A lane as a signed number. -/
def laneInt (w x : Nat) : Int := if x < 2 ^ (w - 1) then x else (x : Int) - 2 ^ w

/-- An arithmetic right shift of a lane. -/
def laneSar (w x n : Nat) : Nat := (laneInt w x / 2 ^ n % 2 ^ w).toNat

/-- VPERM (R216): byte `i` is zero when bit 7 of the selector is 1, else one of the 32 bytes of vA and old vD. -/
def vperm (a old sel : Lane) : Lane :=
  BitVec.ofNat 128 (leNat ((List.range 16).map fun i =>
    let x := laneAt 8 sel i
    if x ≥ 128 then 0 else BitVec.ofNat 8 (if x % 32 < 16 then laneAt 8 a (x % 32) else laneAt 8 old (x % 32 - 16))))

/-- Every lane of width 8 × 2^li takes the low bits of a word (R217, VSPLAT). -/
def splat (li : Nat) (x : Word) : Lane :=
  BitVec.ofNat 128 (lanes2 (8 * 2 ^ li) (fun w _ _ => x.toNat % 2 ^ w) 0 0)

/-- Bit `i` is bit 7 of byte `i` (R217, VMASK). -/
def vmask (v : Lane) : Word := BitVec.ofNat 32 ((List.range 16).foldl (fun r i => r + laneAt 8 v i / 128 * 2 ^ i) 0)

/-- VADD (R216). -/
def execVadd (k : CoreSel) (d a b : Fin 16) (lz : Fin 4) (s : State) : Host.Outcome State Fault Refusal :=
  s.retire k 4 fun s => do
    need (vOk d && vOk a && vOk b)
    s.pureOp k fun k => k.setV d (BitVec.ofNat 128 (lanes2 (8 * 2 ^ lz.val) (fun w x y => (x + y) % 2 ^ w) (k.rv a) (k.rv b)))

/-- VSUB (R216). -/
def execVsub (k : CoreSel) (d a b : Fin 16) (lz : Fin 4) (s : State) : Host.Outcome State Fault Refusal :=
  s.retire k 4 fun s => do
    need (vOk d && vOk a && vOk b)
    s.pureOp k fun k => k.setV d (BitVec.ofNat 128 (lanes2 (8 * 2 ^ lz.val) (fun w x y => (x + 2 ^ w - y) % 2 ^ w) (k.rv a) (k.rv b)))

/-- VAND (R216). -/
def execVand (k : CoreSel) (d a b : Fin 16) (lz : Fin 4) (s : State) : Host.Outcome State Fault Refusal :=
  s.retire k 4 fun s => do
    need (vOk d && vOk a && vOk b && lz.val == 0)
    s.pureOp k fun k => k.setV d (k.rv a &&& k.rv b)

/-- VOR (R216). -/
def execVor (k : CoreSel) (d a b : Fin 16) (lz : Fin 4) (s : State) : Host.Outcome State Fault Refusal :=
  s.retire k 4 fun s => do
    need (vOk d && vOk a && vOk b && lz.val == 0)
    s.pureOp k fun k => k.setV d (k.rv a ||| k.rv b)

/-- VXOR (R216). -/
def execVxor (k : CoreSel) (d a b : Fin 16) (lz : Fin 4) (s : State) : Host.Outcome State Fault Refusal :=
  s.retire k 4 fun s => do
    need (vOk d && vOk a && vOk b && lz.val == 0)
    s.pureOp k fun k => k.setV d (k.rv a ^^^ k.rv b)

/-- VANDN (R216). -/
def execVandn (k : CoreSel) (d a b : Fin 16) (lz : Fin 4) (s : State) : Host.Outcome State Fault Refusal :=
  s.retire k 4 fun s => do
    need (vOk d && vOk a && vOk b && lz.val == 0)
    s.pureOp k fun k => k.setV d (k.rv a &&& ~~~ k.rv b)

/-- VCMPEQ (R216). -/
def execVcmpeq (k : CoreSel) (d a b : Fin 16) (lz : Fin 4) (s : State) : Host.Outcome State Fault Refusal :=
  s.retire k 4 fun s => do
    need (vOk d && vOk a && vOk b)
    s.pureOp k fun k => k.setV d (BitVec.ofNat 128 (lanes2 (8 * 2 ^ lz.val) (fun w x y => if x = y then 2 ^ w - 1 else 0) (k.rv a) (k.rv b)))

/-- VCMPGTU (R216). -/
def execVcmpgtu (k : CoreSel) (d a b : Fin 16) (lz : Fin 4) (s : State) : Host.Outcome State Fault Refusal :=
  s.retire k 4 fun s => do
    need (vOk d && vOk a && vOk b)
    s.pureOp k fun k => k.setV d (BitVec.ofNat 128 (lanes2 (8 * 2 ^ lz.val) (fun w x y => if y < x then 2 ^ w - 1 else 0) (k.rv a) (k.rv b)))

/-- VCMPGTS (R216). -/
def execVcmpgts (k : CoreSel) (d a b : Fin 16) (lz : Fin 4) (s : State) : Host.Outcome State Fault Refusal :=
  s.retire k 4 fun s => do
    need (vOk d && vOk a && vOk b)
    s.pureOp k fun k => k.setV d (BitVec.ofNat 128 (lanes2 (8 * 2 ^ lz.val) (fun w x y => if laneInt w y < laneInt w x then 2 ^ w - 1 else 0) (k.rv a) (k.rv b)))

/-- VMINU (R216). -/
def execVminu (k : CoreSel) (d a b : Fin 16) (lz : Fin 4) (s : State) : Host.Outcome State Fault Refusal :=
  s.retire k 4 fun s => do
    need (vOk d && vOk a && vOk b)
    s.pureOp k fun k => k.setV d (BitVec.ofNat 128 (lanes2 (8 * 2 ^ lz.val) (fun _ x y => min x y) (k.rv a) (k.rv b)))

/-- VMAXU (R216). -/
def execVmaxu (k : CoreSel) (d a b : Fin 16) (lz : Fin 4) (s : State) : Host.Outcome State Fault Refusal :=
  s.retire k 4 fun s => do
    need (vOk d && vOk a && vOk b)
    s.pureOp k fun k => k.setV d (BitVec.ofNat 128 (lanes2 (8 * 2 ^ lz.val) (fun _ x y => max x y) (k.rv a) (k.rv b)))

/-- VSHL (R216). -/
def execVshl (k : CoreSel) (d a b : Fin 16) (lz : Fin 4) (s : State) : Host.Outcome State Fault Refusal :=
  s.retire k 4 fun s => do
    need (vOk d && vOk a && vOk b)
    s.pureOp k fun k => k.setV d (BitVec.ofNat 128 (lanes2 (8 * 2 ^ lz.val) (fun w x y => x * 2 ^ (y % w) % 2 ^ w) (k.rv a) (k.rv b)))

/-- VSHR (R216). -/
def execVshr (k : CoreSel) (d a b : Fin 16) (lz : Fin 4) (s : State) : Host.Outcome State Fault Refusal :=
  s.retire k 4 fun s => do
    need (vOk d && vOk a && vOk b)
    s.pureOp k fun k => k.setV d (BitVec.ofNat 128 (lanes2 (8 * 2 ^ lz.val) (fun w x y => x / 2 ^ (y % w)) (k.rv a) (k.rv b)))

/-- VSAR (R216). -/
def execVsar (k : CoreSel) (d a b : Fin 16) (lz : Fin 4) (s : State) : Host.Outcome State Fault Refusal :=
  s.retire k 4 fun s => do
    need (vOk d && vOk a && vOk b)
    s.pureOp k fun k => k.setV d (BitVec.ofNat 128 (lanes2 (8 * 2 ^ lz.val) (fun w x y => laneSar w x (y % w)) (k.rv a) (k.rv b)))

/-- VPERM (R216). -/
def execVperm (k : CoreSel) (d a b : Fin 16) (lz : Fin 4) (s : State) : Host.Outcome State Fault Refusal :=
  s.retire k 4 fun s => do
    need (vOk d && vOk a && vOk b && lz.val == 0)
    s.pureOp k fun k => k.setV d (vperm (k.rv a) (k.rv d) (k.rv b))

/-- VMOV (R216). -/
def execVmov (k : CoreSel) (d a : Fin 16) (lz : Fin 4) (s : State) : Host.Outcome State Fault Refusal :=
  s.retire k 4 fun s => do
    need (vOk d && vOk a && lz.val == 0)
    s.pureOp k fun k => k.setV d (k.rv a)

/-- VSPLAT (R217). -/
def execVsplat (k : CoreSel) (d a : Fin 16) (li : Fin 4) (s : State) : Host.Outcome State Fault Refusal :=
  s.retire k 4 fun s => do
    need (vOk d)
    s.pureOp k fun k => k.setV d (splat li.val (k.r a))

/-- VEXT (R217). -/
def execVext (k : CoreSel) (d a : Fin 16) (li : Fin 4) (s : State) : Host.Outcome State Fault Refusal :=
  s.retire k 4 fun s => do
    need (vOk a)
    s.pureOp k fun k => k.setR d (BitVec.ofNat 32 (laneAt 32 (k.rv a) li.val))

/-- VINS (R217). -/
def execVins (k : CoreSel) (d a : Fin 16) (li : Fin 4) (s : State) : Host.Outcome State Fault Refusal :=
  s.retire k 4 fun s => do
    need (vOk d)
    s.pureOp k fun k => k.setV d (laneOf (overlay (laneBytes (k.rv d)) (4 * li.val) (leBytes 4 (k.r a).toNat)))

/-- VMASK (R217). -/
def execVmask (k : CoreSel) (d a : Fin 16) (li : Fin 4) (s : State) : Host.Outcome State Fault Refusal :=
  s.retire k 4 fun s => do
    need (vOk a && li.val == 0)
    s.pureOp k fun k => (k.flagZ (vmask (k.rv a) == 0)).setR d (vmask (k.rv a))

end Sys2Proof.Machine
end

