-- ==== Sys2Proof/Machine/IsaMem.lean ====
section
/-! DEFINITION. Memory accesses, branches and calls, bank registers and the privileged instructions (06 R206, R213,
R215, R218, R220, R232, R242 to R245). -/
namespace Sys2Proof.Machine

/-! ## Loads and stores (R215) -/

/-- Are SIZE and S valid (R215)? -/
def sizeOk (size : Fin 4) (sgn : Bool) : Bool := size.val != 3 && !(sgn && size.val == 2)

/-- A load into gD from a banked address (R202, R215). -/
def bankedLoad (k : CoreSel) (d : Fin 16) (bk size : Fin 4) (sgn : Bool) (base : Word) (disp : BitVec 16) (s : State) :
    Except Exn State := do
  need (sizeOk size sgn)
  let (b, t) ← s.load k ((s.core k).rb bk).toNat (bankedOff base disp) (sizeBytes size)
  .ok (t.setG k d (extend b sgn))

/-- A store of gD to a banked address (R202, R215). -/
def bankedStore (k : CoreSel) (d : Fin 16) (bk size : Fin 4) (base : Word) (disp : BitVec 16) (s : State) :
    Except Exn State := do
  need (sizeOk size false)
  s.storeAt k ((s.core k).rb bk).toNat (bankedOff base disp) (leBytes (sizeBytes size) (s.g k d).toNat)

/-- LD (R213, R215). -/
def execLd (k : CoreSel) (d a : Fin 16) (bk size : Fin 4) (sgn : Bool) (disp : BitVec 11) (s : State) : Host.Outcome State Fault Refusal :=
  s.retire k 4 fun s => bankedLoad k d bk size sgn (s.g k a) (disp.signExtend 16) s

/-- ST (R213, R215). -/
def execSt (k : CoreSel) (d a : Fin 16) (bk size : Fin 4) (disp : BitVec 11) (s : State) : Host.Outcome State Fault Refusal :=
  s.retire k 4 fun s => bankedStore k d bk size (s.g k a) (disp.signExtend 16) s

/-- LDX: NB takes base 0, and A must then be 0 (R215, R218). -/
def execLdx (k : CoreSel) (d a : Fin 16) (bk size : Fin 4) (sgn nb : Bool) (off : BitVec 16) (s : State) : Host.Outcome State Fault Refusal :=
  s.retire k 6 fun s => do
    need (!nb || a.val == 0)
    bankedLoad k d bk size sgn (if nb then 0 else s.g k a) off s

/-- STX: NB takes base 0, and A must then be 0 (R215, R218). -/
def execStx (k : CoreSel) (d a : Fin 16) (bk size : Fin 4) (nb : Bool) (off : BitVec 16) (s : State) : Host.Outcome State Fault Refusal :=
  s.retire k 6 fun s => do
    need (!nb || a.val == 0)
    bankedStore k d bk size (if nb then 0 else s.g k a) off s

/-- LDF (R213, R215). -/
def execLdf (k : CoreSel) (d a x : Fin 16) (sc mode size : Fin 4) (sgn : Bool) (s : State) : Host.Outcome State Fault Refusal :=
  s.retire k 4 (ldfOp k d a x sc mode size sgn)

/-- STF (R213, R215). -/
def execStf (k : CoreSel) (d a x : Fin 16) (sc mode size : Fin 4) (s : State) : Host.Outcome State Fault Refusal :=
  s.retire k 4 (stfOp k d a x sc mode size)

/-- VLD (R213, R215). -/
def execVld (k : CoreSel) (d a : Fin 16) (bk : Fin 4) (f : Bool) (disp : BitVec 12) (s : State) : Host.Outcome State Fault Refusal :=
  s.retire k 4 (vldOp k d a bk f disp)

/-- VST (R213, R215). -/
def execVst (k : CoreSel) (d a : Fin 16) (bk : Fin 4) (f : Bool) (disp : BitVec 12) (s : State) : Host.Outcome State Fault Refusal :=
  s.retire k 4 (vstOp k d a bk f disp)

/-- CPY (R213, R215). -/
def execCpy (k : CoreSel) (d a : Fin 16) (size : Fin 4) (s : State) : Host.Outcome State Fault Refusal :=
  s.retire k 4 (cpyOp k d a size)

/-! ## Atomic operations (R232) -/

/-- One read-modify-write of the aligned word at window bK, offset gA[15:0]: gD takes the old word (R232). The grants to
read and to write come before poison (R237). -/
def amoOp (k : CoreSel) (d a : Fin 16) (bk : Fin 4) (new : Word → Word) (s : State) : Except Exn State := do
  let w := ((s.core k).rb bk).toNat
  let off := bankedOff (s.g k a) 0
  let x ← s.access k w off 4 4 .load none
  let _ ← s.access k w off 4 4 .store none
  let (b, t) ← s.winRead k x w off 4
  let old := extend b false
  let t ← t.winWrite k x w off (leBytes 4 (new old).toNat)
  .ok (t.setG k d old)

/-- AMO AADD (R232). -/
def execAadd (k : CoreSel) (d a src : Fin 16) (bk : Fin 4) (s : State) : Host.Outcome State Fault Refusal :=
  s.retire k 4 fun s => amoOp k d a bk (fun old => old + (s.g k src)) s

/-- AMO ASWP (R232). -/
def execAswp (k : CoreSel) (d a src : Fin 16) (bk : Fin 4) (s : State) : Host.Outcome State Fault Refusal :=
  s.retire k 4 fun s => amoOp k d a bk (fun _ => (s.g k src)) s

/-- AMO ACAS: Z says that it stored (R232). -/
def execAcas (k : CoreSel) (d a src : Fin 16) (bk : Fin 4) (s : State) : Host.Outcome State Fault Refusal :=
  s.retire k 4 fun s => do
    let want := s.g k d
    let t ← amoOp k d a bk (fun old => if old = want then s.g k src else old) s
    t.pureOp k fun c => c.flagZ (c.r d == want)

/-- AMO AAND (R232). -/
def execAand (k : CoreSel) (d a src : Fin 16) (bk : Fin 4) (s : State) : Host.Outcome State Fault Refusal :=
  s.retire k 4 fun s => amoOp k d a bk (fun old => old &&& (s.g k src)) s

/-- AMO AOR (R232). -/
def execAor (k : CoreSel) (d a src : Fin 16) (bk : Fin 4) (s : State) : Host.Outcome State Fault Refusal :=
  s.retire k 4 fun s => amoOp k d a bk (fun old => old ||| (s.g k src)) s

/-- AMO AMAXU (R232). -/
def execAmaxu (k : CoreSel) (d a src : Fin 16) (bk : Fin 4) (s : State) : Host.Outcome State Fault Refusal :=
  s.retire k 4 fun s => amoOp k d a bk (fun old => if old.toNat < (s.g k src).toNat then (s.g k src) else old) s

/-! ## Branches and calls (R206, R213, R218, R220) -/

/-- MTBI (R205, R213). -/
def execMtbi (k : CoreSel) (bk : Fin 4) (imm : BitVec 16) (s : State) : Host.Outcome State Fault Refusal :=
  s.retire k 4 fun s =>
    if s.bankOk k imm then s.pureOp k fun c => c.setB bk imm
    else .error (exnWindow (BitVec.ofNat 32 (imm.toNat * 65536)))

/-- B.cc (R213). -/
def execBcc (k : CoreSel) (cond : Fin 16) (off : BitVec 20) (s : State) : Host.Outcome State Fault Refusal :=
  s.retireTo k 4 false fun s =>
    let c := s.core k
    .ok (s, if c.cond cond then c.pc + (off.signExtend 32) * 2 else c.pc + 4)

/-- Stores registers at ascending words (R220). -/
def saveRegs (k : CoreSel) : List (Fin 16) → Word → State → Except Exn State
  | [], _, s => .ok s
  | i :: r, a, s => do
    let s ← s.storeFlat k a (leBytes 4 (s.g k i).toNat) 4
    saveRegs k r (a + 4) s

/-- The frame of CALL and CALLR (R220): registers saved, g14 and g15 set; `next` is the address after the call. -/
def callFrame (k : CoreSel) (mask : BitVec 16) (next : Word) (s : State) : Except Exn State := do
  need (decide (mask.toNat < 2 ^ 14))
  let frame := s.g k 14 - BitVec.ofNat 32 (8 + 4 * (maskRegs mask.toNat).length)
  let t ← s.storeFlat k frame (leBytes 4 (s.g k 15).toNat) 4 (some (s.core k).slimit)
  let t ← t.storeFlat k (frame + 4) (leBytes 4 mask.toNat) 4
  let t ← saveRegs k (maskRegs mask.toNat) (frame + 8) t
  .ok ((t.setG k 14 frame).setG k 15 next)

/-- CALLR: bit 0 of the PC is always 0 (R199) (R220). -/
def execCallr (k : CoreSel) (a : Fin 16) (mask : BitVec 16) (s : State) : Host.Outcome State Fault Refusal :=
  s.retireTo k 4 true fun s => do
    let t ← callFrame k mask ((s.core k).pc + 4) s
    .ok (t, s.g k a &&& 0xFFFFFFFE#32)

/-- CALL (R218, R220). -/
def execCall (k : CoreSel) (mask off : BitVec 16) (s : State) : Host.Outcome State Fault Refusal :=
  s.retireTo k 6 false fun s => do
    let t ← callFrame k mask ((s.core k).pc + 6) s
    .ok (t, (s.core k).pc + (off.signExtend 32) * 2)

/-! ## Privileged instructions (R242 to R245) -/

/-- The control registers of R242 by number; none for another number. -/
def Core.cr (k : Core) (core : CoreSel) (cr : Nat) : Option Word :=
  match cr with
  | 0 => some k.psw
  | 1 => some k.epc
  | 2 => some k.ecause
  | 3 => some k.einfo
  | 4 => some k.evec
  | 5 => some k.epsw
  | 6 => some k.slimit
  | 7 => some k.icount
  | 8 => some k.ibudget
  | 9 => some k.wtb
  | 10 => some (match core with
    | .ctrl c => BitVec.ofNat 32 c.val
    | .crumb _ => 0)
  | _ => none

/-- A write of a control register (R242): PRIV and CORE_ID are read-only, WTB is a multiple of 4 KiB. -/
def Core.setCr (k : Core) (cr : Nat) (w : Word) : Core :=
  match cr with
  | 0 => { k.setPsw w with priv := k.priv }
  | 1 => { k with epc := w }
  | 2 => { k with ecause := w }
  | 3 => { k with einfo := w }
  | 4 => { k with evec := w }
  | 5 => { k with epsw := w }
  | 6 => { k with slimit := w }
  | 7 => { k with icount := w }
  | 8 => { k with ibudget := w }
  | 9 => { k with wtb := w &&& 0xFFFFF000#32 }
  | _ => k

/-- Is it the number of a control register? -/
def crOk (cr : BitVec 16) : Bool := decide (cr.toNat ≤ 10)

/-- MFC (R213, R242). -/
def execMfc (k : CoreSel) (d : Fin 16) (cr : BitVec 16) (s : State) : Host.Outcome State Fault Refusal :=
  s.retire k 4 fun s => do
    need (crOk cr)
    s.needPriv k
    s.pureOp k fun c => c.setR d ((c.cr k cr.toNat).getD 0)

/-- MTC (R213, R242). -/
def execMtc (k : CoreSel) (a : Fin 16) (cr : BitVec 16) (s : State) : Host.Outcome State Fault Refusal :=
  s.retire k 4 fun s => do
    need (crOk cr)
    s.needPriv k
    s.pureOp k fun c => c.setCr cr.toNat (c.r a)

/-- RFT: PSW and PC from EPSW and EPC; INVALID when the EXL of a control core is 0, in user mode too (R212, R239, R244). -/
def execRft (k : CoreSel) (s : State) : Host.Outcome State Fault Refusal :=
  s.retireTo k 2 true fun s => do
    need (match k with
      | .crumb _ => true
      | .ctrl _ => (s.core k).exl)
    s.needPriv k
    let pc := (s.core k).epc
    evenTarget pc
    let t ← s.pureOp k fun c => c.setPsw c.epsw
    .ok (t, pc)

/-- IDLE (R212, R245): it retires when an interrupt is pending, and waits otherwise. -/
def execIdle (k : CoreSel) (s : State) : Host.Outcome State Fault Refusal :=
  let waits := match k with
    | .ctrl c => s.atInsn k 2 && !s.user k && (s.ccore c).irqs.isEmpty
    | .crumb _ => false
  if waits then
    match k with
    | .ctrl c => .next (s.modCcore c fun x => { x with idle := true })
    | .crumb _ => .next s
  else s.retire k 2 fun s => do
    s.needPriv k
    .ok s

/-- CONTROL_CORE_INTERRUPT (R245). -/
def execControlCoreInterrupt (core : Fin 4) (irq : Fin 256) (s : State) : Host.Outcome State Fault Refusal :=
  .next (s.interrupt core irq.val)

/-- User code on a control core has reached IBUDGET: the core traps with ECAUSE 0xFF as an exception (R243). -/
def execIbudgetTrap (core : Fin 4) (s : State) : Host.Outcome State Fault Refusal :=
  let x := s.ccore core
  if x.st = 1 ∧ !x.halted ∧ !x.idle ∧ s.spent (.ctrl core) then
    .next (s.modCcore core fun x =>
      if x.core.exl then { x with halted := true } else { x with core := x.core.trap 0xFF#32 0 x.core.pc })
  else .next s

end Sys2Proof.Machine
end

