-- ==== Sys2Proof/Machine/KeyCmds.lean ====
section
/-! DEFINITION. KEY_LOAD and its erases (08 R290 to R293). -/
namespace Sys2Proof.Machine

/-- A KEY_LOAD of an OP, ready to run. -/
def State.keyCmd (s : State) (tag op : Nat) : Option Cmd :=
  (s.ready tag 0xF8).filter fun c => c.pkt.keyOp == op

/-- KEY_LOAD (R291, R292): a device key is answered when the key record that holds it has been written; a tenant key's
first fingerprint is durable before its reply. -/
def execKeyLoad (tag : Nat) (s : State) : Host.Outcome State Fault Refusal :=
  match s.keyCmd tag 0 with
  | none => .next s
  | some c => match s.keyCheck c.pkt c.data with
    | .error e => .next (s.failKey c e.1 e.2)
    | .ok b =>
      if c.pkt.keyTenant = 0 then
        .next (((s.installDevice c.pkt b).launch tag fun c => { c with ref := 1 }).writeKeyRecord false c.tag)
      else
        let slot := keySlot c.pkt.keyTenant c.pkt.keyKey
        if s.keys.fingerprints.has slot then .next ((s.installTenant c.pkt b).complete c .ok 0 0 0)
        else
          let sq := (s.launch tag).takeSeq
          let page := sq.2.nextCommit
          let ng := ({ sq.2 with nextCommit := page + 1 } : State).newGroup
          let g : Group := ⟨ng.1, .metadata tag, [(deviceHeader 9 sq.1 page, padTo (leBytes 2 slot ++ fingerprint b) 4096)], [], 0, [], 7⟩
          match (ng.2.modCmd tag fun c => { c with groups := [ng.1] }).placeGroup (page % 4) .metadata true g with
          | some t => .next t
          | none => .next (s.fail c .writeFailed)

/-- Empties both slots of a tenant and clears their fingerprints (R293). -/
def State.emptyTenantKeys (s : State) (t : Nat) : State :=
  s.modKeys fun k => { k with
    tenant := (k.tenant.del (keySlot t 0)).del (keySlot t 1)
    fingerprints := (k.fingerprints.del (keySlot t 0)).del (keySlot t 1) }

/-- The delete records of every container of a tenant: each live space and namespace; none where one cannot be
placed. -/
def State.deleteAll (s : State) (tag t : Nat) : Option State :=
  let sps := ((s.tenant t).spaces.filter fun e => e.2.live).map Prod.fst
  let nss := (s.tenant t).nss.map Prod.fst
  let add (k : RecordKind) (acc : Option State) (n : Nat) : Option State :=
    acc.bind fun s => (s.takeSeq.2).addRecord tag t n k s.takeSeq.1
  nss.foldl (add .nsDelete) (sps.foldl (add .spaceDelete) (some s))

/-- ERASE_TENANT (R293): only for a Disabled tenant; the reply follows the durable delete records. The error log is
emptied, and its numbers go on (03 R92). -/
def execEraseTenant (tag : Nat) (s : State) : Host.Outcome State Fault Refusal :=
  match s.keyCmd tag 1 with
  | none => .next s
  | some c =>
    let t := c.pkt.keyTenant
    if (s.tenant t).state ≠ .disabled then .next (s.failKey c 1 .invalidField)
    else
      let n := ((s.tenant t).spaces.filter fun e => e.2.live).length + (s.tenant t).nss.length
      let s := (s.emptyTenantKeys t).modTenant t fun x => { x with errors := [] }
      if n = 0 then .next (s.complete c .ok 0 0 0)
      else match (s.launch tag fun c => { c with left := n }).deleteAll tag t with
        | some s => .next s
        | none => .next (s.fail c .writeFailed)

/-- ERASE_DEVICE (R293; its mode was judged with its packet, 03 R115): empties D0 or D1; without D1 Firon Link stops (12 R418). The reply follows the
key record. -/
def execEraseDevice (tag : Nat) (s : State) : Host.Outcome State Fault Refusal :=
  match s.keyCmd tag 2 with
  | none => .next s
  | some c =>
    let k := c.pkt.keyKey
    let s := s.modKeys fun x => { x with device := x.device.del k, prevD1 := if k = 1 then none else x.prevD1 }
    let s := if k = 1 then s.disableLink else s
    .next ((s.launch tag fun c => { c with ref := 1 }).writeKeyRecord false c.tag)

end Sys2Proof.Machine
end

