-- ==== Sys2Proof/Machine/MediaCmds.lean ====
section
/-! DEFINITION. RAW_MEDIA, SANITIZE and the health summary (10 R370, R376, R377). -/
namespace Sys2Proof.Machine

/-! ## RAW_MEDIA (R376) -/

/-- The fields of a media address (R346). -/
structure MediaRef where
  sector : Nat
  page : Nat
  block : Nat
  die : Nat
  chan : Nat
deriving DecidableEq, Repr

/-- The media address a RAW_MEDIA command names. -/
def mediaRef (a : Nat) : MediaRef := ⟨bitsOf a 2 0, bitsOf a 16 3, bitsOf a 32 17, bitsOf a 37 33, bitsOf a 45 38⟩

/-- The slot of a media address. -/
def MediaRef.slot (r : MediaRef) : Nat := r.chan / 8

/-- Is an address valid for an operation of RAW_MEDIA: its form, and the card's geometry? `parts` are the fields the
operation uses: page, then sector and block. -/
def MediaRef.ok (r : MediaRef) (a : Nat) (g : CardInfo) (block page sector : Bool) : Bool :=
  decide (a / 2 ^ 63 = 1) && bitsOf a 62 48 == 0 && (sector || bitsOf a 47 46 == 0) && decide (r.chan < 192) && g.dieList.contains r.die &&
  (if block then decide (r.block < g.blocksPerLun) else r.block == 0) &&
  (if page then decide (r.page < g.pagesPerBlock) else r.page == 0) &&
  (if sector then decide (r.sector < g.pageBytes / 4096) else r.sector == 0)

/-- A RAW_MEDIA command ready to run, with the card it names: INVALID_FIELD where the address is outside the geometry,
RETRY is above the card's steps, the slot is neither Online nor Offline, or a write meets a slot that is not Offline
(R376). -/
def State.rawMedia (s : State) (tag op : Nat) (block page sector offline : Bool) : Except State (Cmd × MediaRef × CardInfo) :=
  match s.ready tag 0xFB with
  | none => .error s
  | some c =>
    if bitsOf c.pkt.aux 2 0 ≠ op then .error s
    else
      let a := c.pkt.fld 24 8
      let r := mediaRef a
      let k := s.card r.slot
      match k.info with
      | none => .error (s.fail c .invalidField)
      | some g =>
        if !r.ok a g block page sector || decide (c.pkt.fld 32 1 > g.rrSteps) || !(k.state == 5 || !offline && k.state == 3) then
          .error (s.fail c .invalidField)
        else .ok (c, r, g)

/-- Powers an Offline slot for a command and powers it off after it (R376); the command's codes go to the die (R333). -/
def State.poweredFor (s : State) (r : MediaRef) (codes : List Nat) (f : State → State) : State :=
  let key := dieKey r.slot (r.chan % 8) r.die
  if (s.card r.slot).state = 5 then (f ((s.cardPower r.slot true).onfi key codes)).cardPower r.slot false else f (s.onfi key codes)

/-- `n` free bytes, at the free value at hand. -/
def State.freeBytes (s : State) (n : Nat) : List Byte := (List.range n).map fun i => Config.freeByte s.fresh i

/-- The sector the model holds at an address. -/
def State.sectorAt (s : State) (a : Nat) : Option Sector :=
  s.flash.sectors.find? fun x => s.addrOf x == a && !s.unitLost x

/-- The root record that a card's root blocks hold (R363): a device metadata sector of which the spec gives no layout. -/
def State.rootSector (s : State) (r : MediaRef) (g : CardInfo) : Option Sector :=
  if r.chan % 8 = 0 ∧ r.die = 0 ∧ (s.rootBlocks g r.slot).contains (r.block / max g.planes 1 * g.planes) then
    (s.flash.roots.look r.slot).map fun q =>
      ⟨0, 0, 0, r.slot, 0, deviceHeader 9 q q, (List.range 4096).map fun i => Config.rootByte q i, []⟩
  else none

/-- READ_SECTOR: the sector as stored, then its header; whether a sector decodes at the levels asked for is a free
choice. A place that holds none does not decode; which pages of a root block hold its record is not given, so that any
may. -/
def execReadSector (tag : Nat) (s : State) : Host.Outcome State Fault Refusal :=
  match s.rawMedia tag 0 true true true false with
  | .error s => .next s
  | .ok (c, r, g) =>
    let decodes := s.choice 2 == 0
    let found := match s.sectorAt (mediaAddr r.sector r.page r.block r.die r.chan 0) with
      | some x => some x
      | none => s.rootSector r g
    let s := s.tick
    match found with
    | some x =>
      if decodes then .next (s.poweredFor r [0x00, 0x30, 0x78, 0x06, 0xE0] fun s => s.deliver c x.stored 0 0 0)
      else .next (s.poweredFor r [0x00, 0x30, 0x78, 0x06, 0xE0] fun s => s.fail c .unrecoveredRead)
    | none => .next (s.poweredFor r [0x00, 0x30, 0x78, 0x06, 0xE0] fun s => s.fail c .unrecoveredRead)

/-- READ_RAW: the page as read; its bytes are free, since the codeword of R345 is not given. -/
def execReadRaw (tag : Nat) (s : State) : Host.Outcome State Fault Refusal :=
  match s.rawMedia tag 1 true true false false with
  | .error s => .next s
  | .ok (c, r, _) => .next (s.poweredFor r [0x00, 0x30, 0x78] fun s => (s.tick).deliver c (s.freeBytes c.pkt.dataLen) 0 0 0)

/-- READ_PARAM: the first parameter page copy; what the page holds beyond R339 is not given: free bytes. -/
def execReadParam (tag : Nat) (s : State) : Host.Outcome State Fault Refusal :=
  match s.rawMedia tag 2 false false false false with
  | .error s => .next s
  | .ok (c, r, _) => .next (s.poweredFor r [0xEC] fun s => (s.tick).deliver c (s.freeBytes 256) 0 0 0)

/-- READ_ID: 8 bytes from address 00h, whose first is the manufacturer and whose others are free, "ONFI", 4 zero
bytes. -/
def execReadId (tag : Nat) (s : State) : Host.Outcome State Fault Refusal :=
  match s.rawMedia tag 3 false false false false with
  | .error s => .next s
  | .ok (c, r, g) => .next (s.poweredFor r [0x90, 0x90] fun s =>
      (s.tick).deliver c (leBytes 1 g.jedec ++ s.freeBytes 7 ++ [0x4F, 0x4E, 0x46, 0x49] ++ zeros 4) 0 0 0)

/-- PROGRAM_RAW on an Offline slot, not in Power-Fail (R375): the model keeps no raw page, and whether it is read again is free (READ_RAW). -/
def execProgramRaw (tag : Nat) (s : State) : Host.Outcome State Fault Refusal :=
  match s.rawMedia tag 4 true true false true with
  | .error s => .next s
  | .ok (c, r, _) =>
    if s.modes.powerFail then .next s
    else .next (s.poweredFor r [0x80, 0x10, 0x78] fun s =>
      (s.modCard r.slot fun k => { k with programs := k.programs + 1 }).complete c .ok 0 0 0)

/-- ERASE on an Offline slot, not in Power-Fail (R375). -/
def execErase (tag : Nat) (s : State) : Host.Outcome State Fault Refusal :=
  match s.rawMedia tag 5 true false false true with
  | .error s => .next s
  | .ok (c, r, g) =>
    let key := blockKey r.slot (r.chan % 8) r.die (r.block / max g.planes 1 * g.planes)
    if s.modes.powerFail then .next s
    else .next (s.poweredFor r [0x60, 0xD0, 0x78] fun s =>
      let s := s.modFlash fun f => { f with wear := f.wear.put key (f.wear.lookD key 0 + 1) }
      (s.modCard r.slot fun k => { k with erases := k.erases + 1 }).complete c .ok 0 0 0)

/-! ## SANITIZE (R377) -/

/-- The message whose HMAC a SANITIZE token is. -/
def sanitizeMessage (nonce : List Byte) : List Byte :=
  [0x56, 0x4B, 0x53, 0x4E] ++ (List.range 16).map Config.serial ++ nonce ++ zeros 4

/-- SANITIZE (its mode was judged with its packet, 03 R115): after its checks the marker is written; FT_NONCE takes a new value whether they pass or not. -/
def execSanitize (tag : Nat) (s : State) : Host.Outcome State Fault Refusal :=
  match s.ready tag 0xFC with
  | none => .next s
  | some c =>
    let nonce := sliceB c.pkt.body 0 8
    let pass := match s.keys.device.look 2 with
      | some k => (hmacSha256 k.key (sanitizeMessage nonce)).take 16 == sliceB c.pkt.body 8 16 &&
          leNat nonce == s.flash.nonce.toNat
      | none => false
    let t := (s.modFlash fun f => { f with nonce := s.free }).tick
    if pass then .next ((t.launch tag fun c => { c with ref := 1 }).writeKeyRecord true c.tag)
    else .next (t.fail c .notPermitted)

/-! ## GET_LOG AUX 1 (R370) -/

/-- The mean erase count of a slot's blocks as % of ENDURANCE, to 255; blocks of which the model lists no erase count
0. -/
def State.slotWear (s : State) (n : Nat) : Nat :=
  match (s.card n).info with
  | none => 0
  | some g =>
    let blocks := 8 * g.dies * (g.blocksPerLun / max g.planes 1)
    let sum := (List.filter (fun (e : Nat × Nat) => e.1 / 65536 / 256 == n) s.flash.wear).foldl (fun a e => a + e.2) 0
    min 255 (sum * 100 / max (blocks * g.endurance) 1)

/-- WEAR_PCT: the mean over the slots in service. -/
def State.wearPct (s : State) : Nat :=
  let l := s.inService
  min 255 ((l.map s.slotWear).sum / max l.length 1)

/-- MAX_WEAR_PCT. -/
def State.maxWear (s : State) : Nat :=
  s.flash.wear.foldl (fun a e => match (s.card (e.1 / 65536 / 256)).info with
    | some g => max a (min 255 (e.2 * 100 / max g.endurance 1))
    | none => a) 0

/-- SPARE_PCT: what the first provision had is not in the spec, so the percentage is a free value to 100; before Discovery it
has its reset value. -/
def State.sparePct (s : State) : Nat := if s.awake then s.free.toNat % 101 else 0

/-- A counter that saturates at its width. -/
def satLe (n v : Nat) : List Byte := leBytes n (min v (256 ^ n - 1))

/-- The 64 bytes of a slot in the health summary. -/
def State.slotHealth (s : State) (n : Nat) : List Byte :=
  let c := s.card n
  let on := c.info.isSome
  leBytes 1 c.state ++ leBytes 1 c.rate ++ leBytes 1 ((c.info.map CardInfo.dies).getD 0) ++ leBytes 1 c.reject ++
  ((c.info.map CardInfo.serial).getD (zeros 16)) ++ leBytes 1 (if on then s.slotWear n else 0) ++ zeros 3 ++
  satLe 4 c.grownBad ++ satLe 4 c.factoryBad ++ satLe 8 c.programs ++ satLe 8 c.erases ++ satLe 8 c.uncorrectable ++ zeros 8

/-- FLAGS of the health summary. -/
def State.healthFlags (s : State) : Nat :=
  b2n s.flash.roWear + 2 * b2n s.roCards + 4 * b2n s.degradedOn +
  8 * b2n ((List.range 24).any fun n => (s.card n).state == 4) + 16 * b2n s.flash.fullScan

/-- The health summary of 4,096 bytes. -/
def State.healthSummary (s : State) : List Byte :=
  let h := s.flash.health
  let head := leBytes 1 1 ++ leBytes 1 s.modes.mode.num ++ leBytes 1 s.inService.length ++ leBytes 1 s.sparePct ++
    leBytes 1 s.wearPct ++ leBytes 1 s.maxWear ++ leBytes 2 s.healthFlags ++ satLe 8 s.flash.usable ++ satLe 8 s.liveBytes ++
    satLe 8 h.hostWritten ++ satLe 8 h.hostRead ++ satLe 8 h.programmed ++ satLe 8 h.gcProgrammed ++ satLe 8 h.unrecovered ++
    satLe 8 h.rebuilds ++ satLe 8 h.retries ++ satLe 4 h.grownBad ++ satLe 4 h.lastRebuildMs ++ satLe 8 s.flash.seq
  padTo (padTo head 512 ++ (List.range 24).flatMap s.slotHealth) 4096

/-- GET_LOG AUX 1: OFFSET 0 only; a tenant function fails with NOT_PERMITTED (04 R152). -/
def execGetLogHealth (tag : Nat) (s : State) : Host.Outcome State Fault Refusal :=
  match s.ready tag 0x04 with
  | none => .next s
  | some c =>
    if c.pkt.aux ≠ 1 then .next s
    else if c.fn ≠ 0 then .next (s.fail c .notPermitted)
    else if c.pkt.fld 24 8 ≠ 0 then .next (s.fail c .invalidField)
    else .next ((s.tick).deliver c (s.healthSummary.take c.pkt.dataLen) (min 4096 c.pkt.dataLen) 0 0)

end Sys2Proof.Machine
end

