-- ==== Sys2Proof/Machine/RegOps.lean ====
section
/-! DEFINITION. What the registers read as: the management space of function 0 (01 R24 and the register tables of the
chapters) and a function's own registers on a port (04 R127). -/
namespace Sys2Proof.Machine

/-- A number as a register value. -/
def rv (n : Nat) : Reg := BitVec.ofNat 64 n

/-- A number of `w` bits in two's complement. -/
def twos (w : Nat) (t : Int) : Nat := (t % (2 ^ w : Nat)).toNat

/-! ## Codes of states -/

/-- CRB_STATE.STATE (05). -/
def CrumbState.num : CrumbState → Nat
  | .offline => 0
  | .idle => 1
  | .running => 2
  | .scrubbing => 3
  | .recovering => 4
  | .retired => 5

/-- STATE_C and STATE_D of RLR_PAIR (07). -/
def HalfState.num : HalfState → Nat
  | .offline => 0
  | .idle => 1
  | .running => 2
  | .recovering => 3
  | .retired => 4

/-- Bits `0` to `n − 1` set where a test holds. -/
def bitMap (n : Nat) (p : Nat → Bool) : Nat := (List.range n).foldl (fun m i => m + 2 ^ i * b2n (p i)) 0

/-! ## The management space, by chapter -/

/-- DEV_STATUS (13). -/
def Modes.devStatus (m : Modes) : Nat :=
  b2n m.cfgDefaulted + 2 * b2n m.cfgCopyB + 4 * b2n m.fwFallback + 8 * b2n m.unclean + 16 * b2n m.sanitizeResumed +
    32 * b2n m.locked + 64 * b2n m.qlimit + 128 * b2n m.actFailed

/-- CFG_STATUS (13). -/
def Cfg.status (c : Cfg) : Nat :=
  c.source + 16 * c.failA + 256 * c.failB + 4096 * c.fwSlot + 8192 * b2n c.download.active + 16384 * c.download.target +
    32768 * b2n c.fwPending.isSome + 65536 * c.download.fail

/-- CLK_STATUS (01): a PLL that runs is locked unless it has lost lock. -/
def State.clkStatus (s : State) : Nat :=
  let lock (p : Nat) : Bool := s.serdesRuns p && s.modes.serdesLock.lookD p true
  b2n s.modes.rootLock + 2 * bitMap 6 lock + 256 * b2n s.modes.rootLol + 512 * b2n s.modes.serdesLol + 65536 * s.modes.lolCount

/-- HK_STATUS (14). -/
def State.hkStatus (s : State) : Nat :=
  twos 11 s.hk.tj + 4096 * s.hk.step + 65536 * b2n s.hk.warn + 2 ^ 17 * b2n s.hk.trip +
    2 ^ 24 * ((List.range 48).filter fun i => (s.sensor i).failed).length

/-- HK_EVENTS (14). -/
def Housekeeping.events (h : Housekeeping) : Nat :=
  b2n h.evWarn + 2 * b2n h.evThrottle + 4 * b2n h.evSensor + 8 * b2n h.evRail + 16 * b2n h.evCcore

/-- HK_TEMP, HK_CARD_TEMP and HK_RAIL (14). -/
def State.hkTemp (s : State) (i : Nat) : Nat :=
  twos 11 (s.sensor i).temp + 32768 * b2n (s.sensor i).failed + 65536 * (s.sensor i).count

/-- HK_CARD_TEMP (14). -/
def State.hkCardTemp (s : State) (i : Nat) : Nat :=
  let t := s.hk.cardTemps.lookD i CardTemp.init
  twos 11 (quarters t.temp) + 32768 * b2n t.valid

/-- HK_RAIL (14). -/
def State.hkRail (s : State) (i : Nat) : Nat := (s.hk.rails.lookD i Rail.init).mv + 65536 * (s.hk.rails.lookD i Rail.init).current

/-- The oldest record of the circulating area, 0 for none (14). -/
def EvRecorder.oldest (e : EvRecorder) : Nat := (e.circ.getLast?.map EvRec.number).getD 0

/-- FN_STATE (04). -/
def State.fnState (s : State) (n : Nat) : Nat :=
  let t := s.tenant n
  t.state.num + 4 * b2n (s.vfOn .a n) + 8 * b2n (s.vfOn .b n) + 16 * b2n t.dlog.on + 32 * b2n t.dlog.overflow + 256 * t.reject

/-- A shadow or active setting, by its register's place among the five (04 R133). -/
def Settings.nth (x : Settings) : Nat → Reg
  | 0 => x.limits
  | 1 => x.ctx
  | 2 => x.resv
  | 3 => x.inact
  | _ => x.sieve

/-- PRF_STATUS (05). -/
def State.prfStatus (s : State) : Nat :=
  (s.crumbs.filter fun c => c.2.online).length + 65536 * (s.jobs.filter fun j => j.st == .running).length

/-- CRB_STATE (05). -/
def State.crbState (s : State) (c : Nat) : Nat :=
  (s.crumb c).st.num + 16 * (s.crumb c).deque.length + 65536 * (s.crumb c).lastTenant

/-- SV_BANK_CFG (09). -/
def State.svBankCfg (s : State) (b : Nat) : Nat := (s.bank b).use.toNat + 16 * b2n (s.bank b).longest

/-- DG_ENG (08). -/
def State.dgEng (s : State) (e : Nat) : Nat :=
  (s.engine e).st + 16 * (s.resident e).length + 4096 * min (s.waiters e).length 4095

/-- KS_SLOT (08). -/
def State.ksSlot (s : State) (i : Nat) : Nat :=
  match s.keys.tenant.look i with
  | some k => 1 + 2 * b2n (s.keys.fingerprints.has i) + 4 * (k.usage.toNat % 4) + 256 * (k.key.length / 8 - 1)
  | none => 2 * b2n (s.keys.fingerprints.has i)

/-- RLR_STATUS (07). -/
def State.rlrStatus (s : State) : Nat :=
  let on (c : Bool) : Nat := ((List.range 64).filter fun p => s.halfOn p c).length
  let waiting := s.rollers.foldl (fun n p => n + (List.filter (fun (j : Nat × RollerJob) => j.2.waiting) p.2.ring).length) 0
  on true + 256 * on false + 65536 * waiting

/-- RLR_PAIR and RLR_ERR (07). -/
def State.rlrPair (s : State) (p : Nat) : Nat :=
  (s.roller p).stC.num + 16 * (s.roller p).stD.num + 256 * (s.roller p).ring.length

/-- RLR_ERR (07). -/
def State.rlrErr (s : State) (p : Nat) : Nat :=
  let r := s.roller p
  r.errSlot + 4096 * r.errCode + 32768 * b2n r.errNew + 65536 * r.errBlock

/-- FT_STATUS (10). -/
def State.ftStatus (s : State) : Nat :=
  s.inService.length + 256 * b2n (s.modes.mode == .rebuild) + 512 * b2n s.flash.fullScan + 1024 * b2n s.degraded +
    2048 * b2n s.flash.roWear + 4096 * b2n (s.awake && s.roCards)

/-- FCH_CARD (10). -/
def State.fchCard (s : State) (n : Nat) : Nat :=
  let c := s.card n
  c.state + 16 * c.rate + 256 * ((c.info.map CardInfo.dies).getD 0) + 65536 * c.reject

/-- FCH_CARD_ERR (10). -/
def Card.errs (c : Card) : Nat := b2n c.errRemoved + 2 * b2n c.errTimeout + 4 * b2n c.errI2c + 8 * b2n c.errTemp

/-- FCH_CHAN (10). -/
def State.fchChan (s : State) (c : Nat) : Nat :=
  let slot := c / 8
  let failed := match (s.card slot).info with
    | some g => (g.dieList.filter fun d => (s.die (dieKey slot (c % 8) d)).failed).length
    | none => 0
  (if s.chanFailed slot (c % 8) then 2 else if (s.card slot).serves then 1 else 0) + 256 * failed +
    65536 * (s.flash.chanRetry.lookD c 0 % 16)

/-- MEM_STATUS (11). -/
def State.memStatus (s : State) : Nat :=
  let failed := (s.mem.ctrls.filter fun c => c.2.st == 2).length
  ((List.range 8).filter fun n => (s.stack n).st == 1).length + 16 * failed + 8192 * b2n (decide (failed ≠ 0)) +
    65536 * bitMap 8 fun n => (s.stack n).st == 2

/-- MEM_STACK (11). -/
def State.memStack (s : State) (n : Nat) : Nat :=
  let x := s.stack n
  x.st + 16 * x.band + 256 * twos 8 x.temp + 65536 * b2n x.double +
    2 ^ 17 * ((stackCtrls n).filter fun c => (s.ctrl c).st == 2).length

/-- MEM_PC (11). -/
def State.memPc (s : State) (c : Nat) : Nat :=
  let k := s.ctrl c
  k.st + 4 * b2n k.double + 16 * k.debt + 512 * k.merge.length + 65536 * k.cause

/-- MEM_REMAP (11), by stack × 4,096 + entry. -/
def State.memRemap (s : State) (i : Nat) : Nat :=
  let e := s.remapEntry (i / 4096) (i % 4096)
  e.st + 256 * e.old + 2 ^ 32 * e.new

/-- FL_PEER (12). -/
def State.flPeer (s : State) (p : Nat) : Nat :=
  let x := s.peer p
  let ports := if x.st = 1 ∨ x.st = 2 then bitMap 4 fun e => s.firon.links.lookD e false else 0
  x.st + 4 * b2n x.vote + 8 * b2n x.late + 256 * (if x.st = 0 then 0 else s.lossVotes p) + 65536 * ports

/-- HP_LINK (15). -/
def State.hpLink (s : State) (p : Nat) : Nat :=
  let h := s.hp (portOf p)
  b2n h.up + (if h.up then 2 * h.speed + 16 * b2n h.flit + 32 * h.lanes else 0) + 1024 * b2n s.bifHigh + 65536 * b2n h.downSeen

/-- What an element of a register of the management space reads as. A register that only acts on a write reads zero
(00 R9); one with no other home holds its stored value. -/
def State.view (s : State) (n : RegName) (i : Nat) : Reg :=
  match n with
  | .devId => rv (0x016410 + 2 ^ 24 * b2n Config.gradeAx)
  | .devMode => rv s.devMode
  | .devFlags => rv s.devFlags
  | .devStatus => rv s.modes.devStatus
  | .devTime => rv (min (s.modes.timeMs.lookD i 0) 0xFFFFFFFF)
  | .cfgStatus => rv s.cfg.status
  | .cfgImageId => rv s.cfg.image.imageId
  | .cfgFwActive => rv s.cfg.fwActive.version
  | .cfgFwPending => rv ((s.cfg.fwPending.map FwInfo.version).getD 0)
  | .cfgSvn => rv (s.cfg.svnFused + 256 * s.cfg.fwActive.svn + 65536 * s.cfg.revoked.toNat)
  | .cfgDlBytes => rv s.cfg.download.bytes.length
  | .clkStatus => rv s.clkStatus
  | .clkReset => rv (s.modes.cause + 256 * s.modes.starts)
  | .hkStatus => rv s.hkStatus
  | .hkEvents => rv s.hk.events
  | .hkTemp => rv (s.hkTemp i)
  | .hkCal => Config.hkCal i
  | .hkCardTemp => rv (s.hkCardTemp i)
  | .hkRail => rv (s.hkRail i)
  | .hkCcore => rv ((s.ccore i).st + 256 * (s.ccore i).resets)
  | .evrNext => rv (if s.awake then s.evr.next else 0)
  | .evrOldest => rv s.evr.oldest
  | .evrPerm => rv s.evr.perm.length
  | .evrFetchStatus => rv (b2n s.evr.fetch.isSome + 2 * b2n s.evr.done)
  | .evrNonce => s.evr.nonce
  | .fnCtxFree => rv s.ctxFree
  | .fnCtxUnusedResv => rv s.ctxUnused
  | .fnState => rv (s.fnState (i + 1))
  | .fnGen => rv ((s.fp .a (i + 1)).generation.toNat + 65536 * (s.fp .b (i + 1)).generation.toNat)
  | .fnLateA => rv (s.fp .a (i + 1)).lateMgmt
  | .fnLateB => rv (s.fp .b (i + 1)).lateMgmt
  | .fnCtxHeld => rv (s.ctxHeld (i + 1))
  | .fnShLimits => (s.tenant (i + 1)).shadow.limits
  | .fnShCtx => (s.tenant (i + 1)).shadow.ctx
  | .fnShResv => (s.tenant (i + 1)).shadow.resv
  | .fnShInact => (s.tenant (i + 1)).shadow.inact
  | .fnShSieve => (s.tenant (i + 1)).shadow.sieve
  | .fnDlogHead => rv (s.tenant (i + 1)).dlog.head
  | .fnActLimits => (s.tenant (i + 1)).active.limits
  | .fnActCtx => (s.tenant (i + 1)).active.ctx
  | .fnActResv => (s.tenant (i + 1)).active.resv
  | .fnActInact => (s.tenant (i + 1)).active.inact
  | .fnActSieve => (s.tenant (i + 1)).active.sieve
  | .prfStatus => rv s.prfStatus
  | .crbState => rv (s.crbState i)
  | .svBankCfg => rv (s.svBankCfg i)
  | .svBankStat => rv ((s.bank i).entries.length + 2 ^ 31 * b2n (s.bank i).held)
  | .svPrivCap => rv s.privCap
  | .dgEng => rv (s.dgEng i)
  | .dgAlarm => (s.engine i).alarm.setWidth 64
  | .ksStatus => rv (bitMap 4 (fun d => if d = 3 then s.keys.d3Loaded else s.keys.device.has d) + 65536 * s.keys.tenant.length)
  | .ksSlot => rv (s.ksSlot i)
  | .rlrStatus => rv s.rlrStatus
  | .rlrPair => rv (s.rlrPair i)
  | .rlrErr => rv (s.rlrErr i)
  | .ftStatus => rv s.ftStatus
  | .ftSpare => rv (s.sparePct + 256 * s.wearPct)
  | .ftSeq => rv s.flash.seq
  | .ftNonce => s.flash.nonce
  | .fchCard => rv (s.fchCard i)
  | .fchCardErr => rv (s.card i).errs
  | .fchChan => rv (s.fchChan i)
  | .memStatus => rv s.memStatus
  | .memStack => rv (s.memStack i)
  | .memFuse => (fuseWord i).setWidth 64
  | .memPc => rv (s.memPc i)
  | .memRemap => rv (s.memRemap i)
  | .flSelf => rv (s.firon.member + 256 * b2n s.firon.enabled + 65536 * s.firon.selfCfg.udpPort)
  | .flGroup => rv s.firon.selfCfg.groupId
  | .flView => rv (bitMap 32 fun p => (s.peer p).st == 1)
  | .flLost => rv (bitMap 32 fun p => (s.peer p).st == 3)
  | .flRepair => rv (min s.firon.repairs.length 0xFFFFFFFF)
  | .flPeer => rv (s.flPeer i)
  | .flPort => rv (b2n (s.firon.links.lookD i false) + 2 * b2n (s.firon.linkDown.lookD i false))
  | .hpLink => rv (s.hpLink i)
  | .hpStrap => rv (b2n s.bifHigh + 2 * b2n s.mgmtSel)
  | _ => s.reg n i

/-- What a register reads as: only its fields that can be read (00 R7, R9). -/
def State.readReg (s : State) (d : RegDef) (i : Nat) : Reg := s.view d.name i &&& d.maskOf fun a => a != .wo

/-! ## Windows -/

/-- A place of a record that is not there (14 R485, R486). -/
def noRecord : List Byte := List.replicate 32 0xFF

/-- A byte of EVR_BUF or EVR_RING; every other unassigned offset reads zero (00 R7). -/
def State.mgmtWindow (s : State) (off : Nat) : Byte :=
  if 0x401000 ≤ off ∧ off < 0x402000 then
    let r := (s.evr.buf.getD ((off - 0x401000) / 32) none).map EvRec.bytes
    (r.getD noRecord).getD (off % 32) 0
  else if 0x410000 ≤ off ∧ off < 0x420000 then
    let k := (off - 0x410000) / 32
    let r := (s.evr.ring.find? fun r => r.number % 2048 == k).map EvRec.bytes
    (r.getD noRecord).getD (off % 32) 0
  else 0

/-- A digest result slot in 128 bytes (08 R286). -/
def ResultSlot.bytes (r : ResultSlot) : List Byte :=
  padTo (padTo r.digest 64 ++ leBytes 2 r.cid ++ leBytes 1 r.alg ++ leBytes 1 (b2n r.hmac) ++ zeros 4 ++ leBytes 8 r.seq) 128

/-- An entry of the MSI-X table: PCIe sets the mask bit at reset. -/
def MsixEntry.init : MsixEntry := ⟨0, 0, true⟩

/-- The 16 bytes of an MSI-X table entry. -/
def MsixEntry.bytes (e : MsixEntry) : List Byte := leBytes 8 e.addr.toNat ++ leBytes 4 e.data.toNat ++ leBytes 4 (b2n e.masked)

/-- A byte of a function's windows on a port (04 R124, R127); the digest result window of function 0 is reserved (R123). -/
def State.tfWindow (s : State) (port : Port) (fn off : Nat) : Byte :=
  let f := s.fp port fn
  if 0x20000 ≤ off ∧ off < 0x30000 then
    if fn = 0 then 0 else ((f.results.look ((off - 0x20000) / 128)).map ResultSlot.bytes).getD [] |>.getD (off % 128) 0
  else if 0x100000 ≤ off ∧ off < 0x100400 then
    (f.msix.lookD ((off - 0x100000) / 16) MsixEntry.init).bytes.getD (off % 16) 0
  else if 0x101000 ≤ off ∧ off < 0x101008 then (leBytes 8 f.pba.toNat).getD (off % 8) 0
  else 0

/-! ## A function's own registers (04 R127) -/

/-- The registers of a tenant BAR. -/
inductive TfReg where
  | ident | status | late | stray | asq | acq | aqCfg
  | sqTail (q : Nat)
  | cqHead (q : Nat)
deriving DecidableEq, Repr

/-- The register of a tenant BAR at an offset, with its first offset and width. -/
def tfRegAt (off : Nat) : Option (TfReg × Nat × Nat) :=
  if off < 4 then some (.ident, 0, 4)
  else if 8 ≤ off ∧ off < 0xC then some (.status, 8, 4)
  else if 0x10 ≤ off ∧ off < 0x14 then some (.late, 0x10, 4)
  else if 0x14 ≤ off ∧ off < 0x18 then some (.stray, 0x14, 4)
  else if 0x1000 ≤ off ∧ off < 0x1008 then some (.asq, 0x1000, 8)
  else if 0x1008 ≤ off ∧ off < 0x1010 then some (.acq, 0x1008, 8)
  else if 0x1010 ≤ off ∧ off < 0x1014 then some (.aqCfg, 0x1010, 4)
  else if 0x10000 ≤ off ∧ off < 0x10200 then
    let q := (off - 0x10000) / 8
    if off % 8 < 4 then some (.sqTail q, 0x10000 + 8 * q, 4) else some (.cqHead q, 0x10004 + 8 * q, 4)
  else none

/-- TF_STATUS: function 0 is always Running. -/
def State.tfStatus (s : State) (port : Port) (fn : Nat) : Nat :=
  let f := s.fp port fn
  (if fn = 0 then 1 else (s.tenant fn).state.num) + 4 * b2n f.resetting + 8 * b2n (s.qp port fn 0).isSome +
    16 * b2n f.aqError + 32 * b2n ((s.qp port fn 0).any QueuePair.halted) + 65536 * f.generation.toNat

/-- What a register of a tenant BAR reads as. -/
def State.tfView (s : State) (port : Port) (fn : Nat) : TfReg → Reg
  | .ident => rv (fn + 65536 * portNum port)
  | .status => rv (s.tfStatus port fn)
  | .late => rv (s.fp port fn).late
  | .stray => rv (s.fp port fn).stray
  | .asq => (s.fp port fn).asqBase
  | .acq => (s.fp port fn).acqBase
  | .aqCfg => (s.fp port fn).aqCfg
  | .sqTail _ => 0
  | .cqHead _ => 0

end Sys2Proof.Machine
end

