-- ==== Sys2Proof/Machine/RegCmds.lean ====
section
/-! DEFINITION. Register reads and writes (00 R7, R9 to R13; 01 R23, R24; 04 R127, R128; 13 R449, R453). -/
namespace Sys2Proof.Machine

/-! ## Where an access lands -/

/-- A register of the management space or of a tenant BAR. -/
inductive Place where
  | mgmt (d : RegDef) (i : Nat)
  | own (r : TfReg)
deriving DecidableEq, Repr

/-- The register at an offset, with its first offset and width in bytes. -/
def placeAt (mgmt : Bool) (off : Nat) : Option (Place × Nat × Nat) :=
  if mgmt then (regAt off).map fun d => (.mgmt d (d.idx off), d.offset (d.idx off), d.width)
  else (tfRegAt off).map fun x => (.own x.1, x.2.1, x.2.2)

/-- Is the access of a width and alignment that its registers take (00 R13)? Unassigned offsets take both widths. -/
def widthOk (mgmt : Bool) (off width : Nat) : Bool :=
  (width == 4 && off % 4 == 0) || (width == 8 && off % 8 == 0 && match placeAt mgmt off with
    | some p => p.2.2 == 8
    | none => (placeAt mgmt (off + 4)).isNone)

/-- Does the access go to function 0's management space? -/
def toMgmt (fn : Nat) (bar : Bar) : Bool := fn == 0 && bar == .bar0

/-- Does the address exist: the function, the BAR and the offset (01 R24; 04 R123)? -/
def inBar (fn : Nat) (bar : Bar) (off : Nat) : Bool :=
  if toMgmt fn bar then decide (off < 2 ^ 26) else decide (fn ≤ 4096) && decide (off < 2 ^ 24) && (fn == 0 || bar == .bar0)

/-- Does a register access reach the registers now? -/
def State.reaches (s : State) (port : Port) (fn : Nat) (bar : Bar) : Bool :=
  if toMgmt fn bar then s.mmio port else s.tfReach port fn

/-- A halted device answers on Port A alone, and only its DEV_ block (13 R452). -/
def State.haltReach (s : State) (port : Port) (fn : Nat) (bar : Bar) : Bool :=
  s.modes.halt && s.modes.mode == .starter && port == .a && toMgmt fn bar && (s.hp .a).up

/-! ## Reading -/

/-- What a register holds. -/
def State.readPlace (s : State) (port : Port) (fn : Nat) : Place → Reg
  | .mgmt d i => s.readReg d i
  | .own r => s.tfView port fn r

/-- Does a half of the register latch (00 R13): has it an RO or RC field? -/
def Place.latches : Place → Bool
  | .mgmt d _ => d.fields.any fun f => f.acc == .ro || f.acc == .rc
  | .own _ => false

/-- A read clears the RC fields (00 R9). -/
def State.clearRc (s : State) (port : Port) (fn : Nat) : Place → State
  | .mgmt d i =>
    if d.fields.any fun f => f.acc == .rc then
      match d.name with
      | .fnLateA => s.modFp .a (i + 1) fun p => { p with lateMgmt := 0 }
      | .fnLateB => s.modFp .b (i + 1) fun p => { p with lateMgmt := 0 }
      | n => s.setReg n i (s.reg n i &&& ~~~(d.maskOf fun a => a == .rc))
    else s
  | .own .late => s.modFp port fn fun p => { p with late := 0 }
  | .own .stray => s.modFp port fn fun p => { p with stray := 0 }
  | .own _ => s

/-- Answers a read. -/
def State.answer (s : State) (port : Port) (fn : Nat) (v : Reg) : State := (s.emit (.registerData port fn v)).tick

/-- The bytes at an offset that no register holds. -/
def State.readWindow (s : State) (port : Port) (fn : Nat) (bar : Bar) (off width : Nat) : Reg :=
  rv (leNat ((List.range width).map fun k => if toMgmt fn bar then s.mgmtWindow (off + k) else s.tfWindow port fn (off + k)))

/-- An access that its registers do not take: all ones, and REG_ACCESS with reason 0 (00 R13). -/
def State.badAccess (s : State) (port : Port) (fn : Nat) (bar : Bar) (off width : Nat) : State :=
  (s.otherAccess port fn bar).regAccess port fn bar off width 0

/-- The lower 32 bits and the upper 32 bits. -/
def loHalf (v : Reg) : Reg := v &&& 0xFFFFFFFF

/-- The upper 32 bits. -/
def hiHalf (v : Reg) : Reg := v >>> 32

/-- A read of a register. -/
def State.readAt (s : State) (port : Port) (fn : Nat) (bar : Bar) (off width : Nat) (p : Place × Nat × Nat) : State :=
  let v := s.readPlace port fn p.1
  if p.2.2 ≤ width then ((s.otherAccess port fn bar).clearRc port fn p.1).answer port fn v
  else if off = p.2.1 then
    let t := (s.otherAccess port fn bar).clearRc port fn p.1
    let t := if p.1.latches then t.setLatch port fn bar ⟨some (off, hiHalf v), none⟩ else t
    t.answer port fn (loHalf v)
  else
    let held := (s.latch port fn bar).read.filter fun x => x.1 == p.2.1
    (s.otherAccess port fn bar).answer port fn ((held.map Prod.snd).getD (hiHalf v))

/-- A register read, wherever it lands. Outside the DEV_ block a halted device reads zero (13 R452). -/
def State.regRead (s : State) (port : Port) (fn : Nat) (bar : Bar) (off width : Nat) : State :=
  if !(s.haltReach port fn bar || s.reaches port fn bar) then s
  else if !widthOk (toMgmt fn bar) off width then (s.badAccess port fn bar off width).answer port fn (BitVec.allOnes 64)
  else if s.haltReach port fn bar && decide (0x100000 ≤ off) then (s.otherAccess port fn bar).answer port fn 0
  else match placeAt (toMgmt fn bar) off with
    | some p => s.readAt port fn bar off width p
    | none => (s.otherAccess port fn bar).answer port fn (s.readWindow port fn bar off width)

/-! ## Device-wide settings (13 R449, R453) -/

/-- The registers that change only in Quiesce (13 R453). -/
def RegName.deviceWide : RegName → Bool
  | .prfCfg | .rlrCfg | .dgCfg | .svBankCfg | .svPclass | .ftCfg | .memCfg | .memRef | .memQos | .flTimers | .flCfg | .cfgQuiesce => true
  | _ => false

/-- The device-wide registers of which an out-of-range field alone stays unchanged (05, 07, 08). -/
def RegName.byField : RegName → Bool
  | .prfCfg | .rlrCfg | .dgCfg => true
  | _ => false

/-- The value a register has under the overlay in force: its saved bits in place of the overlay's (13 R449). -/
def State.beneath (s : State) (off : Nat) (v : Reg) : Reg :=
  (s.modes.overlay.filter fun e => e.off == off).foldl (fun v e => (v &&& ~~~e.mask) ||| e.value) v

/-- Writes a register: bits that the overlay in force sets change the value it saved (13 R449). -/
def State.writeUnder (s : State) (n : RegName) (i : Nat) (v : Reg) : State :=
  let off := (regDef n).offset i
  let mask := (s.modes.overlay.filter fun e => e.off == off).foldl (fun m e => m ||| e.mask) 0
  let s := s.setReg n i ((v &&& ~~~mask) ||| (s.reg n i &&& mask))
  s.modModes fun m => { m with overlay := m.overlay.map fun e => if e.off = off then { e with value := v &&& e.mask } else e }

/-- The fields of a value that lie within their ranges, over an old value. -/
def RegDef.takeInRange (d : RegDef) (old v : Reg) : Reg :=
  d.fields.foldl (fun a f => if decide (f.min ≤ f.get v) && decide (f.get v ≤ f.max) then (a &&& ~~~f.mask) ||| (v &&& f.mask) else a) old

/-- Moves the tenants' private regions to the slots that a change of a bank leaves (09 R301, R321). -/
def State.rebank (s : State) (b : Nat) (f : Bank → Bank) : State :=
  let regions := sortBy (fun t : Nat × Nat × Nat => t.2.1) ((s.tenants.filter fun t => t.2.region.2 != 0).map fun t => (t.1, t.2.region))
  let held := regions.map fun t => (s.privUsed t.1).filterMap fun i => (s.privEntry (t.2.1 + i)).map fun e => (i, e)
  let s := regions.foldl (fun s t => (s.privUsed t.1).foldl (fun s i => s.delPriv (t.2.1 + i)) s) s
  let s := s.modBank b f
  ((regions.zip held).foldl (fun (a : State × Nat) t =>
    let s := t.2.foldl (fun s x => s.putPriv (a.2 + x.1) x.2) a.1
    (s.modTenant t.1.1 fun x => { x with region := (a.2, t.1.2.2) }, a.2 + t.1.2.2)) (s, 0)).1

/-- May a bank take a setting (09 R300, R301)? -/
def State.bankOkFor (s : State) (b : Nat) (v : Nat) : Bool :=
  let use (k : Nat) : Nat := if k = b then bitsOf v 1 0 else (s.bank k).use.toNat
  let count (u : Nat) : Nat := ((List.range 4).filter fun k => use k == u).length
  let regions := s.tenants.foldl (fun a t => a + t.2.region.2) 0
  (s.bank b).entries.isEmpty && count 1 == 1 && decide (count 2 ≤ 1) && (use b != 3 || !bitOf v 4) &&
    (decide (s.privCap ≤ 65536 * count 3) || decide (regions ≤ 65536 * count 3))

/-- A write of a device-wide setting (13 R453). -/
def State.writeSetting (s : State) (port : Port) (d : RegDef) (i : Nat) (v : Reg) : State :=
  let off := d.offset i
  let v := v &&& d.maskOf fun _ => true
  let reject (s : State) : State := s.rejectSetting port off (v.toNat % 2 ^ 32)
  if s.modes.mode ≠ .quiesce then reject s
  else if d.name = .svBankCfg then
    if s.bankOkFor i v.toNat then
      s.rebank i fun k => { k with use := BitVec.ofNat 2 (bitsOf v.toNat 1 0), longest := bitOf v.toNat 4 }
    else reject s
  else if d.name.byField then
    let s := if d.inRange v then s else reject s
    s.writeUnder d.name i (d.takeInRange (s.beneath off (s.reg d.name i)) v)
  else if d.valueOk i v then s.writeUnder d.name i v
  else reject s

/-! ## Writes of the other registers -/

/-- A write of a locked RWL register is recorded where it carries another value (00 R10). -/
def State.writeHash (s : State) (port : Port) (d : RegDef) (i : Nat) (v : Reg) : State :=
  let v := v &&& d.maskOf fun _ => true
  if s.modes.locked then
    if v = s.reg d.name i then s else s.record 0x0102 (portNum port) (leBytes 4 (d.offset i))
  else if d.valueOk i v then s.setReg d.name i v
  else s.rejectSetting port (d.offset i) (v.toNat % 2 ^ 32)

/-- Two bits that ask for opposite actions: both set do nothing. -/
def State.oneOf (s : State) (v lo hi : Nat) (f g : State → State) : State :=
  if bitOf v lo && bitOf v hi then s else if bitOf v lo then f s else if bitOf v hi then g s else s

/-- W1C: where a bit of the value is 1 the flag is cleared (00 R9). -/
def w1c (v : Nat) (bit : Nat) (flag : Bool) : Bool := flag && !bitOf v bit

/-- A write of one W1C register. -/
def State.writeW1c (s : State) (n : RegName) (i v : Nat) : State :=
  match n with
  | .devStatus => s.modModes fun m => { m with qlimit := w1c v 6 m.qlimit, actFailed := w1c v 7 m.actFailed }
  | .clkStatus => s.modModes fun m => { m with rootLol := w1c v 8 m.rootLol, serdesLol := w1c v 9 m.serdesLol }
  | .hkEvents => s.modHk fun h => { h with
      evWarn := w1c v 0 h.evWarn, evThrottle := w1c v 1 h.evThrottle, evSensor := w1c v 2 h.evSensor
      evRail := w1c v 3 h.evRail, evCcore := w1c v 4 h.evCcore }
  | .evrFetchStatus => s.modEvr fun e => { e with done := w1c v 1 e.done }
  | .fnState => s.modTenant (i + 1) fun t => { t with dlog := { t.dlog with overflow := w1c v 5 t.dlog.overflow } }
  | .dgAlarm => s.modEngine i fun x => { x with alarm := x.alarm &&& ~~~BitVec.ofNat 4 v }
  | .rlrErr => s.modRoller i fun r => { r with errNew := w1c v 15 r.errNew }
  | .fchCardErr => s.modCard i fun c => { c with
      errRemoved := w1c v 0 c.errRemoved, errTimeout := w1c v 1 c.errTimeout, errI2c := w1c v 2 c.errI2c, errTemp := w1c v 3 c.errTemp }
  | .flPort => s.modFiron fun x => { x with linkDown := x.linkDown.put i (w1c v 1 (x.linkDown.lookD i false)) }
  | .hpLink => s.modHp (portOf i) fun h => { h with downSeen := w1c v 16 h.downSeen }
  | _ => s

/-- A write of a register that acts at once (00 R9). -/
def State.writeAct (s : State) (port : Port) (n : RegName) (i v : Nat) : State :=
  match n with
  | .devCtrl => s.oneOf v 0 1 (fun s => s.quiesceRequest port) fun s => s.quiesceRelease port
  | .evrFetch => s.evrFetch (rv v)
  | .crbCtrl => s.oneOf v 0 1 (fun s => s.retireCrumb i) fun s => s.restoreCrumb i
  | .dgCtrl => s.oneOf v 0 1 (fun s => s.retireEngine i) fun s => s.restoreEngine i
  | .rlrResume => s.resumeRoller (bitsOf v 11 0)
  | .rlrCtrl => (s.oneOf v 0 1 (fun s => s.retireHalf i true) fun s => s.restoreHalf i true).oneOf v 2 3
      (fun s => s.retireHalf i false) fun s => s.restoreHalf i false
  | .fchCardCtrl => s.oneOf v 0 1 (fun s => s.cardOffline i) fun s => s.cardRestore i
  | .memStackCtrl => if bitOf v 0 then s.applyDelays port i (bitsOf v 6 4) else s
  | .memRemap =>
    if bitsOf v 1 0 = 1 then s.retirePage port (i / 4096) (i % 4096) (bitsOf v 31 8) (bitsOf v 55 32)
    else s.rejectSetting port ((regDef .memRemap).offset i) (v % 2 ^ 32)
  | _ => s

/-- A write of a tenant's shadow settings, at any time (04 R133), or of its dirty-log head. -/
def State.writeFn (s : State) (n : RegName) (i : Nat) (v : Reg) : State :=
  let sh (f : Settings → Settings) : State := s.modTenant (i + 1) fun t => { t with shadow := f t.shadow }
  match n with
  | .fnShLimits => sh fun x => { x with limits := v }
  | .fnShCtx => sh fun x => { x with ctx := v }
  | .fnShResv => sh fun x => { x with resv := v }
  | .fnShInact => sh fun x => { x with inact := v }
  | .fnShSieve => sh fun x => { x with sieve := v }
  | .fnDlogHead => s.modTenant (i + 1) fun t => { t with dlog := { t.dlog with head := v.toNat } }
  | _ => s

/-- A write of a register of the management space, with the whole value. -/
def State.writeReg (s : State) (port : Port) (d : RegDef) (i : Nat) (v : Reg) : State :=
  if d.name.deviceWide then s.writeSetting port d i v
  else match d.name with
    | .memHash => s.writeHash port d i v
    | .svFwtop => s.setReg .svFwtop i (v &&& d.maskOf fun _ => true)
    | .memDly => s.setReg .memDly i (v &&& d.maskOf fun _ => true)
    | .fnShLimits | .fnShCtx | .fnShResv | .fnShInact | .fnShSieve | .fnDlogHead => s.writeFn d.name i (v &&& d.maskOf fun _ => true)
    | .devCtrl | .evrFetch | .crbCtrl | .dgCtrl | .rlrResume | .rlrCtrl | .fchCardCtrl | .memStackCtrl | .memRemap =>
      s.writeAct port d.name i v.toNat
    | n => s.writeW1c n i v.toNat

/-- A write of a function's own register (04 R128). -/
def State.writeTf (s : State) (port : Port) (fn : Nat) (r : TfReg) (v : Reg) : State :=
  let on := (s.fp port fn).aqCfg.getLsbD 0
  let base : Reg := v &&& ~~~0xFFF#64
  match r with
  | .status => s.modFp port fn fun p => { p with aqError := w1c v.toNat 4 p.aqError }
  | .asq => if on then s else s.modFp port fn fun p => { p with asqBase := base }
  | .acq => if on then s else s.modFp port fn fun p => { p with acqBase := base }
  | .aqCfg =>
    if v.getLsbD 0 then (if on then s else s.aqEnable port fn v)
    else if on then s.aqDisable port fn
    else s.modFp port fn fun p => { p with aqCfg := v &&& aqCfgMask }
  | .sqTail q => s.sqDoorbell port fn q (v.toNat % 2 ^ 32)
  | .cqHead q => s.cqDoorbell port fn q (v.toNat % 2 ^ 32)
  | _ => s

/-- A write of a register. -/
def State.writePlace (s : State) (port : Port) (fn : Nat) (p : Place) (v : Reg) : State :=
  match p with
  | .mgmt d i => s.writeReg port d i v
  | .own r => s.writeTf port fn r v

/-- The RW and RWL fields of a register as they stand, and zero elsewhere (00 R13). -/
def State.keptBits (s : State) (port : Port) (fn : Nat) (p : Place) : Reg :=
  match p with
  | .mgmt d i => s.readReg d i &&& d.maskOf fun a => a == .rw || a == .rwl
  | .own r => s.tfView port fn r

/-- A 4-byte write of an MSI-X table entry, by the number of the word in the table; an unmasked vector that is pending is
sent (04 R124). -/
def State.writeMsix (s : State) (port : Port) (fn w : Nat) (v : Nat) : State :=
  let k := w / 4
  let e := (s.fp port fn).msix.lookD k MsixEntry.init
  let e : MsixEntry := match w % 4 with
    | 0 => { e with addr := (e.addr &&& ~~~0xFFFFFFFF#64) ||| rv (v / 4 * 4) }
    | 1 => { e with addr := loHalf e.addr ||| (rv v <<< 32) }
    | 2 => { e with data := BitVec.ofNat 32 v }
    | _ => { e with masked := bitOf v 0 }
  let s := s.modFp port fn fun p => { p with msix := p.msix.put k e }
  if (s.fp port fn).pba.getLsbD k && ((s.fp port fn).vectorOpen k).isSome then
    (s.modFp port fn fun p => { p with pba := p.pba &&& ~~~(1#64 <<< k) }).sendOrHold ⟨fn, port, .msix port fn k 0 0, none⟩
  else s

/-- A write where no register is: the MSI-X table takes it. -/
def State.writeWindow (s : State) (port : Port) (fn : Nat) (bar : Bar) (off width : Nat) (v : Reg) : State :=
  if !toMgmt fn bar ∧ 0x100000 ≤ off ∧ off < 0x100400 then
    let w := (off - 0x100000) / 4
    let s := s.writeMsix port fn w (loHalf v).toNat
    if width = 8 then s.writeMsix port fn (w + 1) (hiHalf v).toNat else s
  else s

/-- A write that lands in a register: a lower half is held, and an upper half applies both (00 R13). -/
def State.writeAt (s : State) (port : Port) (fn : Nat) (bar : Bar) (off width : Nat) (v : Reg) (p : Place × Nat × Nat) : State :=
  if p.2.2 ≤ width then (s.otherAccess port fn bar).writePlace port fn p.1 (if width = 4 then loHalf v else v)
  else if off = p.2.1 then (s.otherAccess port fn bar).setLatch port fn bar ⟨none, some (off, loHalf v)⟩
  else match (s.latch port fn bar).write.filter fun x => x.1 == p.2.1 with
    | some x => (s.setLatch port fn bar ⟨none, none⟩).writePlace port fn p.1 (x.2 ||| (loHalf v <<< 32))
    | none =>
      let s := s.otherAccess port fn bar
      s.writePlace port fn p.1 (loHalf (s.keptBits port fn p.1) ||| (loHalf v <<< 32))

/-- A register write, wherever it lands. A halted device takes none; an access of a width or alignment that registers do
not take is recorded there too (00 R13). -/
def State.regWrite (s : State) (port : Port) (fn : Nat) (bar : Bar) (off width : Nat) (v : Reg) : State :=
  if !(s.haltReach port fn bar || s.reaches port fn bar) then s
  else if !widthOk (toMgmt fn bar) off width then s.badAccess port fn bar off width
  else if s.haltReach port fn bar then s.otherAccess port fn bar
  else match placeAt (toMgmt fn bar) off with
    | some p => s.writeAt port fn bar off width v p
    | none => (s.otherAccess port fn bar).writeWindow port fn bar off width v

/-! ## The commands -/

/-- REGISTER_WRITE. -/
def execRegisterWrite (port : Port) (fn : Nat) (bar : Bar) (off width : Nat) (value : Reg) (s : State) :
    Host.Outcome State Fault Refusal :=
  if inBar fn bar off then .next (s.regWrite port fn bar off width value) else .fault .outsideBar

/-- REGISTER_READ. -/
def execRegisterRead (port : Port) (fn : Nat) (bar : Bar) (off width : Nat) (s : State) : Host.Outcome State Fault Refusal :=
  if inBar fn bar off then .next (s.regRead port fn bar off width) else .fault .outsideBar

/-- Does the offset lie in a register that a read clears? -/
def rcAt (fn : Nat) (bar : Bar) (off : Nat) : Bool :=
  match placeAt (toMgmt fn bar) off with
  | some (.mgmt d _, _) => d.fields.any fun f => f.acc == .rc
  | some (.own .late, _) => true
  | some (.own .stray, _) => true
  | _ => false

/-- RC_REGISTER_READ: the read of a register that it clears. -/
def execRcRegisterRead (port : Port) (fn : Nat) (bar : Bar) (off width : Nat) (s : State) : Host.Outcome State Fault Refusal :=
  if !inBar fn bar off then .fault .outsideBar
  else .next (if rcAt fn bar off then s.regRead port fn bar off width else s)

end Sys2Proof.Machine
end

