-- ==== Sys2Proof/Machine/SideCmds.lean ====
section
/-! DEFINITION. The management sideband (15 R501, R502): what its endpoint answers. The layout of the messages is PRESUMED,
from DSP0236, DSP0240 and DSP0248, which the spec names; an answer here begins with the message type and the command and
leaves out the transport's own header. -/
namespace Sys2Proof.Machine

/-! ## The endpoint -/

/-- Does the endpoint answer: auxiliary power is on, and an I3C endpoint has its address? -/
def State.sidebandUp (s : State) : Bool := s.modes.auxOn && (!s.mgmtSel || s.dynAddr.isSome)

/-- Sends an answer, if the endpoint is up. -/
def State.sideAnswer (s : State) (b : List Byte) : State := if s.sidebandUp then (s.emit (.sideband b)).tick else s

/-- An MCTP control answer: command, completion code, data. -/
def mctp (cmd cc : Byte) (data : List Byte) : List Byte := [0, cmd, cc] ++ data

/-- A PLDM answer: type, command, completion code, data. -/
def pldm (type cmd cc : Byte) (data : List Byte) : List Byte := [1, type, cmd, cc] ++ data

/-- DYNAMIC_ADDRESS_ASSIGNMENT: an I3C target's address. -/
def execDynamicAddressAssignment (addr : BitVec 7) (s : State) : Host.Outcome State Fault Refusal :=
  .next (if s.modes.auxOn && s.mgmtSel then { s with dynAddr := some addr } else s)

/-- SET_ENDPOINT_ID: operations 0 and 1 take an EID that is neither 0 nor 0xFF; the others do not apply to this
endpoint. -/
def execSetEndpointId (op : Fin 4) (eid : Byte) (s : State) : Host.Outcome State Fault Refusal :=
  if op < 2 ∧ eid ≠ 0 ∧ eid ≠ 0xFF then
    .next (if s.sidebandUp then ({ s with eid := eid } : State).sideAnswer (mctp 1 0 [0, eid, 0]) else s)
  else .next (s.sideAnswer (mctp 1 2 []))

/-- GET_ENDPOINT_ID: a simple endpoint with a dynamic EID. -/
def execGetEndpointId (s : State) : Host.Outcome State Fault Refusal := .next (s.sideAnswer (mctp 2 0 [s.eid, 0, 0]))

/-- GET_MCTP_VERSION_SUPPORT: the base, MCTP control and PLDM. -/
def execGetMctpVersionSupport (msgType : Byte) (s : State) : Host.Outcome State Fault Refusal :=
  if msgType = 0xFF ∨ msgType = 0 ∨ msgType = 1 then
    .next (s.sideAnswer (mctp 4 0 ([1] ++ (List.range 4).map (Config.sidebandVersion msgType.toNat))))
  else .next (s.sideAnswer (mctp 4 0x80 []))

/-- GET_MESSAGE_TYPE_SUPPORT: PLDM, beside MCTP control. -/
def execGetMessageTypeSupport (s : State) : Host.Outcome State Fault Refusal := .next (s.sideAnswer (mctp 5 0 [1, 1]))

/-! ## PLDM base -/

/-- GETTID. -/
def execGetTid (s : State) : Host.Outcome State Fault Refusal := .next (s.sideAnswer (pldm 0 2 0 [Config.terminusId]))

/-- GETPLDMVERSION: base and platform monitoring, in one part. -/
def execGetPldmVersion (pldmType : Byte) (s : State) : Host.Outcome State Fault Refusal :=
  if pldmType = 0 ∨ pldmType = 2 then
    .next (s.sideAnswer (pldm 0 3 0 (zeros 4 ++ [5] ++ (List.range 8).map (Config.sidebandVersion (256 + pldmType.toNat)))))
  else .next (s.sideAnswer (pldm 0 3 0x83 []))

/-- GETPLDMTYPES: types 0 and 2. -/
def execGetPldmTypes (s : State) : Host.Outcome State Fault Refusal := .next (s.sideAnswer (pldm 0 4 0 (leBytes 8 5)))

/-- The commands of a PLDM type, as bits. -/
def pldmCommands (type : Byte) : Nat :=
  if type = 0 then 2 ^ 2 + 2 ^ 3 + 2 ^ 4 + 2 ^ 5 else 2 ^ 0x11 + 2 ^ 0x21 + 2 ^ 0x50 + 2 ^ 0x51

/-- GETPLDMCOMMANDS. -/
def execGetPldmCommands (pldmType : Byte) (s : State) : Host.Outcome State Fault Refusal :=
  if pldmType = 0 ∨ pldmType = 2 then .next (s.sideAnswer (pldm 0 5 0 (leBytes 32 (pldmCommands pldmType))))
  else .next (s.sideAnswer (pldm 0 5 0x83 []))

/-! ## Sensors (R502) -/

/-- Quarter or sixteenth degrees in whole degrees; the spec does not say how they are rounded. -/
def wholeDeg (per t : Int) : Int := if t % per ≠ 0 ∧ Config.roundUp t then t / per + 1 else t / per

/-- The thresholds of a numeric sensor: upper warning, critical and fatal, and lower warning. -/
structure Limits where
  warn : Option Int
  crit : Option Int
  fatal : Option Int
  low : Option Int
deriving DecidableEq, Repr

/-- The thresholds that R502 gives. A rail's alarm limits stand as its warning thresholds. -/
def State.limits (s : State) (id : Nat) : Limits :=
  if id = 1 then ⟨some 95, some 100, some 110, none⟩
  else if 10 ≤ id ∧ id < 34 then ⟨((s.card (id - 10)).info.map fun i => (i.tempWarn : Int)), none, none, none⟩
  else if 34 ≤ id ∧ id < 46 then
    let l := railLimits.getD (id - 34) (0, 0, 0)
    ⟨some (l.1 * (100 + l.2.1) / 100 : Nat), none, none, some (l.1 * (100 - l.2.1) / 100 : Nat)⟩
  else ⟨none, none, none, none⟩

/-- The reading of a numeric sensor, if the housekeeping round has taken it. -/
def State.sensorReading (s : State) (id : Nat) : Option Int :=
  if id = 1 then if s.hk.sensors.any fun x => x.2.read then some (wholeDeg 4 s.hk.tj) else none
  else if id < 10 then if s.hk.stackRead.lookD (id - 2) false then some (s.stack (id - 2)).temp else none
  else if id < 34 then
    let t := s.hk.cardTemps.lookD (id - 10) CardTemp.init
    if t.valid then some (wholeDeg 16 t.temp) else none
  else if id < 46 then
    let r := s.hk.rails.lookD (id - 34) Rail.init
    if r.vRead then some r.mv else none
  else if id < 58 then
    let r := s.hk.rails.lookD (id - 46) Rail.init
    if r.cRead then some r.current else none
  else if s.housekeeps then some s.hk.step else none

/-- Is the sensor ID that of a numeric sensor? -/
def numericSensor (id : Nat) : Bool := decide (1 ≤ id) && decide (id ≤ 59) && id != 58

/-- The present state of a reading: unknown, normal, upper warning, critical or fatal, or lower warning. -/
def Limits.state (l : Limits) : Option Int → Byte
  | none => 0
  | some v =>
    let above (x : Option Int) : Bool := x.any fun x => decide (x ≤ v)
    if above l.fatal then 10 else if above l.crit then 9 else if above l.warn then 8
    else if l.low.any fun x => decide (v ≤ x) then 5 else 1

/-- A free byte of an answer, of which the spec does not give the content. -/
def State.sideFree (s : State) (k n : Nat) : List Byte := (List.range n).map fun i => Config.freeByte s.fresh (k + i)

/-- A number of 32 bits in two's complement. -/
def le32 (t : Int) : List Byte := leInt 4 t

/-- GETSENSORREADING: a 32-bit reading. The previous state, and the reading of a sensor that is unavailable, are free. -/
def execGetSensorReading (id : Nat) (s : State) : Host.Outcome State Fault Refusal :=
  if !numericSensor id then .next (s.sideAnswer (pldm 2 0x11 0x80 []))
  else
    let v := s.sensorReading id
    let st := (s.limits id).state v
    let op : Byte := if v.isSome then 0 else 2
    .next (s.sideAnswer (pldm 2 0x11 0 ([5, op, 0, st] ++ s.sideFree 0 1 ++ [st] ++ (v.map le32).getD (s.sideFree 1 4))))

/-- GETSTATESENSORREADINGS: DEV_MODE.MODE, with the mode before it. -/
def execGetStateSensorReadings (id : Nat) (s : State) : Host.Outcome State Fault Refusal :=
  if id = 58 then
    let m : Byte := BitVec.ofNat 8 s.modes.mode.num
    .next (s.sideAnswer (pldm 2 0x21 0 [1, 0, m, BitVec.ofNat 8 s.modes.last.num, m]))
  else .next (s.sideAnswer (pldm 2 0x21 0x80 []))

/-! ## The PDR repository (R502) -/

/-- The unit of a numeric sensor and its power of ten: degrees C, mV, 0.1 A, none. -/
def sensorUnit (id : Nat) : Byte × Byte := if id < 34 then (2, 0) else if id < 46 then (5, 0xFD) else if id < 58 then (6, 0xFF) else (0, 0)

/-- A threshold of a PDR, zero where there is none. -/
def limit32 (x : Option Int) : List Byte := le32 (x.getD 0)

/-- A numeric sensor's PDR after its header; what R502 does not give is free. -/
def State.numericPdr (s : State) (id : Nat) : List Byte :=
  let u := sensorUnit id
  let l := s.limits id
  let sup := b2n l.warn.isSome + 2 * b2n l.crit.isSome + 4 * b2n l.fatal.isSome + 8 * b2n l.low.isSome
  s.sideFree 0 2 ++ leBytes 2 id ++ s.sideFree 2 6 ++ [0, 0, u.1, u.2] ++ zeros 7 ++ [1, 5] ++ s.sideFree 8 12 ++ s.sideFree 20 4 ++
    [BitVec.ofNat 8 sup, 0] ++ s.sideFree 24 16 ++ [5] ++ [BitVec.ofNat 8 (8 * b2n l.crit.isSome + 32 * b2n l.fatal.isSome)] ++
    s.sideFree 40 12 ++ limit32 l.warn ++ limit32 l.low ++ limit32 l.crit ++ limit32 none ++ limit32 l.fatal ++ limit32 none

/-- The state sensor's PDR after its header: one sensor with states 0 to 11. -/
def State.statePdr (s : State) : List Byte := s.sideFree 0 2 ++ leBytes 2 58 ++ s.sideFree 2 6 ++ [0, 0, 1] ++ s.sideFree 8 2 ++ [2] ++ leBytes 2 0xFFF

/-- The PDR of a sensor: its record handle is the sensor ID. -/
def State.pdr (s : State) (id : Nat) : List Byte :=
  let b := if id = 58 then s.statePdr else s.numericPdr id
  leBytes 4 id ++ [1, if id = 58 then 4 else 2] ++ leBytes 2 0 ++ leBytes 2 b.length ++ b

/-- GETPDRREPOSITORYINFO: available, with 59 records; times, sizes and the timeout are free. -/
def execGetPdrRepositoryInfo (s : State) : Host.Outcome State Fault Refusal :=
  .next (s.sideAnswer (pldm 2 0x50 0 ([0] ++ s.sideFree 0 26 ++ leBytes 4 59 ++ s.sideFree 26 9)))

/-- GETPDR: handle 0 names the first record; the last one names no next. -/
def execGetPdr (handle : Nat) (s : State) : Host.Outcome State Fault Refusal :=
  let id := if handle = 0 then 1 else handle
  if id ≤ 59 then
    let b := s.pdr id
    .next (s.sideAnswer (pldm 2 0x51 0 (leBytes 4 (if id = 59 then 0 else id + 1) ++ leBytes 4 0 ++ [5] ++ leBytes 2 b.length ++ b)))
  else .next (s.sideAnswer (pldm 2 0x51 0x82 []))

end Sys2Proof.Machine
end

