-- ==== Sys2Proof/Machine/Dispatch.lean ====
section
/-! DEFINITION. The dispatch: one arm per command of the opcode table, each a direct call of its meaning. -/
namespace Sys2Proof.Machine

/-- The effect of a command on everything but the queue. -/
def exec (i : Instr) (s : State) : Host.Outcome State Fault Refusal :=
  match i with
  | .registerWrite port fn bar off width value => Sys2Proof.Machine.execRegisterWrite port fn bar off width value s
  | .rcRegisterRead port fn bar off width => Sys2Proof.Machine.execRcRegisterRead port fn bar off width s
  | .submissionTailDoorbell port fn qid value => Sys2Proof.Machine.execSubmissionTailDoorbell port fn qid value s
  | .completionHeadDoorbell port fn qid value => Sys2Proof.Machine.execCompletionHeadDoorbell port fn qid value s
  | .adminQpEnable port fn cfg => Sys2Proof.Machine.execAdminQpEnable port fn cfg s
  | .adminQpDisable port fn => Sys2Proof.Machine.execAdminQpDisable port fn s
  | .commandFetch port fn qid bytes => Sys2Proof.Machine.execCommandFetch port fn qid bytes s
  | .commandStart tag => Sys2Proof.Machine.execCommandStart tag s
  | .ringFetchTimeout port fn qid => Sys2Proof.Machine.execRingFetchTimeout port fn qid s
  | .hostDmaTimeout tag => Sys2Proof.Machine.execHostDmaTimeout tag s
  | .hostReadCompletion who result => Sys2Proof.Machine.execHostReadCompletion who result s
  | .irqCoalesceTimeout port fn qid => Sys2Proof.Machine.execIrqCoalesceTimeout port fn qid s
  | .nop tag => Sys2Proof.Machine.execNop tag s
  | .identifyDevice tag => Sys2Proof.Machine.execIdentifyDevice tag s
  | .identifyFunction tag => Sys2Proof.Machine.execIdentifyFunction tag s
  | .identifyContainers tag => Sys2Proof.Machine.execIdentifyContainers tag s
  | .identifyUsage tag => Sys2Proof.Machine.execIdentifyUsage tag s
  | .createQp tag => Sys2Proof.Machine.execCreateQp tag s
  | .deleteQp tag => Sys2Proof.Machine.execDeleteQp tag s
  | .getLogError tag => Sys2Proof.Machine.execGetLogError tag s
  | .getLogHealth tag => Sys2Proof.Machine.execGetLogHealth tag s
  | .abort tag => Sys2Proof.Machine.execAbort tag s
  | .asyncEvent tag => Sys2Proof.Machine.execAsyncEvent tag s
  | .blockRead tag => Sys2Proof.Machine.execBlockRead tag s
  | .blockWrite tag => Sys2Proof.Machine.execBlockWrite tag s
  | .flush tag => Sys2Proof.Machine.execFlush tag s
  | .deallocate tag => Sys2Proof.Machine.execDeallocate tag s
  | .openWrite tag => Sys2Proof.Machine.execOpenWrite tag s
  | .append tag => Sys2Proof.Machine.execAppend tag s
  | .commit tag => Sys2Proof.Machine.execCommit tag s
  | .abortStream tag => Sys2Proof.Machine.execAbortStream tag s
  | .objectRead tag => Sys2Proof.Machine.execObjectRead tag s
  | .openRead tag => Sys2Proof.Machine.execOpenRead tag s
  | .closeRead tag => Sys2Proof.Machine.execCloseRead tag s
  | .delete tag => Sys2Proof.Machine.execDelete tag s
  | .stat tag => Sys2Proof.Machine.execStat tag s
  | .statStreamQuery tag => Sys2Proof.Machine.execStatStreamQuery tag s
  | .logTrim tag => Sys2Proof.Machine.execLogTrim tag s
  | .list tag => Sys2Proof.Machine.execList tag s
  | .programLoad tag => Sys2Proof.Machine.execProgramLoad tag s
  | .programUnload tag => Sys2Proof.Machine.execProgramUnload tag s
  | .jobSubmit tag => Sys2Proof.Machine.execJobSubmit tag s
  | .jobStatus tag => Sys2Proof.Machine.execJobStatus tag s
  | .jobCancel tag => Sys2Proof.Machine.execJobCancel tag s
  | .digestDirect tag => Sys2Proof.Machine.execDigestDirect tag s
  | .compressDirect tag => Sys2Proof.Machine.execCompressDirect tag s
  | .decompressDirect tag => Sys2Proof.Machine.execDecompressDirect tag s
  | .sieveInsert tag => Sys2Proof.Machine.execSieveInsert tag s
  | .sieveRemove tag => Sys2Proof.Machine.execSieveRemove tag s
  | .sieveLookup tag => Sys2Proof.Machine.execSieveLookup tag s
  | .sieveRead tag => Sys2Proof.Machine.execSieveRead tag s
  | .fnControlEnable tag => Sys2Proof.Machine.execFnControlEnable tag s
  | .fnControlDisable tag => Sys2Proof.Machine.execFnControlDisable tag s
  | .fnControlStop tag => Sys2Proof.Machine.execFnControlStop tag s
  | .fnControlRestart tag => Sys2Proof.Machine.execFnControlRestart tag s
  | .fnControlReset tag => Sys2Proof.Machine.execFnControlReset tag s
  | .spaceCreate tag => Sys2Proof.Machine.execSpaceCreate tag s
  | .spaceDelete tag => Sys2Proof.Machine.execSpaceDelete tag s
  | .nsCreate tag => Sys2Proof.Machine.execNsCreate tag s
  | .nsDelete tag => Sys2Proof.Machine.execNsDelete tag s
  | .fwDownload tag => Sys2Proof.Machine.execFwDownload tag s
  | .fwActivate tag => Sys2Proof.Machine.execFwActivate tag s
  | .firmwareReady => Sys2Proof.Machine.execFirmwareReady s
  | .activationTimeout => Sys2Proof.Machine.execActivationTimeout s
  | .modeRequestEnterMaint tag => Sys2Proof.Machine.execModeRequestEnterMaint tag s
  | .modeRequestExitMaint tag => Sys2Proof.Machine.execModeRequestExitMaint tag s
  | .modeRequestEnterQuiesce tag => Sys2Proof.Machine.execModeRequestEnterQuiesce tag s
  | .modeRequestQuery tag => Sys2Proof.Machine.execModeRequestQuery tag s
  | .keyLoad tag => Sys2Proof.Machine.execKeyLoad tag s
  | .eraseTenant tag => Sys2Proof.Machine.execEraseTenant tag s
  | .eraseDevice tag => Sys2Proof.Machine.execEraseDevice tag s
  | .dirtyLogStart tag => Sys2Proof.Machine.execDirtyLogStart tag s
  | .dirtyLogStop tag => Sys2Proof.Machine.execDirtyLogStop tag s
  | .dirtyLogSync tag => Sys2Proof.Machine.execDirtyLogSync tag s
  | .eventClear tag => Sys2Proof.Machine.execEventClear tag s
  | .readSector tag => Sys2Proof.Machine.execReadSector tag s
  | .readRaw tag => Sys2Proof.Machine.execReadRaw tag s
  | .readParam tag => Sys2Proof.Machine.execReadParam tag s
  | .readId tag => Sys2Proof.Machine.execReadId tag s
  | .programRaw tag => Sys2Proof.Machine.execProgramRaw tag s
  | .erase tag => Sys2Proof.Machine.execErase tag s
  | .sanitize tag => Sys2Proof.Machine.execSanitize tag s
  | .digestRaw tag => Sys2Proof.Machine.execDigestRaw tag s
  | .setSelf tag => Sys2Proof.Machine.execSetSelf tag s
  | .setMember tag => Sys2Proof.Machine.execSetMember tag s
  | .removeMember tag => Sys2Proof.Machine.execRemoveMember tag s
  | .groupConfigEnable tag => Sys2Proof.Machine.execGroupConfigEnable tag s
  | .groupConfigDisable tag => Sys2Proof.Machine.execGroupConfigDisable tag s
  | .adopt tag => Sys2Proof.Machine.execAdopt tag s
  | .sieveAdminInsert tag => Sys2Proof.Machine.execSieveAdminInsert tag s
  | .sieveAdminRemove tag => Sys2Proof.Machine.execSieveAdminRemove tag s
  | .sieveAdminRead tag => Sys2Proof.Machine.execSieveAdminRead tag s
  | .sieveAdminLookup tag => Sys2Proof.Machine.execSieveAdminLookup tag s
  | .sieveAdminClear tag => Sys2Proof.Machine.execSieveAdminClear tag s
  | .streamInactivityTimeout handle => Sys2Proof.Machine.execStreamInactivityTimeout handle s
  | .commitPageProgram => Sys2Proof.Machine.execCommitPageProgram s
  | .commitRecordDurable id => Sys2Proof.Machine.execCommitRecordDurable id s
  | .functionLevelReset port fn => Sys2Proof.Machine.execFunctionLevelReset port fn s
  | .vfEnableChange port enable numVfs => Sys2Proof.Machine.execVfEnableChange port enable numVfs s
  | .vfCommandChange port fn mse bme => Sys2Proof.Machine.execVfCommandChange port fn mse bme s
  | .pciePowerStateChange port fn d3 => Sys2Proof.Machine.execPciePowerStateChange port fn d3 s
  | .hotReset port => Sys2Proof.Machine.execHotReset port s
  | .perstAssert port => Sys2Proof.Machine.execPerstAssert port s
  | .perstRelease port => Sys2Proof.Machine.execPerstRelease port s
  | .pcieLinkDown port => Sys2Proof.Machine.execPcieLinkDown port s
  | .pcieLinkUp port speed lanes flit => Sys2Proof.Machine.execPcieLinkUp port speed lanes flit s
  | .pathResetComplete port fn => Sys2Proof.Machine.execPathResetComplete port fn s
  | .tenantStopDrained tenant => Sys2Proof.Machine.execTenantStopDrained tenant s
  | .stopJobTimeout job => Sys2Proof.Machine.execStopJobTimeout job s
  | .quiesceJobTimeout job => Sys2Proof.Machine.execQuiesceJobTimeout job s
  | .contextCacheLoad handle => Sys2Proof.Machine.execContextCacheLoad handle s
  | .jobEnterRunning job => Sys2Proof.Machine.execJobEnterRunning job s
  | .jobTimeout job => Sys2Proof.Machine.execJobTimeout job s
  | .sliceReadIssue job => Sys2Proof.Machine.execSliceReadIssue job s
  | .slicePush buf => Sys2Proof.Machine.execSlicePush buf s
  | .sliceTake crumb => Sys2Proof.Machine.execSliceTake crumb s
  | .steal crumb => Sys2Proof.Machine.execSteal crumb s
  | .tenantTurnExpiry crumb => Sys2Proof.Machine.execTenantTurnExpiry crumb s
  | .scrubDone crumb => Sys2Proof.Machine.execScrubDone crumb s
  | .reductionStep job crumb => Sys2Proof.Machine.execReductionStep job crumb s
  | .jobFinish job => Sys2Proof.Machine.execJobFinish job s
  | .budgetExhausted crumb => Sys2Proof.Machine.execBudgetExhausted crumb s
  | .crumbWatchdog crumb => Sys2Proof.Machine.execCrumbWatchdog crumb s
  | .crumbSelfTestEnd crumb pass => Sys2Proof.Machine.execCrumbSelfTestEnd crumb pass s
  | .crumbRetire port crumb => Sys2Proof.Machine.execCrumbRetire port crumb s
  | .crumbRestore port crumb => Sys2Proof.Machine.execCrumbRestore port crumb s
  | .ill k => Sys2Proof.Machine.execIll k s
  | .mov k a b => Sys2Proof.Machine.execMov k a b s
  | .add k a b => Sys2Proof.Machine.execAdd k a b s
  | .sub k a b => Sys2Proof.Machine.execSub k a b s
  | .and16 k a b => Sys2Proof.Machine.execAnd16 k a b s
  | .or16 k a b => Sys2Proof.Machine.execOr16 k a b s
  | .xor16 k a b => Sys2Proof.Machine.execXor16 k a b s
  | .cmp k a b => Sys2Proof.Machine.execCmp k a b s
  | .tst k a b => Sys2Proof.Machine.execTst k a b s
  | .addq k a b => Sys2Proof.Machine.execAddq k a b s
  | .subq k a b => Sys2Proof.Machine.execSubq k a b s
  | .movq k a b => Sys2Proof.Machine.execMovq k a b s
  | .neg k a b => Sys2Proof.Machine.execNeg k a b s
  | .not16 k a b => Sys2Proof.Machine.execNot16 k a b s
  | .push k a => Sys2Proof.Machine.execPush k a s
  | .pop k a => Sys2Proof.Machine.execPop k a s
  | .jr k a => Sys2Proof.Machine.execJr k a s
  | .ret k => Sys2Proof.Machine.execRet k s
  | .rep k a body => Sys2Proof.Machine.execRep k a body s
  | .repi k a body => Sys2Proof.Machine.execRepi k a body s
  | .mtb k a b => Sys2Proof.Machine.execMtb k a b s
  | .mfb k a b => Sys2Proof.Machine.execMfb k a b s
  | .nopInstruction k => Sys2Proof.Machine.execNopInstruction k s
  | .fence k => Sys2Proof.Machine.execFence k s
  | .brk k => Sys2Proof.Machine.execBrk k s
  | .clz k a b => Sys2Proof.Machine.execClz k a b s
  | .popc k a b => Sys2Proof.Machine.execPopc k a b s
  | .svr k a => Sys2Proof.Machine.execSvr k a s
  | .rft k => Sys2Proof.Machine.execRft k s
  | .idle k => Sys2Proof.Machine.execIdle k s
  | .aluAdd k d a b => Sys2Proof.Machine.execAluAdd k d a b s
  | .aluAdc k d a b => Sys2Proof.Machine.execAluAdc k d a b s
  | .aluSub k d a b => Sys2Proof.Machine.execAluSub k d a b s
  | .aluSbc k d a b => Sys2Proof.Machine.execAluSbc k d a b s
  | .aluAnd k d a b => Sys2Proof.Machine.execAluAnd k d a b s
  | .aluOr k d a b => Sys2Proof.Machine.execAluOr k d a b s
  | .aluXor k d a b => Sys2Proof.Machine.execAluXor k d a b s
  | .aluAndn k d a b => Sys2Proof.Machine.execAluAndn k d a b s
  | .aluShl k d a b => Sys2Proof.Machine.execAluShl k d a b s
  | .aluShr k d a b => Sys2Proof.Machine.execAluShr k d a b s
  | .aluSar k d a b => Sys2Proof.Machine.execAluSar k d a b s
  | .aluRor k d a b => Sys2Proof.Machine.execAluRor k d a b s
  | .aluMul k d a b => Sys2Proof.Machine.execAluMul k d a b s
  | .aluMulhu k d a b => Sys2Proof.Machine.execAluMulhu k d a b s
  | .aluMulhs k d a b => Sys2Proof.Machine.execAluMulhs k d a b s
  | .aluDivu k d a b => Sys2Proof.Machine.execAluDivu k d a b s
  | .aluRemu k d a b => Sys2Proof.Machine.execAluRemu k d a b s
  | .aluDivs k d a b => Sys2Proof.Machine.execAluDivs k d a b s
  | .aluRems k d a b => Sys2Proof.Machine.execAluRems k d a b s
  | .aluMinu k d a b => Sys2Proof.Machine.execAluMinu k d a b s
  | .aluMaxu k d a b => Sys2Proof.Machine.execAluMaxu k d a b s
  | .aluMins k d a b => Sys2Proof.Machine.execAluMins k d a b s
  | .aluMaxs k d a b => Sys2Proof.Machine.execAluMaxs k d a b s
  | .aluBswap k d a => Sys2Proof.Machine.execAluBswap k d a s
  | .addi k d a imm => Sys2Proof.Machine.execAddi k d a imm s
  | .andi k d a imm => Sys2Proof.Machine.execAndi k d a imm s
  | .ori k d a imm => Sys2Proof.Machine.execOri k d a imm s
  | .xori k d a imm => Sys2Proof.Machine.execXori k d a imm s
  | .cmpi k a imm => Sys2Proof.Machine.execCmpi k a imm s
  | .shi k d a sh kind => Sys2Proof.Machine.execShi k d a sh kind s
  | .bfx k d a p l1 sgn => Sys2Proof.Machine.execBfx k d a p l1 sgn s
  | .bfi k d a p l1 => Sys2Proof.Machine.execBfi k d a p l1 s
  | .perm k d a sel => Sys2Proof.Machine.execPerm k d a sel s
  | .setcc k d cond => Sys2Proof.Machine.execSetcc k d cond s
  | .csel k d a b cond => Sys2Proof.Machine.execCsel k d a b cond s
  | .flat k d a bk => Sys2Proof.Machine.execFlat k d a bk s
  | .mtbi k bk imm => Sys2Proof.Machine.execMtbi k bk imm s
  | .bcc k cond off => Sys2Proof.Machine.execBcc k cond off s
  | .callr k a mask => Sys2Proof.Machine.execCallr k a mask s
  | .call k mask off => Sys2Proof.Machine.execCall k mask off s
  | .ld k d a bk size sgn disp => Sys2Proof.Machine.execLd k d a bk size sgn disp s
  | .st k d a bk size disp => Sys2Proof.Machine.execSt k d a bk size disp s
  | .ldf k d a x sc mode size sgn => Sys2Proof.Machine.execLdf k d a x sc mode size sgn s
  | .stf k d a x sc mode size => Sys2Proof.Machine.execStf k d a x sc mode size s
  | .ldx k d a bk size sgn nb off => Sys2Proof.Machine.execLdx k d a bk size sgn nb off s
  | .stx k d a bk size nb off => Sys2Proof.Machine.execStx k d a bk size nb off s
  | .vld k d a bk f disp => Sys2Proof.Machine.execVld k d a bk f disp s
  | .vst k d a bk f disp => Sys2Proof.Machine.execVst k d a bk f disp s
  | .cpy k d a size => Sys2Proof.Machine.execCpy k d a size s
  | .aadd k d a src bk => Sys2Proof.Machine.execAadd k d a src bk s
  | .aswp k d a src bk => Sys2Proof.Machine.execAswp k d a src bk s
  | .acas k d a src bk => Sys2Proof.Machine.execAcas k d a src bk s
  | .aand k d a src bk => Sys2Proof.Machine.execAand k d a src bk s
  | .aor k d a src bk => Sys2Proof.Machine.execAor k d a src bk s
  | .amaxu k d a src bk => Sys2Proof.Machine.execAmaxu k d a src bk s
  | .vadd k d a b lz => Sys2Proof.Machine.execVadd k d a b lz s
  | .vsub k d a b lz => Sys2Proof.Machine.execVsub k d a b lz s
  | .vand k d a b lz => Sys2Proof.Machine.execVand k d a b lz s
  | .vor k d a b lz => Sys2Proof.Machine.execVor k d a b lz s
  | .vxor k d a b lz => Sys2Proof.Machine.execVxor k d a b lz s
  | .vandn k d a b lz => Sys2Proof.Machine.execVandn k d a b lz s
  | .vcmpeq k d a b lz => Sys2Proof.Machine.execVcmpeq k d a b lz s
  | .vcmpgtu k d a b lz => Sys2Proof.Machine.execVcmpgtu k d a b lz s
  | .vcmpgts k d a b lz => Sys2Proof.Machine.execVcmpgts k d a b lz s
  | .vminu k d a b lz => Sys2Proof.Machine.execVminu k d a b lz s
  | .vmaxu k d a b lz => Sys2Proof.Machine.execVmaxu k d a b lz s
  | .vshl k d a b lz => Sys2Proof.Machine.execVshl k d a b lz s
  | .vshr k d a b lz => Sys2Proof.Machine.execVshr k d a b lz s
  | .vsar k d a b lz => Sys2Proof.Machine.execVsar k d a b lz s
  | .vperm k d a b lz => Sys2Proof.Machine.execVperm k d a b lz s
  | .vmov k d a lz => Sys2Proof.Machine.execVmov k d a lz s
  | .vsplat k d a li => Sys2Proof.Machine.execVsplat k d a li s
  | .vext k d a li => Sys2Proof.Machine.execVext k d a li s
  | .vins k d a li => Sys2Proof.Machine.execVins k d a li s
  | .vmask k d a li => Sys2Proof.Machine.execVmask k d a li s
  | .movi k d imm => Sys2Proof.Machine.execMovi k d imm s
  | .addiw k d a imm => Sys2Proof.Machine.execAddiw k d a imm s
  | .andiw k d a imm => Sys2Proof.Machine.execAndiw k d a imm s
  | .cmpiw k a imm => Sys2Proof.Machine.execCmpiw k a imm s
  | .svs k a bk len1 => Sys2Proof.Machine.execSvs k a bk len1 s
  | .svsResult k => Sys2Proof.Machine.execSvsResult k s
  | .dgo k d alg => Sys2Proof.Machine.execDgo k d alg s
  | .dgf k d a b bk => Sys2Proof.Machine.execDgf k d a b bk s
  | .dge k d a bk => Sys2Proof.Machine.execDge k d a bk s
  | .mfc k d cr => Sys2Proof.Machine.execMfc k d cr s
  | .mtc k a cr => Sys2Proof.Machine.execMtc k a cr s
  | .controlCoreInterrupt core irq => Sys2Proof.Machine.execControlCoreInterrupt core irq s
  | .ibudgetTrap core => Sys2Proof.Machine.execIbudgetTrap core s
  | .rollerJobSubmit loaf desc => Sys2Proof.Machine.execRollerJobSubmit loaf desc s
  | .rollerBlockCode pair comp => Sys2Proof.Machine.execRollerBlockCode pair comp s
  | .rollerSteal pair => Sys2Proof.Machine.execRollerSteal pair s
  | .outWaitTimeout slot => Sys2Proof.Machine.execOutWaitTimeout slot s
  | .rlrResume port slot => Sys2Proof.Machine.execRlrResume port slot s
  | .rollerWatchdog pair comp => Sys2Proof.Machine.execRollerWatchdog pair comp s
  | .rollerSelfTestEnd pair comp pass => Sys2Proof.Machine.execRollerSelfTestEnd pair comp pass s
  | .retireC port pair => Sys2Proof.Machine.execRetireC port pair s
  | .restoreC port pair => Sys2Proof.Machine.execRestoreC port pair s
  | .retireD port pair => Sys2Proof.Machine.execRetireD port pair s
  | .restoreD port pair => Sys2Proof.Machine.execRestoreD port pair s
  | .digestContextGrant eng => Sys2Proof.Machine.execDigestContextGrant eng s
  | .digestQuantumExpiry eng msg => Sys2Proof.Machine.execDigestQuantumExpiry eng msg s
  | .digestWaitTimeout msg => Sys2Proof.Machine.execDigestWaitTimeout msg s
  | .digestCheckpoint msg => Sys2Proof.Machine.execDigestCheckpoint msg s
  | .digestAlarm eng cause => Sys2Proof.Machine.execDigestAlarm eng cause s
  | .digestSelfTestEnd eng pass => Sys2Proof.Machine.execDigestSelfTestEnd eng pass s
  | .digestRetire port eng => Sys2Proof.Machine.execDigestRetire port eng s
  | .digestRestore port eng => Sys2Proof.Machine.execDigestRestore port eng s
  | .sieveEntryScrub bank slot cls => Sys2Proof.Machine.execSieveEntryScrub bank slot cls s
  | .sieveEntryRewritten bank slot => Sys2Proof.Machine.execSieveEntryRewritten bank slot s
  | .sieveRegionMove tenant base => Sys2Proof.Machine.execSieveRegionMove tenant base s
  | .cardInserted slot => Sys2Proof.Machine.execCardInserted slot s
  | .cardIdentified slot report => Sys2Proof.Machine.execCardIdentified slot report s
  | .cardRemoved slot => Sys2Proof.Machine.execCardRemoved slot s
  | .cardOffline port slot => Sys2Proof.Machine.execCardOffline port slot s
  | .cardRestore port slot => Sys2Proof.Machine.execCardRestore port slot s
  | .cardRebuildComplete slot => Sys2Proof.Machine.execCardRebuildComplete slot s
  | .i2cTimeout slot => Sys2Proof.Machine.execI2cTimeout slot s
  | .flashReadDone rid ok => Sys2Proof.Machine.execFlashReadDone rid ok s
  | .flashProgramDone row slot ok => Sys2Proof.Machine.execFlashProgramDone row slot ok s
  | .flashEraseDone set slot ok => Sys2Proof.Machine.execFlashEraseDone set slot ok s
  | .flashOpTimeout op => Sys2Proof.Machine.execFlashOpTimeout op s
  | .flashOpAging op => Sys2Proof.Machine.execFlashOpAging op s
  | .programEarlyReissue row slot => Sys2Proof.Machine.execProgramEarlyReissue row slot s
  | .rowFillTimeout row => Sys2Proof.Machine.execRowFillTimeout row s
  | .rowDurable row => Sys2Proof.Machine.execRowDurable row s
  | .gcStart batch => Sys2Proof.Machine.execGcStart batch s
  | .patrolRead set slot step => Sys2Proof.Machine.execPatrolRead set slot step s
  | .zqCalibration slot => Sys2Proof.Machine.execZqCalibration slot s
  | .memoryAccess ctrl arrivals => Sys2Proof.Machine.execMemoryAccess ctrl arrivals s
  | .requestAgeRaise ctrl req => Sys2Proof.Machine.execRequestAgeRaise ctrl req s
  | .refreshDue ctrl => Sys2Proof.Machine.execRefreshDue ctrl s
  | .mergeEntryRetire ctrl block => Sys2Proof.Machine.execMergeEntryRetire ctrl block s
  | .memoryScrub block => Sys2Proof.Machine.execMemoryScrub block s
  | .sramScrub owner unit ok => Sys2Proof.Machine.execSramScrub owner unit ok s
  | .memoryReadTimeout ctrl => Sys2Proof.Machine.execMemoryReadTimeout ctrl s
  | .caParityError ctrl persists => Sys2Proof.Machine.execCaParityError ctrl persists s
  | .delayApply port stack band => Sys2Proof.Machine.execDelayApply port stack band s
  | .pageRetireStart port stack idx old new => Sys2Proof.Machine.execPageRetireStart port stack idx old new s
  | .pageCopyDone stack idx => Sys2Proof.Machine.execPageCopyDone stack idx s
  | .heartbeat f => Sys2Proof.Machine.execHeartbeat f s
  | .ack f => Sys2Proof.Machine.execAck f s
  | .shardPut f => Sys2Proof.Machine.execShardPut f s
  | .shardDurable f => Sys2Proof.Machine.execShardDurable f s
  | .shardGet f => Sys2Proof.Machine.execShardGet f s
  | .shardData f => Sys2Proof.Machine.execShardData f s
  | .shardRelease f => Sys2Proof.Machine.execShardRelease f s
  | .releaseDone f => Sys2Proof.Machine.execReleaseDone f s
  | .repairReq f => Sys2Proof.Machine.execRepairReq f s
  | .repairDone f => Sys2Proof.Machine.execRepairDone f s
  | .vrecPull f => Sys2Proof.Machine.execVrecPull f s
  | .vrecList f => Sys2Proof.Machine.execVrecList f s
  | .heartbeatSend => Sys2Proof.Machine.execHeartbeatSend s
  | .ackTimer member => Sys2Proof.Machine.execAckTimer member s
  | .retransmitTimeout member seq => Sys2Proof.Machine.execRetransmitTimeout member seq s
  | .peerSuspect member => Sys2Proof.Machine.execPeerSuspect member s
  | .lossVote member => Sys2Proof.Machine.execLossVote member s
  | .quorumTimeout id => Sys2Proof.Machine.execQuorumTimeout id s
  | .shardReadTimeout id => Sys2Proof.Machine.execShardReadTimeout id s
  | .readGatherTimeout id => Sys2Proof.Machine.execReadGatherTimeout id s
  | .keyOverlapExpiry => Sys2Proof.Machine.execKeyOverlapExpiry s
  | .ethLinkDown eth => Sys2Proof.Machine.execEthLinkDown eth s
  | .ethLinkUp eth => Sys2Proof.Machine.execEthLinkUp eth s
  | .rootLol => Sys2Proof.Machine.execRootLol s
  | .rootLockRegained => Sys2Proof.Machine.execRootLockRegained s
  | .serdesLol pll => Sys2Proof.Machine.execSerdesLol pll s
  | .auxPowerOn => Sys2Proof.Machine.execAuxPowerOn s
  | .auxPowerLoss => Sys2Proof.Machine.execAuxPowerLoss s
  | .resetNAssert => Sys2Proof.Machine.execResetNAssert s
  | .resetNRelease report => Sys2Proof.Machine.execResetNRelease report s
  | .discoveryStart ms => Sys2Proof.Machine.execDiscoveryStart ms s
  | .discoveryComplete ms => Sys2Proof.Machine.execDiscoveryComplete ms s
  | .rebuildComplete ms => Sys2Proof.Machine.execRebuildComplete ms s
  | .pwrFailAssert => Sys2Proof.Machine.execPwrFailAssert s
  | .parkRecordProgrammed => Sys2Proof.Machine.execParkRecordProgrammed s
  | .park aux => Sys2Proof.Machine.execPark aux s
  | .powerRestart => Sys2Proof.Machine.execPowerRestart s
  | .brownOut rail => Sys2Proof.Machine.execBrownOut rail s
  | .quiesceEnter port => Sys2Proof.Machine.execQuiesceEnter port s
  | .quiesceExit port => Sys2Proof.Machine.execQuiesceExit port s
  | .quiesceDrained => Sys2Proof.Machine.execQuiesceDrained s
  | .quiesceLimit => Sys2Proof.Machine.execQuiesceLimit s
  | .housekeepingVisit chan reading => Sys2Proof.Machine.execHousekeepingVisit chan reading s
  | .throttleEvaluation => Sys2Proof.Machine.execThrottleEvaluation s
  | .ccoreWatchdog core => Sys2Proof.Machine.execCcoreWatchdog core s
  | .ccoreSelfTestEnd core pass => Sys2Proof.Machine.execCcoreSelfTestEnd core pass s
  | .ecuFault batch => Sys2Proof.Machine.execEcuFault batch s
  | .spiTimeout off => Sys2Proof.Machine.execSpiTimeout off s
  | .suppressionWindowEnd code source => Sys2Proof.Machine.execSuppressionWindowEnd code source s
  | .eventRecordFlush => Sys2Proof.Machine.execEventRecordFlush s
  | .evrFetch port value => Sys2Proof.Machine.execEvrFetch port value s
  | .evrFetchDone => Sys2Proof.Machine.execEvrFetchDone s
  | .setEndpointId op eid => Sys2Proof.Machine.execSetEndpointId op eid s
  | .getEndpointId => Sys2Proof.Machine.execGetEndpointId s
  | .getMctpVersionSupport msgType => Sys2Proof.Machine.execGetMctpVersionSupport msgType s
  | .getMessageTypeSupport => Sys2Proof.Machine.execGetMessageTypeSupport s
  | .getTid => Sys2Proof.Machine.execGetTid s
  | .getPldmVersion pldmType => Sys2Proof.Machine.execGetPldmVersion pldmType s
  | .getPldmTypes => Sys2Proof.Machine.execGetPldmTypes s
  | .getPldmCommands pldmType => Sys2Proof.Machine.execGetPldmCommands pldmType s
  | .getSensorReading id => Sys2Proof.Machine.execGetSensorReading id s
  | .getStateSensorReadings id => Sys2Proof.Machine.execGetStateSensorReadings id s
  | .getPdrRepositoryInfo => Sys2Proof.Machine.execGetPdrRepositoryInfo s
  | .getPdr handle => Sys2Proof.Machine.execGetPdr handle s
  | .registerRead port fn bar off width => Sys2Proof.Machine.execRegisterRead port fn bar off width s
  | .serdesLockRegained pll => Sys2Proof.Machine.execSerdesLockRegained pll s
  | .frameDropped f => Sys2Proof.Machine.execFrameDropped f s
  | .configurationRequest port req => Sys2Proof.Machine.execConfigurationRequest port req s
  | .atsInvalidateRequest port fn addr len => Sys2Proof.Machine.execAtsInvalidateRequest port fn addr len s
  | .malformedTlp port fn overflow => Sys2Proof.Machine.execMalformedTlp port fn overflow s
  | .flitRetry port => Sys2Proof.Machine.execFlitRetry port s
  | .xtsSelfCheckFailure slot => Sys2Proof.Machine.execXtsSelfCheckFailure slot s
  | .erasePastHalfTime set slot => Sys2Proof.Machine.execErasePastHalfTime set slot s
  | .digestBlockDone eng msg => Sys2Proof.Machine.execDigestBlockDone eng msg s
  | .spiOperationDone => Sys2Proof.Machine.execSpiOperationDone s
  | .dynamicAddressAssignment addr => Sys2Proof.Machine.execDynamicAddressAssignment addr s

end Sys2Proof.Machine
end

