-- ==== Sys2Proof/Safety.lean ====
section
/-! DEFINITION. What a safe step and a safe run are: no fault and no refusal. -/
namespace Sys2Proof

/-- A step that answers a next state. -/
def SafeStep (s : Machine.State) : Prop := ∃ t, Machine.step s = .next t

/-- A run of `n` steps that meets no fault and no refusal. -/
def SafeRun : Nat → Machine.State → Prop
  | 0, _ => True
  | n + 1, s => ∃ t, Machine.step s = .next t ∧ SafeRun n t

namespace Claims

/-! ## Words for the statements: cores -/

open Machine

/-- The core may run an instruction now and the bytes of one of `len` bytes at its PC may be fetched (05 R189; 06 R205,
R239). -/
def CanRun (s : State) (k : CoreSel) (len : Nat) : Prop := s.runnable k = true ∧ s.fetchOk k len = .ok ()

/-- `s` with core `k` holding `c`; a control core then takes a pending interrupt, if it has them enabled (06 R245).
Nothing else differs from `s`. -/
def coreNext (s : State) (k : CoreSel) (c : Core) : State :=
  match k with
  | .crumb i => s.modCrumb i fun x => { x with core := c }
  | .ctrl i => s.modCcore i fun x => CtrlCore.takeIrq { x with core := c }

/-- A core that goes on `len` bytes further with one more instruction counted (05 R189). -/
def stepped (c : Core) (len : Nat) : Core := { c with pc := c.pc + BitVec.ofNat 32 len, icount := c.icount + 1 }

/-- A core that goes on at `target` with one more instruction counted. -/
def jumped (c : Core) (target : Word) : Core := { c with pc := target, icount := c.icount + 1 }

/-- A core with general register `d` written. -/
def wr (c : Core) (d : Fin 16) (r : Word) : Core := { c with g := c.g.set d r }

/-- A core with lane register `d` written, for `d` below 8. -/
def wrV (c : Core) (d : Fin 16) (r : Lane) : Core := { c with v := c.v.set (d.val % 8) r }

/-- A core with N and Z from a result (06 R200). -/
def nz (c : Core) (r : Word) : Core := { c with n := r.getLsbD 31, z := decide (r = 0) }

/-- A core with NZCV of `a + b + cin` (06 R200): C is the carry out of bit 31, V says that the operands have one sign and
the result the other. -/
def nzcvAdd (c : Core) (a b : Word) (cin : Bool) : Core :=
  let r := a + b + (if cin then 1 else 0)
  { nz c r with
    c := decide (2 ^ 32 ≤ a.toNat + b.toNat + (if cin then 1 else 0))
    vf := a.getLsbD 31 == b.getLsbD 31 && r.getLsbD 31 != a.getLsbD 31 }

/-- A core with NZCV of `a − b − bin` (06 R200): C is the borrow, V says that the operands differ in sign and the result
differs in sign from `a`. -/
def nzcvSub (c : Core) (a b : Word) (bin : Bool) : Core :=
  let r := a - b - (if bin then 1 else 0)
  { nz c r with
    c := decide (a.toNat < b.toNat + (if bin then 1 else 0))
    vf := a.getLsbD 31 != b.getLsbD 31 && r.getLsbD 31 != a.getLsbD 31 }

/-- Lane `i` of width `w` of a lane register. -/
def lane (w : Nat) (v : Lane) (i : Nat) : BitVec w := v.extractLsb' (w * i) w

/-! ## Words for the statements: loads, stores and frames -/

/-- A loaded value in a general register: sign-extended, or with zeros above it (06 R215). -/
def loaded (b : List Byte) (sgn : Bool) : Word :=
  if sgn then (BitVec.ofNat (8 * b.length) (leNat b)).signExtend 32 else BitVec.ofNat 32 (leNat b)

/-- The offset in its window of a banked operand: base and displacement modulo 65,536 (06 R202). -/
def banked (base : Word) (disp : BitVec 16) : Nat := (base.toNat + disp.toNat) % 65536

/-- Words stored one above the other from a flat address, the first under a stack limit (06 R219, R220). -/
def pushWords (s : State) (k : CoreSel) (a : Word) (limit : Option Word) : List Word → Except Exn State
  | [] => .ok s
  | w :: r => do
    let t ← s.storeFlat k a (leBytes 4 w.toNat) 4 limit
    pushWords t k (a + 4) none r

/-- The registers whose bits a mask sets, in rising order (06 R220). -/
def masked (mask : Nat) : List (Fin 16) := (List.finRange 16).filter fun i => mask.testBit i.val

/-- A core with registers written from a list of words, in order. -/
def restore (c : Core) : List (Fin 16) → List Word → Core
  | i :: r, w :: ws => restore (wr c i w) r ws
  | _, _ => c

/-- `f` carried out `n` times on core `k`, the count register `a` going down by one after each (06 R224). -/
def repeated (k : CoreSel) (a : Fin 16) (f : State → Except Exn State) : Nat → State → Except Exn State
  | 0, s => .ok s
  | n + 1, s => do
    let t ← f s
    repeated k a f n (t.modCore k fun c => wr c a (c.g[a] - 1))

/-! ## Words for the statements: traps -/

/-- PSW as a word (06 R242). -/
def pswWord (c : Core) : Word :=
  let bit (b : Bool) (n : Nat) : Word := if b then 1#32 <<< n else 0
  bit c.priv 0 ||| bit c.ie 1 ||| bit c.exl 2 ||| bit c.vf 4 ||| bit c.c 5 ||| bit c.z 6 ||| bit c.n 7

/-- A core with PSW taken from a word. -/
def withPsw (c : Core) (w : Word) : Core :=
  { c with
    priv := w.getLsbD 0, ie := w.getLsbD 1, exl := w.getLsbD 2, vf := w.getLsbD 4, c := w.getLsbD 5
    z := w.getLsbD 6, n := w.getLsbD 7 }

/-- A control core that has taken a trap (06 R243): the status and the place to resume at are saved, interrupts are off,
and it goes on at EVEC with bits 5:0 cleared, in privileged mode. -/
def trapped (c : Core) (cause info resume : Word) : Core :=
  { c with
    epsw := pswWord c, epc := resume, ecause := cause, einfo := info, priv := true, ie := false, exl := true
    pc := c.evec >>> 6 <<< 6 }

/-- The core and the length of an instruction, but for SVS and SVR, which may wait before they are fetched. -/
def isaForm : Instr → Option (CoreSel × Nat)
  | .ill k | .ret k | .nopInstruction k | .fence k | .brk k | .rft k | .idle k => some (k, 2)
  | .mov k _ _ | .add k _ _ | .sub k _ _ | .and16 k _ _ | .or16 k _ _ | .xor16 k _ _ | .cmp k _ _ | .tst k _ _ => some (k, 2)
  | .addq k _ _ | .subq k _ _ | .movq k _ _ | .neg k _ _ | .not16 k _ _ | .mtb k _ _ | .mfb k _ _ | .clz k _ _ => some (k, 2)
  | .popc k _ _ | .push k _ | .pop k _ | .jr k _ => some (k, 2)
  | .rep k _ body | .repi k _ body => some (k, repLen body)
  | .aluAdd k _ _ _ | .aluAdc k _ _ _ | .aluSub k _ _ _ | .aluSbc k _ _ _ | .aluAnd k _ _ _ | .aluOr k _ _ _ => some (k, 4)
  | .aluXor k _ _ _ | .aluAndn k _ _ _ | .aluShl k _ _ _ | .aluShr k _ _ _ | .aluSar k _ _ _ | .aluRor k _ _ _ => some (k, 4)
  | .aluMul k _ _ _ | .aluMulhu k _ _ _ | .aluMulhs k _ _ _ | .aluDivu k _ _ _ | .aluRemu k _ _ _ => some (k, 4)
  | .aluDivs k _ _ _ | .aluRems k _ _ _ | .aluMinu k _ _ _ | .aluMaxu k _ _ _ | .aluMins k _ _ _ => some (k, 4)
  | .aluMaxs k _ _ _ | .addi k _ _ _ | .andi k _ _ _ | .ori k _ _ _ | .xori k _ _ _ | .perm k _ _ _ => some (k, 4)
  | .aluBswap k _ _ | .cmpi k _ _ | .setcc k _ _ | .mtbi k _ _ | .bcc k _ _ | .callr k _ _ | .dgo k _ _ => some (k, 4)
  | .mfc k _ _ | .mtc k _ _ => some (k, 4)
  | .shi k _ _ _ _ | .bfi k _ _ _ _ | .csel k _ _ _ _ | .dgf k _ _ _ _ => some (k, 4)
  | .bfx k _ _ _ _ _ | .ld k _ _ _ _ _ _ | .st k _ _ _ _ _ => some (k, 4)
  | .ldf k _ _ _ _ _ _ _ | .stf k _ _ _ _ _ _ => some (k, 4)
  | .flat k _ _ _ | .cpy k _ _ _ | .vmov k _ _ _ | .vsplat k _ _ _ | .vext k _ _ _ | .vins k _ _ _ => some (k, 4)
  | .vmask k _ _ _ | .dge k _ _ _ => some (k, 4)
  | .vld k _ _ _ _ _ | .vst k _ _ _ _ _ => some (k, 4)
  | .aadd k _ _ _ _ | .aswp k _ _ _ _ | .acas k _ _ _ _ | .aand k _ _ _ _ | .aor k _ _ _ _ | .amaxu k _ _ _ _ => some (k, 4)
  | .vadd k _ _ _ _ | .vsub k _ _ _ _ | .vand k _ _ _ _ | .vor k _ _ _ _ | .vxor k _ _ _ _ | .vandn k _ _ _ _ => some (k, 4)
  | .vcmpeq k _ _ _ _ | .vcmpgtu k _ _ _ _ | .vcmpgts k _ _ _ _ | .vminu k _ _ _ _ | .vmaxu k _ _ _ _ => some (k, 4)
  | .vshl k _ _ _ _ | .vshr k _ _ _ _ | .vsar k _ _ _ _ | .vperm k _ _ _ _ => some (k, 4)
  | .movi k _ _ | .cmpiw k _ _ | .call k _ _ => some (k, 6)
  | .addiw k _ _ _ | .andiw k _ _ _ => some (k, 6)
  | .ldx k _ _ _ _ _ _ _ | .stx k _ _ _ _ _ _ => some (k, 6)
  | _ => none

/-! ## Words for the statements: commands and replies -/

/-- From `s` to `t` the device has only added to what it sends and holds, and `x` is among what it added. -/
def Sends (s t : State) (x : Tx) : Prop :=
  ∃ l m, t.tx = s.tx ++ l ∧ t.held = s.held ++ m ∧ (x ∈ l ∨ x ∈ m.map Held.out)

/-- The reply of a command: its CID, its queue pair's number, the status and the results (03 R93). -/
def IsReply (c : Cmd) (st : Status) (r0 r1 r2 : Nat) (x : Tx) : Prop :=
  ∃ addr r, x = .reply c.port c.fn addr r ∧ r.cid = c.pkt.cid ∧ r.qid = c.qid ∧ r.port = c.port ∧ r.status = st ∧
    r.result0 = r0 % 2 ^ 32 ∧ r.result1 = r1 % 2 ^ 64 ∧ r.result2 = r2 % 2 ^ 56

/-- The command is answered and gone (03 R95). -/
def Answered (s t : State) (c : Cmd) (st : Status) (r0 r1 r2 : Nat) : Prop :=
  t.cmd? c.tag = none ∧ ∃ x, Sends s t x ∧ IsReply c st r0 r1 r2 x

/-- A command that no reset has overtaken, with a queue pair to answer to. -/
def Live (s : State) (c : Cmd) : Prop := c.doomed = false ∧ (s.qp c.port c.fn c.qid).isSome = true

/-- The command that a row carries out: fetched under `tag` with the opcode, started, its host data here, not yet carried
out; and it can be answered. -/
def Turn (s : State) (tag op : Nat) (c : Cmd) : Prop := s.ready tag op = some c ∧ Live s c

/-- The place of byte `i` of a command's buffer in host memory (03 R87). -/
def bufPlace (c : Cmd) (i : Nat) : Nat :=
  if bitOf c.pkt.flags 2 then c.pages.getD (i / 4096) 0 + i % 4096 else c.pkt.dataAddr + i

/-- Every byte of `b` is written to the command's buffer. -/
def Delivered (s t : State) (c : Cmd) (b : List Byte) : Prop :=
  ∀ i < b.length, ∃ a d, Sends s t (.hostWrite c.port c.fn a d) ∧ a ≤ bufPlace c i ∧ bufPlace c i < a + d.length ∧
    d.getD (bufPlace c i - a) 0 = b.getD i 0

/-- Nothing of what the device stores, computes with or is configured by has changed: only commands, queue pairs, replies,
logs, counters and contexts may have. -/
def KeepsData (s t : State) : Prop :=
  t.pending = s.pending ∧ t.modes = s.modes ∧ t.cfg = s.cfg ∧ t.versions = s.versions ∧ t.commits = s.commits ∧
  t.records = s.records ∧ t.mem = s.mem ∧ t.keys = s.keys ∧ t.banks = s.banks ∧ t.crumbs = s.crumbs ∧ t.ctrls = s.ctrls ∧
  t.jobs = s.jobs ∧ t.bufs = s.bufs ∧ t.rollers = s.rollers ∧ t.firon = s.firon ∧ t.hk = s.hk ∧
  t.flash.sectors = s.flash.sectors ∧ t.flash.rows = s.flash.rows ∧ t.flash.sets = s.flash.sets ∧ t.flash.cards = s.flash.cards

/-! ## Words for the statements: flash, Group and streams -/

/-- A row that is open for a Batch and a kind of data and holds nothing yet (10 R356). -/
def EmptyRow (s : State) (batch : Nat) (kind : RowKind) (prot : Bool) : Prop :=
  ∃ r, (s.flash.rows.find? fun r => !r.issued && !r.due && r.repair.isNone && r.batch == batch && r.kind == kind && r.prot == prot &&
      (s.set? r.set).any s.setFits) = some r ∧ r.groups = [] ∧ s.row? r.id = some r

/-- Beside commands to its flash channels, the device sends nothing between two states. -/
def Quiet (s t : State) : Prop :=
  t.held = s.held ∧ ∃ l, t.tx = s.tx ++ l ∧ ∀ x ∈ l, ∃ slot chan die codes, x = .onfi slot chan die codes

/-- A group of an owner is in a row. -/
def InRow (t : State) (g : Group) : Prop := ∃ r ∈ t.flash.rows, g ∈ r.groups

/-- A read of a sector is outstanding for an owner (10 R359). -/
def Reading (t : State) (o : ReadFor) (sector : Nat) : Prop := ∃ r ∈ t.flash.reads, r.owner = o ∧ r.sector = sector

/-- No Group-coded commit is under way and no version of this device is in the Group (12 R429, R430). -/
def NoGroupWork (s : State) : Prop := (∀ x ∈ s.commits, x.phase ≠ .shards) ∧ s.firon.shipped = []

/-- A stream of a tenant is gone. -/
def StreamGone (t : State) (handle : Nat) : Prop := ∀ x ∈ t.ctxs, x.handle ≠ handle

/-- The command's reads and gathers other than one read have ended. -/
def LastRead (s : State) (tag rid : Nat) : Prop :=
  (∀ y ∈ s.flash.reads, ∀ i, y.owner = .cmd tag i → y.id = rid) ∧ ∀ g ∈ s.firon.gathers, ∀ i, g.owner ≠ .cmd tag i

/-- The pieces of a read command from the first up to the first that is missing. -/
def piecesUpTo (c : Cmd) : Nat → List Byte
  | 0 => []
  | n + 1 => if (List.range n).all fun i => (c.got.look i).isSome then piecesUpTo c n ++ (c.got.look n).getD [] else piecesUpTo c n

/-- A job is in a ring of the Rollers, or waits for a slot of one (07 R262). -/
def Submitted (t : State) (j : RollerJob) : Prop :=
  (∃ p i, (t.roller p).ring.look i = some j) ∨ ∃ l, (l, j) ∈ t.rolls.waits

/-- A job has ended with an END and a status: no Crumb runs or holds a slice of it, and its slice buffers are back (05 R196). -/
def JobEnded (t : State) (slot fin : Nat) (st : Status) : Prop :=
  (t.job? slot).map (fun j => (j.ending, j.st)) = some (some (fin, st), .finishing) ∧
  (∀ k e, (t.crumb k).run = some e → e.job ≠ slot) ∧ (∀ k, ∀ e ∈ (t.crumb k).deque, e.job ≠ slot) ∧
  ∀ b ∈ t.bufs, b.entry.job ≠ slot

/-- A job that runs to no end yet and has no output commit. -/
def JobRuns (s : State) (slot : Nat) : Prop :=
  (s.job? slot).map Job.ending = some none ∧ ∀ c ∈ s.commits, c.owner ≠ .job slot

/-- The registers of a Crumb at the entry of a slice (05 R167): R0 to R5 tell of the slice, R14 is the stack, R15 the exit
address, B0, B1 and B3 the banks; every other register is zero. -/
def SliceEntry (c : Core) (j : Job) (e : Entry) : Prop :=
  c.pc = BitVec.ofNat 32 j.prog.entrySlice ∧ c.g[0] = BitVec.ofNat 32 e.length ∧ c.g[1] = BitVec.ofNat 32 e.input ∧
  c.g[2] = BitVec.ofNat 32 e.offset ∧ c.g[3] = BitVec.ofNat 32 (e.offset / 2 ^ 32) ∧ c.g[4] = BitVec.ofNat 32 e.slice ∧
  c.g[5] = BitVec.ofNat 32 j.desc.paramLen ∧ (∀ i : Fin 16, 6 ≤ i.val → i.val ≤ 13 → c.g[i] = 0) ∧ c.g[14] = 0x0003FFF0#32 ∧
  c.g[15] = 0xFFFF0000#32 ∧ c.v = Vector.replicate 8 0 ∧ c.b[0] = 0x0010#16 ∧ c.b[1] = 0x0020#16 ∧ c.b[2] = 0 ∧
  c.b[3] = 0x0100#16 ∧ c.slimit = BitVec.ofNat 32 (262144 - j.prog.stackLen) ∧ c.icount = 0 ∧ c.priv = false ∧
  (c.n || c.z || c.c || c.vf) = false

/-! ## Words for the statements: resets -/

/-- Function `n` has been reset on a port (03 R105): a new generation, no queue pair, nothing left to answer, and a reset
under way. -/
def PathReset (s t : State) (port : Port) (n : Nat) : Prop :=
  (t.fp port n).generation = (s.fp port n).generation + 1 ∧ (t.fp port n).resetting = true ∧
  (∀ q ∈ t.qps, ¬(q.fn = n ∧ q.port = port)) ∧
  ((∀ j ∈ s.jobs, j.tenant ≠ n) → ∀ y ∈ t.cmds, y.fn = n → y.port = port → y.doomed = true)

/-- Function 0 has been reset on a port (04 R125), and with it every function that was enabled there; no other has. -/
def PortReset (s t : State) (port : Port) : Prop :=
  (∀ q ∈ t.qps, ¬(q.fn = 0 ∧ q.port = port)) ∧ (∀ y ∈ t.cmds, y.fn = 0 → y.port = port → y.doomed = true) ∧
  (t.hp port).vfEnable = false ∧ (t.hp port).numVfs = 0 ∧ (t.fp port 0).asqBase = 0 ∧ (t.fp port 0).aqCfg = 0 ∧
  (∀ n, 1 ≤ n → n ≤ (s.hp port).enabledVfs → PathReset s t port n) ∧
  ∀ n, (s.hp port).enabledVfs < n → (t.fp port n).generation = (s.fp port n).generation

/-- The tags of the commands differ, and no queue pair is being deleted. -/
def Calm (s : State) : Prop := (s.cmds.map Cmd.tag).Nodup ∧ ∀ q ∈ s.qps, q.deleting = none

/-! ## Words for the statements: Firon Link -/

/-- A frame of a type that passes every check of 12 R415 while Firon Link runs, and its header; the bank of its lookup is not
held (09 R329). -/
def Received (s : State) (f : RxFrame) (h : Rx) (type : Nat) : Prop :=
  s.linkRuns = true ∧ s.awake = true ∧ s.frameWaits f = false ∧ s.checkFrame f = .fine h ∧ h.type = type

/-- The frame on an Ethernet port that carries bytes of a Firon type to a peer (12 R411, R413). -/
def FrameTo (s : State) (eth p type : Nat) (x : Tx) : Prop :=
  ∃ b, x = .frame eth (s.etherFrame eth p (s.peer p).addr ((s.peer p).macs.getD eth 0) b) ∧ fieldBe b 1 1 = type

/-- A reliable frame has been accepted (12 R420): it will not be delivered again, and its sender's loss vote is cleared. -/
def Accepted (s t : State) (h : Rx) : Prop :=
  (h.seq ≤ (t.peer h.src).ackRcv ∨ h.seq ∈ (t.peer h.src).rcvd) ∧ (s.peer h.src).ackRcv ≤ (t.peer h.src).ackRcv ∧
  (t.peer h.src).vote = false

/-- A reliable message to a peer has been sent and is not acknowledged, or waits behind 4,096 that are not (12 R420). -/
def Queued (t : State) (dst type : Nat) (payload : List Byte) : Prop :=
  (∃ x ∈ (t.peer dst).unacked, x.type = type ∧ x.payload = payload) ∨ (type, payload) ∈ (t.peer dst).waiting

/-- A 32-bit counter has counted one, and saturates (00 R9). -/
def Counted (s t : State) (n : RegName) (i : Nat) : Prop :=
  t.reg n i = BitVec.ofNat 64 (min ((s.reg n i).toNat + 1) 0xFFFFFFFF)

/-- A member that is neither Absent nor Lost. -/
def Alive (s : State) (p : Nat) : Prop := (s.peer p).st = 1 ∨ (s.peer p).st = 2

/-- Every member that more than half of the Group votes lost is Lost (12 R423). -/
def VotesCounted (t : State) : Prop :=
  ∀ p < 32, (t.peer p).st ≠ 0 → t.members.length + 1 < 2 * t.lossVotes p → (t.peer p).st = 3

/-! ## Words for the statements: device reset and Power-Fail -/

/-- What a device reset leaves of a state (13 R438; 04 R129; 15 R492): nothing of commands, queue pairs, streams, jobs and engines;
keys are gone but for their fingerprints; tenants are Disabled. Where no row was open, they keep their containers, what is on flash
stays, and versions that were current stay when no commit was under way; what an open row had left on flash counts where it is
complete (02 R65; 04 R140). -/
def WasReset (s t : State) : Prop :=
  t.pending = s.pending ∧ t.cmds = [] ∧ t.qps = [] ∧ t.ctxs = [] ∧ t.commits = [] ∧ t.jobs = [] ∧ t.bufs = [] ∧ t.held = [] ∧
  t.latches = [] ∧ t.crumbs = [] ∧ t.rollers = [] ∧ t.banks = [] ∧ t.mem.bytes = [] ∧ t.flash.rows = [] ∧ t.flash.reads = [] ∧
  t.flash.ops = [] ∧ t.keys.tenant = [] ∧ t.firon.enabled = false ∧ t.firon.peers = [] ∧ (∀ n, (t.tenant n).state = .disabled) ∧
  (s.flash.rows = [] → t.keys.fingerprints = s.keys.fingerprints ∧
    (∀ n, (t.tenant n).nss = (s.tenant n).nss ∧ (t.tenant n).spaces = (s.tenant n).spaces) ∧
    (∀ x ∈ s.flash.sectors, (∀ y ∈ s.flash.sets, ∀ m ∈ y.members, m.erase = 0) → x ∈ t.flash.sectors) ∧
    (s.commits = [] → ∀ v ∈ s.versions, s.latest v.tenant v.space v.oid = some v → v ∈ t.versions))

/-- Starter has begun with a cause and counted the start (13 R450; 15 CLK_RESET). -/
def Started (s t : State) (cause : Nat) : Prop :=
  t.modes.mode = .starter ∧ t.modes.cause = cause ∧ t.modes.starts = min (s.modes.starts + 1) 255 ∧ t.modes.parked = false ∧
  t.modes.rootLock = true ∧ t.boot.powerCycle = s.boot.powerCycle + 1

/-- The device has entered Power-Fail (13 R459): no job and no erase goes on, and the park record is being written where the boot
flash was idle. -/
def Failing (s t : State) (cause : Nat) : Prop :=
  t.modes.mode = .powerFail ∧ t.modes.powerFail = true ∧ t.modes.running = false ∧ t.modes.nextCause = cause ∧
  (∀ j ∈ s.jobs, t.job? j.slot = none) ∧ (∀ x ∈ t.flash.sets, ∀ m ∈ x.members, m.erase ≠ 1) ∧
  (s.boot.ops = [] → ∃ r, t.boot.ops.head? = some (.parkRecord r) ∧ r.powerCycle = s.boot.powerCycle)

/-- May the device fail: it is in M2 to M10 (13 R458)? -/
def CanFail (s : State) : Prop := s.modes.mode ≠ .off ∧ s.modes.mode ≠ .standby ∧ s.modes.mode ≠ .powerFail

/-! ## Words for the statements: the whole machine -/

/-- A register access names an address that exists (01 R24; 04 R123). -/
def AddressExists : Instr → Prop
  | .registerWrite _ fn bar off _ _ => inBar fn bar off = true
  | .registerRead _ fn bar off _ => inBar fn bar off = true
  | .rcRegisterRead _ fn bar off _ => inBar fn bar off = true
  | _ => True

/-- The event records are in the order of their numbers (14 R481 to R483): every number is below the next one, which lies in the
run after the newest durable one or before it; none is used twice; the ring and the circulating area keep their sizes. -/
def EventsOrdered (e : EvRecorder) : Prop :=
  1 ≤ e.next ∧ e.next ≤ 4096 * e.durableRun + 1 ∧ (∀ r ∈ e.ring ++ e.queued ++ e.circ, r.number < e.next) ∧
  e.ring.Pairwise (fun a b => b.number < a.number) ∧ (e.queued ++ e.circ).Pairwise (fun a b => b.number < a.number) ∧
  e.ring.length ≤ 2048 ∧ e.circ.length ≤ 262144

/-- What holds in every state that a run reaches: package memory and the Crumbs' local stores have their canonical form, every
command has a tag of its own among those given out, and the event records are in order. -/
def Sound (s : State) : Prop :=
  s.mem.bytes.wf = true ∧ (∀ x ∈ s.crumbs, x.2.store.wf = true) ∧ (s.cmds.map Cmd.tag).Nodup ∧ (∀ c ∈ s.cmds, c.tag < s.nextTag) ∧
  EventsOrdered s.evr

end Claims

end Sys2Proof
end

