-- ==== Sys2Proof/Certificates/Slice0/Obligations.lean ====
section
/-! DEFINITION. The statements for the provers. -/

/-- A step of a state whose queue is not empty carries out the command in front. -/
def Obligations.StepRunsFront : Prop :=
  ∀ (c : Sys2Proof.Instr) (rest : List Sys2Proof.Instr) (s : Sys2Proof.Machine.State),
    s.pending = c :: rest → Sys2Proof.Machine.step s = Sys2Proof.Machine.exec c { s with pending := rest }

open Sys2Proof Sys2Proof.Machine Sys2Proof.Claims

/-! ## The Ariust-2 instructions -/

/-- 06 R212: the 16-bit moves and logic operations write gA (NZ where the table says so) and change nothing else but
the PC and the instruction count.
06 R213, R214, R218: the 32-bit and 48-bit logic operations write gD and set NZ; MOVI and SETcc, CSEL and FLAT write
gD and set no flag. -/
def Obligations.MovesLogicAndSelect : Prop :=
  (
    ∀ (s : State) (k : CoreSel) (a b : Fin 16), CanRun s k 2 →
      let c := s.core k
      let x := c.g[a]
      let y := c.g[b]
      let nxt (r : Core) := Host.Outcome.next (coreNext s k (stepped r 2))
      exec (.mov k a b) s = nxt (wr c a y) ∧
      exec (.and16 k a b) s = nxt (wr (nz c (x &&& y)) a (x &&& y)) ∧
      exec (.or16 k a b) s = nxt (wr (nz c (x ||| y)) a (x ||| y)) ∧
      exec (.xor16 k a b) s = nxt (wr (nz c (x ^^^ y)) a (x ^^^ y)) ∧
      exec (.not16 k a b) s = nxt (wr (nz c (~~~y)) a (~~~y)) ∧
      exec (.tst k a b) s = nxt (nz c (x &&& y)) ∧
      exec (.movq k a b) s = nxt (wr c a (BitVec.ofNat 32 b.val)) ∧
      exec (.nopInstruction k) s = nxt c ∧
      exec (.fence k) s = nxt c) ∧
  (
    ∀ (s : State) (k : CoreSel) (d a b cond : Fin 16) (bk : Fin 4) (imm : BitVec 16) (w : Word),
      let c := s.core k
      let x := c.g[a]
      let y := c.g[b]
      let z := imm.setWidth 32
      let logic (r : Word) := wr (nz c r) d r
      let nxt (n : Nat) (r : Core) := Host.Outcome.next (coreNext s k (stepped r n))
      let holds : Bool :=
        (match cond.val % 8 with
          | 0 => c.z
          | 1 => c.c
          | 2 => c.c || c.z
          | 3 => c.n != c.vf
          | 4 => c.z || (c.n != c.vf)
          | 5 => c.n
          | 6 => c.vf
          | _ => false) != decide (8 ≤ cond.val)
      (CanRun s k 4 →
        exec (.aluAnd k d a b) s = nxt 4 (logic (x &&& y)) ∧
        exec (.aluOr k d a b) s = nxt 4 (logic (x ||| y)) ∧
        exec (.aluXor k d a b) s = nxt 4 (logic (x ^^^ y)) ∧
        exec (.aluAndn k d a b) s = nxt 4 (logic (x &&& ~~~y)) ∧
        exec (.andi k d a imm) s = nxt 4 (logic (x &&& z)) ∧
        exec (.ori k d a imm) s = nxt 4 (logic (x ||| z)) ∧
        exec (.xori k d a imm) s = nxt 4 (logic (x ^^^ z)) ∧
        exec (.setcc k d cond) s = nxt 4 (wr c d (if holds then 1 else 0)) ∧
        exec (.csel k d a b cond) s = nxt 4 (wr c d (if holds then x else y)) ∧
        exec (.flat k d a bk) s = nxt 4 (wr c d (c.b[bk] ++ x.setWidth 16))) ∧
      (CanRun s k 6 →
        exec (.andiw k d a w) s = nxt 6 (logic (x &&& w)) ∧
        exec (.movi k d w) s = nxt 6 (wr c d w)))

/-- 06 R200, R212 to R214, R218: every addition and subtraction writes its register with NZCV as R200 says; the compares
set the flags only. -/
def Obligations.AddAndSubtract : Prop :=
  ∀ (s : State) (k : CoreSel) (d a b : Fin 16) (imm : BitVec 16) (w : Word),
    let c := s.core k
    let x := c.g[a]
    let y := c.g[b]
    let i := imm.signExtend 32
    let q := BitVec.ofNat 32 (b.val + 1)
    let add (p r : Word) (cin : Bool) (e : Fin 16) := wr (nzcvAdd c p r cin) e (p + r + (if cin then 1 else 0))
    let sub (p r : Word) (bin : Bool) (e : Fin 16) := wr (nzcvSub c p r bin) e (p - r - (if bin then 1 else 0))
    let nxt (n : Nat) (r : Core) := Host.Outcome.next (coreNext s k (stepped r n))
    (CanRun s k 2 →
      exec (.add k a b) s = nxt 2 (add x y false a) ∧
      exec (.sub k a b) s = nxt 2 (sub x y false a) ∧
      exec (.cmp k a b) s = nxt 2 (nzcvSub c x y false) ∧
      exec (.addq k a b) s = nxt 2 (add x q false a) ∧
      exec (.subq k a b) s = nxt 2 (sub x q false a) ∧
      exec (.neg k a b) s = nxt 2 (sub 0 y false a)) ∧
    (CanRun s k 4 →
      exec (.aluAdd k d a b) s = nxt 4 (add x y false d) ∧
      exec (.aluAdc k d a b) s = nxt 4 (add x y c.c d) ∧
      exec (.aluSub k d a b) s = nxt 4 (sub x y false d) ∧
      exec (.aluSbc k d a b) s = nxt 4 (sub x y c.c d) ∧
      exec (.addi k d a imm) s = nxt 4 (add x i false d) ∧
      exec (.cmpi k a imm) s = nxt 4 (nzcvSub c x i false)) ∧
    (CanRun s k 6 →
      exec (.addiw k d a w) s = nxt 6 (add x w false d) ∧
      exec (.cmpiw k a w) s = nxt 6 (nzcvSub c x w false))

/-- 06 R213, R214: the shifts. The amount of a register shift is gB modulo 256 (of a rotation modulo 32); C is the last
bit shifted out, is unchanged by the amount 0, and from 32 on is 0, or bit 31 of gA for SAR. -/
def Obligations.Shifts : Prop :=
  ∀ (s : State) (k : CoreSel) (d a b : Fin 16) (sh : Fin 32), CanRun s k 4 →
    let c := s.core k
    let x := c.g[a]
    let m := c.g[b].toNat % 256
    let out (n : Nat) (last late : Bool) : Bool := if n = 0 then c.c else if n < 32 then last else late
    let shl (n : Nat) := wr { nz c (x <<< n) with c := out n (x.getLsbD (32 - n)) false } d (x <<< n)
    let shr (n : Nat) := wr { nz c (x >>> n) with c := out n (x.getLsbD (n - 1)) false } d (x >>> n)
    let sar (n : Nat) := wr { nz c (x.sshiftRight n) with c := out n (x.getLsbD (n - 1)) (x.getLsbD 31) } d (x.sshiftRight n)
    let ror (n : Nat) := wr (nz c (x >>> n ||| x <<< (32 - n))) d (x >>> n ||| x <<< (32 - n))
    let nxt (r : Core) := Host.Outcome.next (coreNext s k (stepped r 4))
    exec (.aluShl k d a b) s = nxt (shl m) ∧
    exec (.aluShr k d a b) s = nxt (shr m) ∧
    exec (.aluSar k d a b) s = nxt (sar m) ∧
    exec (.aluRor k d a b) s = nxt (ror (m % 32)) ∧
    exec (.shi k d a sh 0) s = nxt (shl sh.val) ∧
    exec (.shi k d a sh 1) s = nxt (shr sh.val) ∧
    exec (.shi k d a sh 2) s = nxt (sar sh.val) ∧
    exec (.shi k d a sh 3) s = nxt (ror sh.val)

/-- 06 R214: products, quotients and remainders, least and greatest, and the byte swap write gD and set no flag. A zero
divisor gives all ones and leaves gA as the remainder; the most negative number by −1 wraps to itself.
06 R212, R213: bit fields, byte selection and bit counts, bit by bit. A field that does not lie in the word raises
INVALID. -/
def Obligations.MultiplyDivideAndFields : Prop :=
  (
    ∀ (s : State) (k : CoreSel) (d a b : Fin 16), CanRun s k 4 →
      let c := s.core k
      let x := c.g[a]
      let y := c.g[b]
      let nxt (r : Word) := Host.Outcome.next (coreNext s k (stepped (wr c d r) 4))
      exec (.aluMul k d a b) s = nxt (x * y) ∧
      exec (.aluMulhu k d a b) s = nxt ((x.setWidth 64 * y.setWidth 64).extractLsb' 32 32) ∧
      exec (.aluMulhs k d a b) s = nxt ((x.signExtend 64 * y.signExtend 64).extractLsb' 32 32) ∧
      (∃ q, exec (.aluDivu k d a b) s = nxt q ∧ if y = 0 then q = BitVec.allOnes 32 else q.toNat = x.toNat / y.toNat) ∧
      (∃ r, exec (.aluRemu k d a b) s = nxt r ∧ if y = 0 then r = x else r.toNat = x.toNat % y.toNat) ∧
      (∃ q, exec (.aluDivs k d a b) s = nxt q ∧
        if y = 0 then q = BitVec.allOnes 32
        else if x = 0x80000000#32 ∧ y = BitVec.allOnes 32 then q = x
        else q.toInt = x.toInt.tdiv y.toInt) ∧
      (∃ r, exec (.aluRems k d a b) s = nxt r ∧ if y = 0 then r = x else r.toInt = x.toInt.tmod y.toInt) ∧
      (∃ r, exec (.aluMinu k d a b) s = nxt r ∧ r.toNat = min x.toNat y.toNat) ∧
      (∃ r, exec (.aluMaxu k d a b) s = nxt r ∧ r.toNat = max x.toNat y.toNat) ∧
      (∃ r, exec (.aluMins k d a b) s = nxt r ∧ r.toInt = min x.toInt y.toInt) ∧
      (∃ r, exec (.aluMaxs k d a b) s = nxt r ∧ r.toInt = max x.toInt y.toInt) ∧
      exec (.aluBswap k d a) s =
        nxt (x.extractLsb' 0 8 ++ x.extractLsb' 8 8 ++ x.extractLsb' 16 8 ++ x.extractLsb' 24 8)) ∧
  (
    ∀ (s : State) (k : CoreSel) (d a b : Fin 16) (p l1 : Fin 32) (sgn : Bool) (sel : BitVec 16),
      let c := s.core k
      let x := c.g[a]
      let y := c.g[b]
      let l := l1.val + 1
      let nxt (n : Nat) (e : Fin 16) (r : Word) := Host.Outcome.next (coreNext s k (stepped (wr c e r) n))
      (CanRun s k 4 →
        (∃ r, exec (.perm k d a sel) s = nxt 4 d r ∧ ∀ i < 4, r.extractLsb' (8 * i) 8 =
          (let n := (sel.extractLsb' (4 * i) 4).toNat
           if n < 4 then x.extractLsb' (8 * n) 8 else if n < 8 then c.g[d].extractLsb' (8 * (n - 4)) 8 else 0)) ∧
        (if p.val + l ≤ 32 then
          (∃ r, exec (.bfx k d a p l1 sgn) s = nxt 4 d r ∧ ∀ i < 32, r.getLsbD i =
            if i < l then x.getLsbD (p.val + i) else sgn && x.getLsbD (p.val + l - 1)) ∧
          (∃ r, exec (.bfi k d a p l1) s = nxt 4 d r ∧ ∀ i < 32, r.getLsbD i =
            if p.val ≤ i ∧ i < p.val + l then x.getLsbD (i - p.val) else c.g[d].getLsbD i)
        else
          exec (.bfx k d a p l1 sgn) s = .next (s.raise k exnInvalid) ∧
          exec (.bfi k d a p l1) s = .next (s.raise k exnInvalid))) ∧
      (CanRun s k 2 →
        (∃ n, exec (.clz k a b) s = nxt 2 a (BitVec.ofNat 32 n) ∧ n ≤ 32 ∧ (∀ i < n, y.getLsbD (31 - i) = false) ∧
          (n < 32 → y.getLsbD (31 - n) = true)) ∧
        exec (.popc k a b) s = nxt 2 a (BitVec.ofNat 32 ((List.range 32).countP fun i => y.getLsbD i))))

/-- 06 R205, R212, R213: MFB reads a bank register; MTB and MTBI write one with a window number of the core's grant, and
raise WINDOW, with nothing written, for a number outside it; a bank number above 3 is INVALID.
06 R202, R213, R215, R218: a load from a banked address writes gD with the bytes, extended; the exception of the
access, or INVALID for a field combination that R215 excludes, is raised with no register written.
06 R202, R213, R215, R218: a store to a banked address stores the low bytes of gD there and changes no register; what
`storeAt` changes is said in LocalStoreAccess.
Model's choices in it: log entry 113. -/
def Obligations.BankedAccess : Prop :=
  (
    ∀ (s : State) (k : CoreSel) (a b : Fin 16) (bk : Fin 4) (imm : BitVec 16),
      let c := s.core k
      let w := c.g[b].setWidth 16
      let put (i : Fin 4) (v : BitVec 16) : Core := { c with b := c.b.set i v }
      let window (v : BitVec 16) := Host.Outcome.next (ρ := Refusal) (φ := Fault) (s.raise k (exnWindow (v ++ 0#16)))
      let nxt (n : Nat) (r : Core) := Host.Outcome.next (coreNext s k (stepped r n))
      (CanRun s k 2 →
        (∀ i : Fin 4, b.val = i.val → exec (.mfb k a b) s = nxt 2 (wr c a (c.b[i].setWidth 32))) ∧
        (4 ≤ b.val → exec (.mfb k a b) s = .next (s.raise k exnInvalid)) ∧
        (∀ i : Fin 4, a.val = i.val → exec (.mtb k a b) s = if s.bankOk k w then nxt 2 (put i w) else window w) ∧
        (4 ≤ a.val → exec (.mtb k a b) s = .next (s.raise k exnInvalid))) ∧
      (CanRun s k 4 → exec (.mtbi k bk imm) s = if s.bankOk k imm then nxt 4 (put bk imm) else window imm)) ∧
  (
    ∀ (s : State) (k : CoreSel) (d a : Fin 16) (bk size : Fin 4) (sgn nb : Bool) (disp : BitVec 11) (off : BitVec 16),
      let c := s.core k
      let bad : Prop := size.val = 3 ∨ (sgn = true ∧ size.val = 2)
      let at1 := s.load k c.b[bk].toNat (banked c.g[a] (disp.signExtend 16)) (2 ^ size.val)
      let at2 := s.load k c.b[bk].toNat (banked (if nb then 0 else c.g[a]) off) (2 ^ size.val)
      (CanRun s k 4 →
        (bad → exec (.ld k d a bk size sgn disp) s = .next (s.raise k exnInvalid)) ∧
        (¬bad → ∀ e, at1 = .error e → exec (.ld k d a bk size sgn disp) s = .next (s.raise k e)) ∧
        (¬bad → ∀ b t, at1 = .ok (b, t) → b.length = 2 ^ size.val → exec (.ld k d a bk size sgn disp) s =
          .next (coreNext t k (stepped (wr c d (loaded b sgn)) 4)))) ∧
      (CanRun s k 6 →
        (bad ∨ (nb = true ∧ a ≠ 0) → exec (.ldx k d a bk size sgn nb off) s = .next (s.raise k exnInvalid)) ∧
        (¬(bad ∨ (nb = true ∧ a ≠ 0)) → ∀ e, at2 = .error e →
          exec (.ldx k d a bk size sgn nb off) s = .next (s.raise k e)) ∧
        (¬(bad ∨ (nb = true ∧ a ≠ 0)) → ∀ b t, at2 = .ok (b, t) → b.length = 2 ^ size.val → exec (.ldx k d a bk size sgn nb off) s =
          .next (coreNext t k (stepped (wr c d (loaded b sgn)) 6))))) ∧
  (
    ∀ (s : State) (k : CoreSel) (d a : Fin 16) (bk size : Fin 4) (nb : Bool) (disp : BitVec 11) (off : BitVec 16),
      let c := s.core k
      let b := leBytes (2 ^ size.val) c.g[d].toNat
      let at1 := s.storeAt k c.b[bk].toNat (banked c.g[a] (disp.signExtend 16)) b
      let at2 := s.storeAt k c.b[bk].toNat (banked (if nb then 0 else c.g[a]) off) b
      (CanRun s k 4 →
        (size.val = 3 → exec (.st k d a bk size disp) s = .next (s.raise k exnInvalid)) ∧
        (size.val < 3 → ∀ e, at1 = .error e → exec (.st k d a bk size disp) s = .next (s.raise k e)) ∧
        (size.val < 3 → ∀ t, at1 = .ok t → exec (.st k d a bk size disp) s = .next (coreNext t k (stepped c 4)))) ∧
      (CanRun s k 6 →
        (size.val = 3 ∨ (nb = true ∧ a ≠ 0) → exec (.stx k d a bk size nb off) s = .next (s.raise k exnInvalid)) ∧
        (¬(size.val = 3 ∨ (nb = true ∧ a ≠ 0)) → ∀ e, at2 = .error e →
          exec (.stx k d a bk size nb off) s = .next (s.raise k e)) ∧
        (¬(size.val = 3 ∨ (nb = true ∧ a ≠ 0)) → ∀ t, at2 = .ok t → exec (.stx k d a bk size nb off) s =
          .next (coreNext t k (stepped c 6)))))

/-- 06 R209, R216: the lane operations compute lane by lane, at the lane width the field names (whole registers for the
logic operations, for which the field is 0), and write vD alone; a v field above 7, and another field value, are INVALID.
06 R209, R217: VSPLAT, VEXT, VINS and VMASK between the general and the lane registers; VMASK sets Z alone.
06 R209, R215: VLD and VST move 16 bytes, at a banked address whose displacement counts 16-byte units, or at the flat
address gA, which then goes up by 16. -/
def Obligations.LaneRegisters : Prop :=
  (
    ∀ (s : State) (k : CoreSel) (d a b : Fin 16) (lz : Fin 4), CanRun s k 4 →
      let c := s.core k
      let x := c.v[a.val % 8]
      let y := c.v[b.val % 8]
      let w := 8 * 2 ^ lz.val
      let nxt (r : Lane) := Host.Outcome.next (coreNext s k (stepped (wrV c d r) 4))
      let each (i : Instr) (f : BitVec w → BitVec w → BitVec w) : Prop :=
        ∃ r, exec i s = nxt r ∧ ∀ j < 128 / w, lane w r j = f (lane w x j) (lane w y j)
      let invalid (i : Instr) : Prop := exec i s = .next (s.raise k exnInvalid)
      (8 ≤ d.val ∨ 8 ≤ a.val ∨ 8 ≤ b.val →
        ∀ i ∈ [Instr.vadd k d a b lz, .vsub k d a b lz, .vcmpeq k d a b lz, .vcmpgtu k d a b lz, .vcmpgts k d a b lz,
          .vminu k d a b lz, .vmaxu k d a b lz, .vshl k d a b lz, .vshr k d a b lz, .vsar k d a b lz, .vand k d a b lz,
          .vor k d a b lz, .vxor k d a b lz, .vandn k d a b lz, .vperm k d a b lz], invalid i) ∧
      (lz ≠ 0 → ∀ i ∈ [Instr.vand k d a b lz, .vor k d a b lz, .vxor k d a b lz, .vandn k d a b lz, .vperm k d a b lz,
        .vmov k d a lz], invalid i) ∧
      (8 ≤ d.val ∨ 8 ≤ a.val → invalid (.vmov k d a lz)) ∧
      (d.val < 8 → a.val < 8 → exec (.vmov k d a 0) s = nxt x) ∧
      (d.val < 8 → a.val < 8 → b.val < 8 →
      each (.vadd k d a b lz) (fun p q => p + q) ∧
      each (.vsub k d a b lz) (fun p q => p - q) ∧
      each (.vcmpeq k d a b lz) (fun p q => if p = q then BitVec.allOnes w else 0) ∧
      each (.vcmpgtu k d a b lz) (fun p q => if q < p then BitVec.allOnes w else 0) ∧
      each (.vcmpgts k d a b lz) (fun p q => if q.slt p then BitVec.allOnes w else 0) ∧
      each (.vminu k d a b lz) (fun p q => if q < p then q else p) ∧
      each (.vmaxu k d a b lz) (fun p q => if p < q then q else p) ∧
      each (.vshl k d a b lz) (fun p q => p <<< (q.toNat % w)) ∧
      each (.vshr k d a b lz) (fun p q => p >>> (q.toNat % w)) ∧
      each (.vsar k d a b lz) (fun p q => p.sshiftRight (q.toNat % w)) ∧
      exec (.vand k d a b 0) s = nxt (x &&& y) ∧
      exec (.vor k d a b 0) s = nxt (x ||| y) ∧
      exec (.vxor k d a b 0) s = nxt (x ^^^ y) ∧
      exec (.vandn k d a b 0) s = nxt (x &&& ~~~y) ∧
      (∃ r, exec (.vperm k d a b 0) s = nxt r ∧ ∀ j < 16, lane 8 r j =
        (let n := (lane 8 y j).toNat
         if 128 ≤ n then 0 else if n % 32 < 16 then lane 8 x (n % 32) else lane 8 c.v[d.val % 8] (n % 32 - 16))))) ∧
  (
    ∀ (s : State) (k : CoreSel) (d a : Fin 16) (li : Fin 4), CanRun s k 4 →
      let c := s.core k
      let nxt (r : Core) := Host.Outcome.next (coreNext s k (stepped r 4))
      (d.val < 8 →
        (∃ r, exec (.vsplat k d a li) s = nxt (wrV c d r) ∧
          ∀ j < 16 / 2 ^ li.val, lane (8 * 2 ^ li.val) r j = c.g[a].setWidth (8 * 2 ^ li.val)) ∧
        (∃ r, exec (.vins k d a li) s = nxt (wrV c d r) ∧
          ∀ j < 4, lane 32 r j = if j = li.val then c.g[a] else lane 32 c.v[d.val % 8] j)) ∧
      (a.val < 8 →
        exec (.vext k d a li) s = nxt (wr c d (lane 32 c.v[a.val % 8] li.val)) ∧
        ∃ r : Word, exec (.vmask k d a 0) s = nxt (wr { c with z := decide (r = 0) } d r) ∧
          ∀ j < 32, r.getLsbD j = (decide (j < 16) && (lane 8 c.v[a.val % 8] j).getLsbD 7)) ∧
      (8 ≤ d.val → exec (.vsplat k d a li) s = .next (s.raise k exnInvalid) ∧ exec (.vins k d a li) s = .next (s.raise k exnInvalid)) ∧
      (8 ≤ a.val → exec (.vext k d a li) s = .next (s.raise k exnInvalid) ∧ exec (.vmask k d a li) s = .next (s.raise k exnInvalid))) ∧
  (
    ∀ (s : State) (k : CoreSel) (d a : Fin 16) (bk : Fin 4) (f : Bool) (disp : BitVec 12), CanRun s k 4 →
      let c := s.core k
      let bad : Prop := 8 ≤ d.val ∨ (f = true ∧ (bk ≠ 0 ∨ disp ≠ 0))
      let w := if f then c.g[a].toNat / 65536 else c.b[bk].toNat
      let off := if f then c.g[a].toNat % 65536 else banked c.g[a] (disp.signExtend 16 * 16)
      let base : Word := if f then c.g[a] + 16 else c.g[a]
      let b := leBytes 16 c.v[d.val % 8].toNat
      (bad → exec (.vld k d a bk f disp) s = .next (s.raise k exnInvalid) ∧
        exec (.vst k d a bk f disp) s = .next (s.raise k exnInvalid)) ∧
      (¬bad →
        (∀ e, s.load k w off 16 = .error e → exec (.vld k d a bk f disp) s = .next (s.raise k e)) ∧
        (∀ x t, s.load k w off 16 = .ok (x, t) → exec (.vld k d a bk f disp) s =
          .next (coreNext t k (stepped (wr (wrV c d (BitVec.ofNat 128 (leNat x))) a base) 4))) ∧
        (∀ e, s.storeAt k w off b = .error e → exec (.vst k d a bk f disp) s = .next (s.raise k e)) ∧
        (∀ t, s.storeAt k w off b = .ok t → exec (.vst k d a bk f disp) s =
          .next (coreNext t k (stepped (wr c a base) 4)))))

/-- 06 R203, R213, R215: the flat forms LDF and STF, scaled, with post-increment and with pre-decrement, and CPY. The base
registers are written back by the access size, after the access; STF stores gD as it was. -/
def Obligations.FlatLoadsAndStores : Prop :=
  ∀ (s : State) (k : CoreSel) (d a x : Fin 16) (sc mode size : Fin 4) (sgn : Bool), CanRun s k 4 →
    let c := s.core k
    let n := 2 ^ size.val
    let addr : Word := if mode.val = 0 then c.g[a] + c.g[x] <<< sc.val else if mode.val = 1 then c.g[a] else c.g[a] - BitVec.ofNat 32 n
    let base : Word := if mode.val = 0 then c.g[a] else if mode.val = 1 then c.g[a] + BitVec.ofNat 32 n else addr
    let bad (load : Bool) : Prop := size.val = 3 ∨ mode.val = 3 ∨ (mode.val ≠ 0 ∧ (x ≠ 0 ∨ sc ≠ 0 ∨ (load = true ∧ d = a)))
    let m := if size.val = 3 then 16 else n
    (bad true ∨ (sgn = true ∧ size.val = 2) → exec (.ldf k d a x sc mode size sgn) s = .next (s.raise k exnInvalid)) ∧
    (¬(bad true ∨ (sgn = true ∧ size.val = 2)) →
      (∀ e, s.loadFlat k addr n = .error e → exec (.ldf k d a x sc mode size sgn) s = .next (s.raise k e)) ∧
      (∀ b t, s.loadFlat k addr n = .ok (b, t) → b.length = n → exec (.ldf k d a x sc mode size sgn) s =
        .next (coreNext t k (stepped (wr (wr c a base) d (loaded b sgn)) 4)))) ∧
    (bad false → exec (.stf k d a x sc mode size) s = .next (s.raise k exnInvalid)) ∧
    (¬bad false →
      (∀ e, s.storeFlat k addr (leBytes n c.g[d].toNat) = .error e →
        exec (.stf k d a x sc mode size) s = .next (s.raise k e)) ∧
      (∀ t, s.storeFlat k addr (leBytes n c.g[d].toNat) = .ok t → exec (.stf k d a x sc mode size) s =
        .next (coreNext t k (stepped (wr c a base) 4)))) ∧
    (d = a → exec (.cpy k d a size) s = .next (s.raise k exnInvalid)) ∧
    (d ≠ a → ∀ e, s.loadFlat k c.g[a] m = .error e → exec (.cpy k d a size) s = .next (s.raise k e)) ∧
    (d ≠ a → ∀ b t e, s.loadFlat k c.g[a] m = .ok (b, t) → t.storeFlat k c.g[d] b = .error e →
      exec (.cpy k d a size) s = .next (s.raise k e)) ∧
    (d ≠ a → ∀ b t u, s.loadFlat k c.g[a] m = .ok (b, t) → t.storeFlat k c.g[d] b = .ok u →
      exec (.cpy k d a size) s =
        .next (coreNext u k (stepped (wr (wr c a (c.g[a] + BitVec.ofNat 32 m)) d (c.g[d] + BitVec.ofNat 32 m)) 4)))

/-- 06 R232, R237: an atomic operation reads the aligned word at window bK and offset gA[15:0], stores the new word there and
writes the old one to gD; ACAS stores gS only when the old word is gD, and Z says whether it stored. What the access raises
comes in the order of R237: alignment and the grants to read and to write, then poison; no register is then written. -/
def Obligations.Atomics : Prop :=
  ∀ (s : State) (k : CoreSel) (d a src : Fin 16) (bk : Fin 4), CanRun s k 4 →
    let c := s.core k
    let w := c.b[bk].toNat
    let off := c.g[a].toNat % 65536
    let x := c.g[src]
    let raises (e : Exn) : Prop := ∀ i ∈ [Instr.aadd k d a src bk, .aswp k d a src bk, .acas k d a src bk,
      .aand k d a src bk, .aor k d a src bk, .amaxu k d a src bk], exec i s = .next (s.raise k e)
    (∀ e, s.access k w off 4 4 .load none = .error e → raises e) ∧
    (∀ g, s.access k w off 4 4 .load none = .ok g →
      (∀ e, s.access k w off 4 4 .store none = .error e → raises e) ∧
      (∀ g', s.access k w off 4 4 .store none = .ok g' →
        (∀ e, s.winRead k g w off 4 = .error e → raises e) ∧
        (∀ b t, s.winRead k g w off 4 = .ok (b, t) → b.length = 4 →
          let old := BitVec.ofNat 32 (leNat b)
          let does (i : Instr) (new : Word) (r : Core) : Prop :=
            (∀ e, t.winWrite k g w off (leBytes 4 new.toNat) = .error e → exec i s = .next (s.raise k e)) ∧
            ∀ u, t.winWrite k g w off (leBytes 4 new.toNat) = .ok u → exec i s = .next (coreNext u k (stepped r 4))
          does (.aadd k d a src bk) (old + x) (wr c d old) ∧
          does (.aswp k d a src bk) x (wr c d old) ∧
          does (.aand k d a src bk) (old &&& x) (wr c d old) ∧
          does (.aor k d a src bk) (old ||| x) (wr c d old) ∧
          does (.amaxu k d a src bk) (if old < x then x else old) (wr c d old) ∧
          does (.acas k d a src bk) (if old = c.g[d] then x else old) (wr { c with z := decide (old = c.g[d]) } d old))))

/-- 05 R159; 06 R204, R205, R237: a Crumb's own four windows are its local store: an access inside a window reads its bytes,
or stores them and leaves every other byte, register and part of the device alone; one that runs past the window's end or
breaks its alignment raises ALIGN, one to the code region stores nothing and raises WINDOW, and one below a stack limit that
applies raises STACK. -/
def Obligations.LocalStoreAccess : Prop :=
  ∀ (s : State) (i : Fin 1024) (w off n align : Nat) (b : List Byte) (limit : Option Word) (e : Entry) (j : Job),
    (s.crumb i).run = some e → s.job? e.job = some j → w < 4 →
    let x := s.crumb i
    let k := CoreSel.crumb i
    let a := w * 65536 + off
    let mis (n : Nat) : Prop := 65536 < off + n ∨ off % align ≠ 0
    let below : Prop := ∃ l, limit = some l ∧ a < l.toNat
    (¬mis n → s.load k w off n align = .ok ((List.range n).map fun p => x.store.get (a + p), s)) ∧
    (mis n → s.load k w off n align = .error (exnAlign (BitVec.ofNat 32 a))) ∧
    (mis b.length → s.storeAt k w off b align limit = .error (exnAlign (BitVec.ofNat 32 a))) ∧
    (¬mis b.length → a < x.codeLen → s.storeAt k w off b align limit = .error (exnWindow (BitVec.ofNat 32 a))) ∧
    (¬mis b.length → x.codeLen ≤ a → below → s.storeAt k w off b align limit = .error (exnStack (BitVec.ofNat 32 a))) ∧
    (¬mis b.length → x.codeLen ≤ a → ¬below → x.store.wf = true →
      ∃ m : Memory, s.storeAt k w off b align limit = .ok (s.modCrumb i fun q => { q with store := m }) ∧ m.wf = true ∧
        ∀ p, m.get p = if a ≤ p ∧ p < a + b.length then b.getD (p - a) 0 else x.store.get p)

/-- 06 R212, R219, R220: PUSH and POP, and the frame of CALL and CALLR: the words stored below g14 and the registers after
them. A MASK with bit 14 or 15 set, and POP to g14, are INVALID.
06 R206, R211, R213, R221, R222: branches, jumps and returns. A JR or RET of a Crumb to the exit address ends its slice,
RET reading no frame; an odd target raises ALIGN; a RET elsewhere restores the registers of the frame, the link word last.
06 R221: what RET restores from a frame in a Crumb's local store: each register of the mask takes the next word, in
rising order, and nothing else changes.
Model's choices in it: log entry 114. -/
def Obligations.CallsJumpsAndReturns : Prop :=
  (
    ∀ (s : State) (k : CoreSel) (a : Fin 16) (mask off : BitVec 16),
      let c := s.core k
      let regs := masked mask.toNat
      let frame := c.g[(14 : Fin 16)] - BitVec.ofNat 32 (8 + 4 * regs.length)
      let words := c.g[(15 : Fin 16)] :: mask.setWidth 32 :: regs.map fun i => c.g[i]
      let called (next target : Word) : Core := jumped (wr (wr c 14 frame) 15 next) target
      (CanRun s k 2 →
        (∀ e, s.storeFlat k (c.g[(14 : Fin 16)] - 4) (leBytes 4 c.g[a].toNat) 4 (some c.slimit) = .error e →
          exec (.push k a) s = .next (s.raise k e)) ∧
        (∀ t, s.storeFlat k (c.g[(14 : Fin 16)] - 4) (leBytes 4 c.g[a].toNat) 4 (some c.slimit) = .ok t →
          exec (.push k a) s = .next (coreNext t k (stepped (wr c 14 (c.g[(14 : Fin 16)] - 4)) 2))) ∧
        (a = 14 → exec (.pop k a) s = .next (s.raise k exnInvalid)) ∧
        (a ≠ 14 → ∀ e, s.loadFlat k c.g[(14 : Fin 16)] 4 4 = .error e → exec (.pop k a) s = .next (s.raise k e)) ∧
        (a ≠ 14 → ∀ b t, s.loadFlat k c.g[(14 : Fin 16)] 4 4 = .ok (b, t) → b.length = 4 → exec (.pop k a) s =
          .next (coreNext t k (stepped (wr (wr c a (BitVec.ofNat 32 (leNat b))) 14 (c.g[(14 : Fin 16)] + 4)) 2)))) ∧
      (CanRun s k 6 →
        (2 ^ 14 ≤ mask.toNat → exec (.call k mask off) s = .next (s.raise k exnInvalid)) ∧
        (mask.toNat < 2 ^ 14 → ∀ e, pushWords s k frame (some c.slimit) words = .error e →
          exec (.call k mask off) s = .next (s.raise k e)) ∧
        (mask.toNat < 2 ^ 14 → ∀ t, pushWords s k frame (some c.slimit) words = .ok t →
          exec (.call k mask off) s = .next (coreNext t k (called (c.pc + 6) (c.pc + off.signExtend 32 * 2))))) ∧
      (CanRun s k 4 →
        (2 ^ 14 ≤ mask.toNat → exec (.callr k a mask) s = .next (s.raise k exnInvalid)) ∧
        (mask.toNat < 2 ^ 14 → ∀ e, pushWords s k frame (some c.slimit) words = .error e →
          exec (.callr k a mask) s = .next (s.raise k e)) ∧
        (mask.toNat < 2 ^ 14 → ∀ t, pushWords s k frame (some c.slimit) words = .ok t →
          let target := c.g[a] &&& 0xFFFFFFFE#32
          (∀ i, k = .crumb i → target = 0xFFFF0000#32 →
            exec (.callr k a mask) s = .next ((coreNext t k (called (c.pc + 4) c.pc)).sliceReturn i)) ∧
          ((∀ i, k ≠ .crumb i) ∨ target ≠ 0xFFFF0000#32 →
            exec (.callr k a mask) s = .next (coreNext t k (called (c.pc + 4) target)))))) ∧
  (
    ∀ (s : State) (k : CoreSel) (a cond : Fin 16) (off : BitVec 20),
      let c := s.core k
      let x := c.g[a]
      let link := c.g[(15 : Fin 16)]
      let sp := c.g[(14 : Fin 16)]
      let exit : Word := 0xFFFF0000#32
      (CanRun s k 4 → exec (.bcc k cond off) s =
        .next (coreNext s k (jumped c (if c.cond cond then c.pc + off.signExtend 32 * 2 else c.pc + 4)))) ∧
      (CanRun s k 2 →
        (x.getLsbD 0 = true → exec (.jr k a) s = .next (s.raise k (exnAlign x))) ∧
        (∀ i, k = .crumb i → x = exit → exec (.jr k a) s = .next ((coreNext s k (jumped c c.pc)).sliceReturn i)) ∧
        (x.getLsbD 0 = false → ((∀ i, k ≠ .crumb i) ∨ x ≠ exit) → exec (.jr k a) s = .next (coreNext s k (jumped c x))) ∧
        (∀ i, k = .crumb i → link = exit → exec (.ret k) s = .next ((coreNext s k (jumped c c.pc)).sliceReturn i)) ∧
        (∀ i, k = .ctrl i → s.user k = true → link = exit → exec (.ret k) s = .next (coreNext s k (jumped c link))) ∧
        (¬(s.user k = true ∧ link = exit) → sp.toNat % 4 = 0 → link.getLsbD 0 = false →
          ∀ mb lb t1 t2 t3, s.loadFlat k (sp + 4) 4 4 = .ok (mb, t1) → mb.length = 4 → leNat mb < 2 ^ 14 →
          popRegs k (masked (leNat mb)) (sp + 8) t1 = .ok t2 → t2.loadFlat k sp 4 4 = .ok (lb, t3) → lb.length = 4 →
          exec (.ret k) s = .next (coreNext t3 k (jumped
            (wr (wr (t3.core k) 15 (BitVec.ofNat 32 (leNat lb))) 14
              (sp + BitVec.ofNat 32 (8 + 4 * (masked (leNat mb)).length))) link))))) ∧
  (
    ∀ (s : State) (i : Fin 1024) (l : List (Fin 16)) (a : Word) (e : Entry) (j : Job),
      (s.crumb i).run = some e → s.job? e.job = some j → a.toNat % 4 = 0 → a.toNat + 4 * l.length ≤ 262144 →
      let word (p : Nat) : Word := BitVec.ofNat 32 (leNat ((List.range 4).map fun q => (s.crumb i).store.get (a.toNat + 4 * p + q)))
      popRegs (.crumb i) l a s =
        .ok (s.modCore (.crumb i) fun c => restore c l ((List.range l.length).map word)))

/-- 06 R223 to R225, R240: a unit of REP or REPI carries its instruction out as often as its count register says, counting it
down to 0, and retires as many instructions, one for a count of 0. REP raises REP_RANGE for a count above 4,096, both raise
INVALID for an instruction that R223 excludes or that names the count register. A row of a unit carries out the first of the
repetitions that are left, a number that nothing constrains but that it is not 0; the REP unit of a control core has no point
inside it, and REPI stops where the instruction budget is used up. What is left goes on with the next row: inside a REP unit
nothing else does. A repetition that raises an exception counts for nothing, and those before it stand.
Model's choices in it: log entries 116, 114. -/
def Obligations.Repeats : Prop :=
  ∀ (s : State) (k : CoreSel) (a : Fin 16) (body : RepBody), s.fetchOk k (repLen body) = .ok () →
    let c := s.core k
    let n := c.g[a].toNat
    let endPc := c.pc + BitVec.ofNat 32 (repLen body)
    let counted (r : Core) (m : Nat) : Core := { r with
      icount := c.icount + BitVec.ofNat 32 m
      wrapped := match k with
        | .crumb _ => c.wrapped || decide (2 ^ 32 ≤ c.icount.toNat + m)
        | .ctrl _ => c.wrapped }
    let after (t : State) (m : Nat) (rep : Bool) : State :=
      if m < n then coreNext t k { counted (t.core k) m with pc := c.pc, inUnit := rep }
      else coreNext t k { counted (t.core k) m with
        pc := endPc, inUnit := false, icount := c.icount + BitVec.ofNat 32 (max n 1) }
    let does (i : Instr) (rep : Bool) (m : Nat) : Prop := ∃ u, (u = s ∨ u = s.tick) ∧
      (∀ t, repeated k a (repEffect k body) m u = .ok t → exec i s = .next (after t m rep)) ∧
      ∀ j t e, j < m → repeated k a (repEffect k body) j u = .ok t → repEffect k body t = .error e →
        exec i s = .next ((t.modCore k fun r => { counted r j with inUnit := false }).raise k e)
    (s.unitRunnable k false = true →
      (repOk a body = false → exec (.rep k a body) s = .next (s.raise k exnInvalid)) ∧
      (repOk a body = true → 4096 < n → exec (.rep k a body) s = .next (s.raise k exnRepRange)) ∧
      (repOk a body = true → n ≤ 4096 → ∃ m, m ≤ n ∧ (0 < n → 0 < m) ∧ (∀ i, k = .ctrl i → m = n) ∧
        does (.rep k a body) true m)) ∧
    (s.runnable k = true →
      (repOk a body = false → exec (.repi k a body) s = .next (s.raise k exnInvalid)) ∧
      (repOk a body = true → ∃ m, m ≤ n ∧ (0 < n → 0 < m) ∧ (∀ b, s.budget k = some b → c.icount.toNat + m ≤ b) ∧
        does (.repi k a body) false m))

/-- 06 R237, R239; 05 R189: a core that may not run does nothing; an instruction whose fetch fails raises that exception and
has no other effect.
06 R212, R238, R243, R246: ILL raises INVALID and BRK raises BREAK. An exception on a control core traps, and halts the
core where EXL is 1. On a Crumb it ends the job of the slice with the status of R238, the slice's number, the PC and the code,
and the Crumb stops.
Model's choices in it: log entry 115. -/
def Obligations.FetchAndExceptions : Prop :=
  (
    ∀ (s : State) (i : Instr) (k : CoreSel) (n : Nat), isaForm i = some (k, n) →
      (s.runnable k = false → ((s.core k).inUnit = false ∨ ∀ a b, i ≠ .rep k a b) → exec i s = .next s) ∧
      (s.runnable k = true → ∀ e, s.fetchOk k n = .error e → exec i s = .next (s.raise k e))) ∧
  (
    ∀ (s : State) (k : CoreSel) (e : Exn),
      (CanRun s k 2 → exec (.ill k) s = .next (s.raise k ⟨1, 0, false⟩) ∧ exec (.brk k) s = .next (s.raise k ⟨7, 0, false⟩)) ∧
      (∀ i, k = .ctrl i →
        s.raise k e = s.modCcore i fun x =>
          if x.core.exl then { x with halted := true }
          else { x with core := trapped x.core (BitVec.ofNat 32 e.code) e.addr x.core.pc }) ∧
      (∀ i r j, k = .crumb i → (s.crumb i).run = some r → s.job? r.job = some j → j.ending = none →
        e.mend = false →
        let t := s.raise k e
        (t.crumb i).run = none ∧
        ∃ j', t.job? r.job = some j' ∧ j'.st = .finishing ∧ j'.failSlice = some r.slice ∧ j'.faultPc = (s.core k).pc.toNat ∧
          j'.faultCode = e.code ∧
          j'.ending = some (2, if e.code = 3 then .windowDenied else if e.code = 10 then .poisoned else .programFault)))

/-- 06 R201, R242, R244, R245: MFC, MTC and RFT. Number above 10 is INVALID and user mode PRIVILEGED, in this order; MTC
leaves PRIV and CORE_ID alone and clears the low 12 bits of WTB; RFT takes PSW and PC from EPSW and EPC, and is INVALID on a
control core whose EXL is 0. IDLE waits until an interrupt is pending.
06 R242, R243, R245: an interrupt of a control core in service becomes pending; with interrupts enabled the core traps on
the lowest pending one, saving the PC it goes on at; an idle core first retires its IDLE. A core that has used up IBUDGET in
user mode traps with cause 0xFF.
Model's choices in it: log entries 112, 118, 121, 114. -/
def Obligations.PrivilegeAndInterrupts : Prop :=
  (
    ∀ (s : State) (i : Fin 4) (a : Fin 16) (cr : BitVec 16),
      let k := CoreSel.ctrl i
      let c := s.core k
      let x := c.g[a]
      let priv : Prop := s.user k = false
      let crs := [pswWord c, c.epc, c.ecause, c.einfo, c.evec, c.epsw, c.slimit, c.icount, c.ibudget, c.wtb, BitVec.ofNat 32 i.val]
      let written := [{ withPsw c x with priv := c.priv }, { c with epc := x }, { c with ecause := x }, { c with einfo := x },
        { c with evec := x }, { c with epsw := x }, { c with slimit := x }, { c with icount := x }, { c with ibudget := x },
        { c with wtb := x >>> 12 <<< 12 }, c]
      (CanRun s k 4 →
        (10 < cr.toNat → exec (.mfc k a cr) s = .next (s.raise k exnInvalid) ∧ exec (.mtc k a cr) s = .next (s.raise k exnInvalid)) ∧
        (cr.toNat ≤ 10 → ¬priv →
          exec (.mfc k a cr) s = .next (s.raise k exnPrivileged) ∧ exec (.mtc k a cr) s = .next (s.raise k exnPrivileged)) ∧
        (cr.toNat ≤ 10 → priv →
          exec (.mfc k a cr) s = .next (coreNext s k (stepped (wr c a (crs.getD cr.toNat 0)) 4)) ∧
          exec (.mtc k a cr) s = .next (coreNext s k (stepped (written.getD cr.toNat c) 4)))) ∧
      (CanRun s k 2 →
        (c.exl = false → exec (.rft k) s = .next (s.raise k exnInvalid)) ∧
        (c.exl = true → ¬priv → exec (.rft k) s = .next (s.raise k exnPrivileged)) ∧
        (c.exl = true → priv → c.epc.getLsbD 0 = true → exec (.rft k) s = .next (s.raise k (exnAlign c.epc))) ∧
        (c.exl = true → priv → c.epc.getLsbD 0 = false →
          exec (.rft k) s = .next (coreNext s k (jumped (withPsw c c.epsw) c.epc))) ∧
        (¬priv → exec (.idle k) s = .next (s.raise k exnPrivileged)) ∧
        (priv → (s.ccore i).irqs ≠ [] → exec (.idle k) s = .next (coreNext s k (stepped c 2))) ∧
        (priv → (s.ccore i).irqs = [] → exec (.idle k) s = .next (s.modCcore i fun y => { y with idle := true }))) ∧
      (∀ j, CanRun s (.crumb j) 4 → cr.toNat ≤ 10 → exec (.mfc (.crumb j) a cr) s = .next (s.raise (.crumb j) exnPrivileged) ∧
        exec (.mtc (.crumb j) a cr) s = .next (s.raise (.crumb j) exnPrivileged)) ∧
      (∀ j, CanRun s (.crumb j) 2 → exec (.rft (.crumb j)) s = .next (s.raise (.crumb j) exnPrivileged) ∧
        exec (.idle (.crumb j)) s = .next (s.raise (.crumb j) exnPrivileged))) ∧
  (
    ∀ (s : State) (i : Fin 4) (irq : Fin 256),
      let x := s.ccore i
      let c := x.core
      let pend := if x.irqs.contains irq.val then x.irqs else x.irqs ++ [irq.val]
      let take (y : CtrlCore) (m : Nat) : CtrlCore := { y with
        irqs := y.irqs.filter (· != m), core := trapped y.core (BitVec.ofNat 32 (2 ^ 31 + m)) 0 y.core.pc }
      let does (u : CtrlCore) : Prop := exec (.controlCoreInterrupt i irq) s = .next (s.modCcore i fun _ => u)
      (x.st ≠ 1 → exec (.controlCoreInterrupt i irq) s = .next s) ∧
      (x.st = 1 → x.halted = true → does { x with irqs := pend }) ∧
      (x.st = 1 → x.halted = false → x.idle = false → c.ie = false → does { x with irqs := pend }) ∧
      (x.st = 1 → x.halted = false → x.idle = false → c.ie = true → ∃ m, m ∈ pend ∧ (∀ n ∈ pend, m ≤ n) ∧
        does (take { x with irqs := pend } m)) ∧
      (x.st = 1 → x.halted = false → x.idle = true → c.ie = false →
        does { x with irqs := pend, idle := false, core := stepped c 2 }) ∧
      (x.st = 1 → x.halted = false → x.idle = true → c.ie = true → ∃ m, m ∈ pend ∧ (∀ n ∈ pend, m ≤ n) ∧
        does (take { x with irqs := pend, idle := false, core := stepped c 2 } m)) ∧
      (x.st = 1 → x.halted = false → x.idle = false → c.priv = false → c.ibudget ≠ 0 → c.ibudget ≤ c.icount → c.exl = false →
        exec (.ibudgetTrap i) s = .next (s.modCcore i fun _ => { x with core := trapped c 0xFF#32 0 c.pc })))

/-- 06 R226, R239: SVS captures its bytes and submits a key, SVR takes the oldest result, and a lookup moves the oldest key to
the results. SVR with nothing outstanding and SVS with eight outstanding raise SIEVE.
06 R227, R239; 08 R276, R277: DGO opens a digest and gives handle 1 or 2; where the engine of the core's Batch has no context
free or idle, or another requester waits for one, the instruction waits, and gives 0 with Z set once its wait has expired. DGF
feeds bytes from a window; DGE stores the digest and releases the handle; where the digest's context has been spilled, they
first obtain one again. A third handle, a handle that is not open and a count above 4,096 raise DIGEST, after the access.
Model's choices in it: log entries 140, 141, 142. -/
def Obligations.SieveAndDigestInstructions : Prop :=
  (
    ∀ (s : State) (k : CoreSel) (a : Fin 16) (bk : Fin 4) (len1 : Fin 64),
      let c := s.core k
      let at1 := s.load k c.b[bk].toNat (c.g[a].toNat % 65536) (len1.val + 1)
      (CanRun s k 4 → s.svsFull k = true → exec (.svs k a bk len1) s = .next s) ∧
      (CanRun s k 4 → s.svsFull k = false →
        (38 ≤ len1.val → exec (.svs k a bk len1) s = .next (s.raise k exnInvalid)) ∧
        (len1.val < 38 → ∀ e, at1 = .error e → exec (.svs k a bk len1) s = .next (s.raise k e)) ∧
        (len1.val < 38 → ∀ b t, at1 = .ok (b, t) → 8 ≤ c.sieveWait.length + c.sieveQ.length →
          exec (.svs k a bk len1) s = .next (s.raise k exnSieve)) ∧
        (len1.val < 38 → ∀ b t, at1 = .ok (b, t) → c.sieveWait.length + c.sieveQ.length < 8 →
          exec (.svs k a bk len1) s = .next (coreNext t k (stepped { c with sieveWait := c.sieveWait ++ [t.svsKey k b] } 4)))) ∧
      (∀ key rest, c.sieveWait = key :: rest → s.anyHeld (s.svsBanks key) = false →
        exec (.svsResult k) s = .next ((s.svsFind k key).2.modCore k fun c => { c with
          sieveWait := rest, sieveQ := c.sieveQ ++ [(s.svsFind k key).1] })) ∧
      (CanRun s k 2 →
        (a.val % 2 = 1 → exec (.svr k a) s = .next (s.raise k exnInvalid)) ∧
        (a.val % 2 = 0 → c.sieveQ = [] → c.sieveWait = [] → exec (.svr k a) s = .next (s.raise k exnSieve)) ∧
        (a.val % 2 = 0 → c.sieveQ = [] → c.sieveWait ≠ [] → exec (.svr k a) s = .next s) ∧
        (a.val % 2 = 0 → ∀ r rest, c.sieveQ = r :: rest → exec (.svr k a) s = .next (coreNext s k (stepped
          (match r with
            | some (n, d) => { wr (wr c a (BitVec.ofNat 32 n)) (a + 1) (d.setWidth 32) with sieveQ := rest, z := false }
            | none => { wr (wr c a (BitVec.allOnes 32)) (a + 1) 0 with sieveQ := rest, z := true }) 2))))) ∧
  (
    ∀ (s : State) (k : CoreSel) (d a b : Fin 16) (bk : Fin 4) (alg : Fin 8), CanRun s k 4 →
      let c := s.core k
      let e := s.coreEngine k
      let n := c.g[b].toNat
      let h := if c.digests.any (fun x => x.handle == 1) then 2 else 1
      let granted : Prop := s.waiters e = [] ∧ (s.engine e).st = 1 ∧ ((s.resident e).length < 64 ∨ (s.idlest e).isSome)
      let same (u v : State) : Prop := v.crumbs = u.crumbs ∧ v.ctrls = u.ctrls ∧ v.mem = u.mem
      let asked := s.askCore k h true
      let x := c.digests.find? fun y => y.handle == c.g[d].toNat
      let w := c.b[bk].toNat
      let off := c.g[a].toNat % 65536
      let read (u : State) : Except Exn (List Byte × State) := if n = 0 then .ok ([], u) else u.load k w off n
      (alg.val = 0 ∨ 4 < alg.val → exec (.dgo k d alg) s = .next (s.raise k exnInvalid)) ∧
      (1 ≤ alg.val → alg.val ≤ 4 → 2 ≤ c.digests.length → exec (.dgo k d alg) s = .next (s.raise k exnDigest)) ∧
      (1 ≤ alg.val → alg.val ≤ 4 → c.digests.length < 2 →
        same s asked ∧
        ((∀ m ∈ s.digests.msgs, m.id < s.digests.nextMsg) → s.coreMsg k h = none →
          (asked.coreWaits k h = true ↔ ¬granted) ∧ ∃ m, asked.coreMsg k h = some m ∧ m.expired = false) ∧
        (asked.coreWaits k h = true → exec (.dgo k d alg) s = .next asked) ∧
        (∀ m, asked.coreWaits k h = false → CanRun asked k 4 → asked.coreMsg k h = some m →
          (m.expired = false → ∃ v, same s v ∧ exec (.dgo k d alg) s = .next (coreNext v k (stepped
            { wr c d (BitVec.ofNat 32 h) with z := false, digests := c.digests ++ [⟨h, alg.val, []⟩] } 4))) ∧
          (m.expired = true → ∃ v, same s v ∧ exec (.dgo k d alg) s = .next (coreNext v k (stepped
            { wr c d 0 with z := true } 4))))) ∧
      (x = none →
        (∀ e, read s = .error e → exec (.dgf k d a b bk) s = .next (s.raise k e)) ∧
        (∀ r, read s = .ok r → exec (.dgf k d a b bk) s = .next (s.raise k exnDigest)) ∧
        (∀ e, s.storeAt k w off (zeros 32) = .error e → exec (.dge k d a bk) s = .next (s.raise k e)) ∧
        (∀ t, s.storeAt k w off (zeros 32) = .ok t → exec (.dge k d a bk) s = .next (s.raise k exnDigest))) ∧
      (∀ y, x = some y →
        let u := s.askCore k y.handle false
        same s u ∧
        (∀ m, s.coreMsg k y.handle = some m → m.resident = true → u = s ∧ u.coreWaits k y.handle = false) ∧
        (u.coreWaits k y.handle = true → exec (.dgf k d a b bk) s = .next u ∧ exec (.dge k d a bk) s = .next u) ∧
        (u.coreWaits k y.handle = false → CanRun u k 4 →
          (∀ e, read u = .error e → exec (.dgf k d a b bk) s = .next (u.raise k e)) ∧
          (∀ r t, read u = .ok (r, t) →
            (4096 < n → exec (.dgf k d a b bk) s = .next (u.raise k exnDigest)) ∧
            (n ≤ 4096 → ∃ v, same t v ∧ exec (.dgf k d a b bk) s = .next (coreNext v k (stepped
              { c with digests := c.digests.map fun z => if z.handle = y.handle then { z with bytes := z.bytes ++ r } else z } 4)))) ∧
          (∀ e, u.storeAt k w off (algDigest y.alg y.bytes) = .error e → exec (.dge k d a bk) s = .next (u.raise k e)) ∧
          (∀ t, u.storeAt k w off (algDigest y.alg y.bytes) = .ok t → exec (.dge k d a bk) s = .next (coreNext
            (t.modDigests fun g => { g with msgs := g.msgs.filter fun m => m.owner != .crumb k y.handle }) k
            (stepped { c with digests := c.digests.filter fun z => z.handle != y.handle } 4))))))

/-! ## Queue pairs, fetching and administration -/

/-- 03 R74, R76, R77: a doorbell write to a queue pair that is not halted moves the tail, or releases completion slots; a value
outside the ring halts the queue pair. A write for a queue pair that does not exist or is halted is counted and ignored. An
access that does not reach the function's registers does nothing.
Model's choices in it: log entry 59. -/
def Obligations.Doorbells : Prop :=
  ∀ (s : State) (port : Port) (fn qid : Nat) (v : BitVec 32), fn ≤ 4096 → qid < 64 → (s.latch port fn (tfBar fn)).write = none →
    let i := Instr.submissionTailDoorbell port fn qid v
    let j := Instr.completionHeadDoorbell port fn qid v
    (s.tfReach port fn = false → exec i s = .next s ∧ exec j s = .next s) ∧
    (s.tfReach port fn = true → (∀ q, s.qp port fn qid = some q → q.halted = true ∨ s.usable port fn = false) →
      (∃ t, exec i s = .next t ∧ (t.fp port fn).stray = min ((s.fp port fn).stray + 1) 0xFFFFFFFF ∧ t.qps = s.qps ∧ KeepsData s t) ∧
      ∃ t, exec j s = .next t ∧ (t.fp port fn).stray = min ((s.fp port fn).stray + 1) 0xFFFFFFFF ∧ t.qps = s.qps ∧ KeepsData s t) ∧
    (s.tfReach port fn = true → ∀ q, s.qp port fn qid = some q → q.halted = false → s.usable port fn = true →
      let n := (v.toNat + 2 ^ q.cqLog2 - q.cqHead) % 2 ^ q.cqLog2
      (v.toNat < 2 ^ q.sqLog2 → ∃ t, exec i s = .next t ∧ t.qp port fn qid = some { q with sqTail := v.toNat } ∧
        t.fns = s.fns ∧ t.tx = s.tx ∧ KeepsData s t) ∧
      (2 ^ q.sqLog2 ≤ v.toNat → ∃ t, exec i s = .next t ∧ (t.qp port fn qid).map QueuePair.halted = some true ∧ KeepsData s t) ∧
      (v.toNat < 2 ^ q.cqLog2 → n ≤ q.unreleased → ∃ t, exec j s = .next t ∧
        t.qp port fn qid = some { q with cqHead := v.toNat, unreleased := q.unreleased - n } ∧ t.fns = s.fns ∧ t.tx = s.tx ∧ KeepsData s t) ∧
      (2 ^ q.cqLog2 ≤ v.toNat ∨ q.unreleased < n →
        ∃ t, exec j s = .next t ∧ (t.qp port fn qid).map QueuePair.halted = some true ∧ KeepsData s t))

/-- 04 R128; 03 R71, R511: TF_AQ_CFG.ENABLE makes an admin queue pair of the sizes, vector and addresses in the registers, with
empty rings, or sets AQ_ERROR and reads back 0; clearing it deletes the queue pair, at once when no command of it is left.
03 R71, R72, R511: CREATE_QP makes an I/O queue pair of the packet's sizes under the lowest free QID of the function, or
fails with QUEUE_LIMIT; DELETE_QP removes one, with its unstarted commands, and is answered when none of it is left; one that
does not exist is an invalid field.
Model's choices in it: log entry 56. -/
def Obligations.QueuePairs : Prop :=
  (
    ∀ (s : State) (port : Port) (fn : Nat) (cfg : BitVec 32), fn ≤ 4096 → s.tfReach port fn = true →
      (s.latch port fn (tfBar fn)).write = none →
      let sq := (cfg.toNat / 2 ^ 8) % 32
      let cq := (cfg.toNat / 2 ^ 16) % 32
      let fits : Prop := 4 ≤ sq ∧ sq ≤ 16 ∧ 4 ≤ cq ∧ cq ≤ 16 ∧ s.qpAllowed fn = true ∧ s.qp port fn 0 = none
      let on : Prop := (s.fp port fn).aqCfg.getLsbD 0 = true
      (¬on → fits → ∃ t q, exec (.adminQpEnable port fn cfg) s = .next t ∧ t.qp port fn 0 = some q ∧
        q.sqBase = (s.fp port fn).asqBase.toNat ∧ q.cqBase = (s.fp port fn).acqBase.toNat ∧ q.sqLog2 = sq ∧ q.cqLog2 = cq ∧
        q.vector = (cfg.toNat / 2 ^ 24) % 64 ∧ q.irqCount = 0 ∧ q.weight = 8 ∧ q.sqHead = 0 ∧ q.sqTail = 0 ∧ q.cqTail = 0 ∧
        q.phase = true ∧ (t.fp port fn).aqCfg.getLsbD 0 = true ∧ (t.fp port fn).aqError = false ∧ KeepsData s t) ∧
      (¬on → ¬fits → ∃ t, exec (.adminQpEnable port fn cfg) s = .next t ∧ t.qps = s.qps ∧
        (t.fp port fn).aqCfg.getLsbD 0 = false ∧ (t.fp port fn).aqError = true ∧ KeepsData s t) ∧
      (on → ∃ t, exec (.adminQpEnable port fn cfg) s = .next t ∧ t.qps = s.qps ∧ t.fns = s.fns ∧ KeepsData s t) ∧
      (on → (∀ c ∈ s.cmds, c.fn = fn → c.port = port → c.qid = 0 → c.started = true → c.pkt.opcode = 0x06) →
        ∃ t, exec (.adminQpDisable port fn) s = .next t ∧ (t.fp port fn).aqCfg.getLsbD 0 = false ∧ t.qp port fn 0 = none) ∧
      (¬on → ∃ t, exec (.adminQpDisable port fn) s = .next t ∧ t.qps = s.qps ∧ t.fns = s.fns ∧ KeepsData s t)) ∧
  (
    ∀ (s : State) (tag : Nat) (c : Cmd),
      let p := c.pkt
      let taken (i : Nat) : Prop := ∃ q ∈ s.qps, q.fn = c.fn ∧ q.qid = i
      (Turn s tag 0x02 c →
        (c.fn = 0 ∨ s.qpAllowed c.fn = false ∨ (∀ i, 1 ≤ i → i ≤ 63 → taken i) →
          ∃ t, exec (.createQp tag) s = .next t ∧ Answered s t c .queueLimit 0 0 0 ∧ KeepsData s t) ∧
        (∀ qid, c.fn ≠ 0 → s.qpAllowed c.fn = true → 1 ≤ qid → qid ≤ 63 → ¬taken qid → (∀ i, 1 ≤ i → i < qid → taken i) →
          (∀ x ∈ s.cmds, x.fn = c.fn → x.qid ≠ qid) →
          ∃ t, exec (.createQp tag) s = .next t ∧ Answered s t c .ok qid 0 0 ∧ KeepsData s t ∧
            ∃ q, t.qp c.port c.fn qid = some q ∧ q.sqBase = p.fld 24 8 ∧ q.cqBase = p.fld 32 8 ∧ q.sqLog2 = p.fld 40 1 ∧
              q.cqLog2 = p.fld 41 1 ∧ q.vector = p.fld 42 1 ∧ q.irqCount = p.fld 43 1 ∧ q.irqTime = p.fld 44 2 ∧
              q.weight = p.fld 46 1 ∧ q.sqHead = 0 ∧ q.sqTail = 0 ∧ q.phase = true ∧ q.halted = false)) ∧
      (Turn s tag 0x03 c →
        (s.qp c.port c.fn (p.fld 24 1) = none → ∃ t, exec (.deleteQp tag) s = .next t ∧ Answered s t c .invalidField 0 0 0 ∧
          KeepsData s t) ∧
        (∀ q, s.qp c.port c.fn (p.fld 24 1) = some q → q.deleting = none → p.fld 24 1 ≠ 0 → c.qid = 0 →
          (∀ x ∈ s.cmds, x.fn = c.fn → x.port = c.port → x.qid = p.fld 24 1 → x.started = true → x.pkt.opcode = 0x06) →
          (∀ r ∈ s.qps, r.deleting = none) →
          ∃ t, exec (.deleteQp tag) s = .next t ∧ Answered s t c .ok 0 0 0 ∧ t.qp c.port c.fn (p.fld 24 1) = none)))

/-- 03 R79, R80, R84, R89, R99, R100, R103; 04 R136: in its queue pair's turn, and its function's, a fetch reads packets from
the ring, moves its head and takes each packet in; a packet that fails a check, the resources of check 9 last, is answered
with the status of the first check that fails; one that passes is a command of the device. The turns of the other functions'
queue pairs stay as they are. A command that waited starts, and its host read goes out first.
Model's choices in it: log entries 52, 53, 55, 73, 132, 136. -/
def Obligations.FetchAndStart : Prop :=
  ∀ (s : State) (port : Port) (fn qid : Nat) (b : List Byte) (q : QueuePair), s.qp port fn qid = some q →
    let n := b.length / 64
    let i := Instr.commandFetch port fn qid b
    let p := packetOf b
    (∀ x ∈ s.cmds, x.tag < s.nextTag) →
    let turn : Prop := s.inTurn q = true ∧ s.inShare fn = true
    (b.length % 64 ≠ 0 ∨ s.mayFetch q n = false ∨ ¬turn → exec i s = .next s) ∧
    (b.length % 64 = 0 → s.mayFetch q n = true → turn → ∃ t, exec i s = .next t ∧ t.nextTag = s.nextTag + n ∧
      (t.qp port fn qid).map QueuePair.sqHead = some ((q.sqHead + n) % 2 ^ q.sqLog2) ∧
      Sends s t (.hostRead port fn (.ring port fn qid) (q.sqBase + 64 * q.sqHead) b.length)) ∧
    (b.length = 64 → s.mayFetch q 1 = true → turn → ∃ t, exec i s = .next t ∧
      (∀ r ∈ s.qps, r.fn ≠ fn → r.deleting = none → ∃ r' ∈ t.qps, r'.fn = r.fn ∧ r'.port = r.port ∧ r'.qid = r.qid ∧ r'.turns = r.turns) ∧
      (∀ e, s.checkPacket fn qid p = some e →
        t.cmd? s.nextTag = none ∧ ∃ x, Sends s t x ∧ IsReply (fetched s.nextTag fn port qid p) e.status 0 0 0 x) ∧
      (s.checkPacket fn qid p = none → ∀ st, (s.resourceCheck (fetched s.nextTag fn port qid p)).1 = some st →
        t.cmd? s.nextTag = none ∧ ∃ x, Sends s t x ∧ IsReply (fetched s.nextTag fn port qid p) st 0 0 0 x) ∧
      (s.checkPacket fn qid p = none → (s.resourceCheck (fetched s.nextTag fn port qid p)).1 = none →
        ∃ c, t.cmd? s.nextTag = some c ∧ c.pkt = p ∧ c.fn = fn ∧ c.port = port ∧ c.qid = qid ∧
        c.launched = false)) ∧
    (∀ tag c, s.cmd? tag = some c → c.started = false → s.mayStart c = true → s.usable c.port c.fn = true →
      ∃ t c', exec (.commandStart tag) s = .next t ∧ t.cmd? tag = some c' ∧ c'.started = true ∧ c'.pkt = c.pkt ∧ KeepsData s t ∧
        (c.pkt.list = true → 0 < c.pkt.dataLen → c'.want = .pageList ∧ Sends s t (.hostRead c.port c.fn (.cmd tag) c.pkt.dataAddr
          (8 * ((c.pkt.dataLen + 4095) / 4096)))) ∧
        (c.pkt.list = false → c.pkt.inbound = true →
          c'.want = .payload ∧ Sends s t (.hostRead c.port c.fn (.cmd tag) c.pkt.dataAddr c.pkt.dataLen)))

/-- 03 R77, R83, R87, R116, R118: what ends the host reads. The data of a command's read becomes its pages or its payload; a
misaligned page fails it, as does a list that arrives when the function may read no payload; a read that times out or fails
ends its command with HOST_DMA_ERROR, and halts the queue pair of a ring fetch; a COMMIT that waited for an APPEND that fails
so goes on. The interval of the interrupt coalescing sends the message.
Model's choices in it: log entries 54, 57, 134. -/
def Obligations.HostReads : Prop :=
  ∀ (s : State) (tag : Nat) (c : Cmd) (b : List Byte), s.cmd? tag = some c → Live s c →
    (c.want = .payload → b.length = c.pkt.dataLen → ∃ t, exec (.hostReadCompletion (.cmd tag) (.data b)) s = .next t ∧
      t.cmd? tag = some { c with payload := some b, want := .nothing } ∧ t.tx = s.tx ∧ KeepsData s t) ∧
    let next (u : State) : State := if c.pkt.opcode = 0x41 then (u.tryCommit c.fn c.pkt.stream).pumpGroup else u
    (c.want = .pageList → b.length = 8 * ((c.pkt.dataLen + 4095) / 4096) →
      let good : Prop := ∀ p ∈ (chunks 8 b).map leNat, p % 4096 = 0
      (¬good → ∃ u, exec (.hostReadCompletion (.cmd tag) (.data b)) s = .next (next u) ∧ Answered s u c .invalidBuffer 0 0 0 ∧
        KeepsData s u) ∧
      (good → c.pkt.inbound = true → s.usable c.port c.fn = false →
        ∃ u, exec (.hostReadCompletion (.cmd tag) (.data b)) s = .next (next u) ∧ Answered s u c .hostDmaError 0 0 0 ∧ KeepsData s u) ∧
      (good → c.pkt.inbound = false ∨ s.usable c.port c.fn = true →
        ∃ t c', exec (.hostReadCompletion (.cmd tag) (.data b)) s = .next t ∧ t.cmd? tag = some c' ∧ KeepsData s t ∧
          c'.pages = (chunks 8 b).map leNat ∧ c'.want = if c.pkt.inbound then .payload else .nothing)) ∧
    (c.want ≠ .nothing → ∀ i ∈ [Instr.hostDmaTimeout tag, .hostReadCompletion (.cmd tag) .unsupportedRequest,
        .hostReadCompletion (.cmd tag) .completerAbort, .hostReadCompletion (.cmd tag) .poisoned],
      ∃ u, exec i s = .next (next u) ∧ Answered s u c .hostDmaError 0 0 0 ∧ (∃ e, Sends s u (.aer c.port c.fn e)) ∧ KeepsData s u) ∧
    (∀ port fn qid q, s.qp port fn qid = some q → s.modes.running = true → q.halted = false → q.deleting = none → 1 ≤ q.waiting →
      ∀ i ∈ [Instr.ringFetchTimeout port fn qid, .hostReadCompletion (.ring port fn qid) .unsupportedRequest,
        .hostReadCompletion (.ring port fn qid) .completerAbort, .hostReadCompletion (.ring port fn qid) .poisoned],
      ∃ t, exec i s = .next t ∧ (t.qp port fn qid).map QueuePair.halted = some true ∧ KeepsData s t) ∧
    (∀ port fn qid q, s.qp port fn qid = some q → q.timing = true → s.canSend port fn = true →
      (s.held.any fun x => x.fn == fn && x.port == port) = false →
      (∀ e, (s.fp port fn).vectorOpen q.vector = some e → ∃ t, exec (.irqCoalesceTimeout port fn qid) s = .next t ∧
        t.tx = s.tx ++ [.msix port fn q.vector e.addr e.data] ∧
        t.qp port fn qid = some { q with unsignalled := 0, timing := false } ∧ KeepsData s t) ∧
      ((s.fp port fn).vectorOpen q.vector = none → ∃ t, exec (.irqCoalesceTimeout port fn qid) s = .next t ∧ t.tx = s.tx ∧
        (t.fp port fn).pba = (s.fp port fn).pba ||| (1#64 <<< q.vector) ∧ KeepsData s t)) ∧
    (∀ port fn page, (s.fp port fn).pci.atsOn = true → b.length = 8 →
      ∃ t, exec (.hostReadCompletion (.ats port fn page) (.data b)) s = .next t ∧
        (t.fp port fn).ats.look page = some (leNat b / 4096) ∧ t.tx = s.tx ∧ KeepsData s t)

/-- 03 R72, R78, R90, R92, R103, R511; 04 R146: the administration commands that end with one reply: NOP, the four IDENTIFY
pages and the two logs with their data in the buffer, ABORT, and ASYNC_EVENT, which waits for an event. -/
def Obligations.AdminReplies : Prop :=
  ∀ (s : State) (tag : Nat) (c : Cmd),
    let gives (i : Instr) (b : List Byte) (r0 : Nat) : Prop := ∃ t, exec i s = .next t ∧ Delivered s t c b ∧
      Answered s t c .ok r0 0 0 ∧ KeepsData s t
    let out := (s.cmds.filter fun x => x.fn == c.fn && x.port == c.port && x.pkt.opcode == 0x06 && x.launched && !x.doomed).length
    (Turn s tag 0x00 c → ∃ t, exec (.nop tag) s = .next t ∧ Answered s t c .ok 0 0 0 ∧ KeepsData s t) ∧
    (Turn s tag 0x01 c → s.usable c.port c.fn = true →
      (c.pkt.aux = 0 → gives (.identifyDevice tag) (padTo s.identifyDevice 4096) 0) ∧
      (c.pkt.aux = 1 → gives (.identifyFunction tag) (padTo (s.identifyFunction c.port c.fn) 4096) 0) ∧
      (c.pkt.aux = 2 → gives (.identifyContainers tag) (padTo (s.identifyContainers c.fn) 4096) 0) ∧
      (c.pkt.aux = 3 → gives (.identifyUsage tag) (padTo (s.identifyUsage c.fn) 4096) 0)) ∧
    (Turn s tag 0x04 c → c.pkt.aux = 0 → s.usable c.port c.fn = true → gives (.getLogError tag)
      ((List.range (c.pkt.dataLen / 64)).flatMap fun i => s.errSlot c.fn (c.pkt.fld 24 8 / 64 + i)) c.pkt.dataLen) ∧
    (Turn s tag 0x05 c →
      (s.abortTarget c = none → ∃ t, exec (.abort tag) s = .next t ∧ Answered s t c .ok 0 0 0 ∧ KeepsData s t) ∧
      (∀ x, s.abortTarget c = some x → Live s x → x.tag ≠ tag → (∀ q ∈ s.qps, q.deleting = none) → ∃ t, exec (.abort tag) s = .next t ∧
        Answered s t x .abortedByRequest 0 0 0 ∧ Answered s t c .ok 1 0 0 ∧ KeepsData s t)) ∧
    (Turn s tag 0x06 c →
      (4 ≤ out → ∃ t, exec (.asyncEvent tag) s = .next t ∧ Answered s t c .queueLimit 0 0 0) ∧
      (out < 4 → (s.fp c.port c.fn).events = [] → exec (.asyncEvent tag) s =
        .next (s.modCmd tag fun c => { c with launched := true })) ∧
      (out < 4 → s.modes.fwSwitched = false → ∀ e rest, (s.fp c.port c.fn).events = e :: rest →
        ∃ t, exec (.asyncEvent tag) s = .next t ∧
          Answered s t c .ok (e.1 + if (s.fp c.port c.fn).lost then 2 ^ 31 else 0) e.2 0 ∧ KeepsData s t))

/-! ## Block namespaces -/

/-- 02 R58, R61; 10 R359: BLOCK_READ of LBAs that no map entry covers answers zeros at once; for mapped ones a read of every
sector that holds them begins, and the command waits for them, and for a decompressor where the block is coded (01 R18).
Model's choices in it: log entries 19, 74, 156. -/
def Obligations.BlockReads : Prop :=
  ∀ (s : State) (tag : Nat) (c : Cmd) (n : Namespace), Turn s tag 0x20 c → s.ns? c.fn c.pkt.container = some n →
    s.reading tag = false →
    let lba := c.pkt.fld 24 8
    let count := c.pkt.fld 32 2 + 1
    ((∀ i < count, n.entry (lba + i) = none) → s.usable c.port c.fn = true →
      ∃ t, exec (.blockRead tag) s = .next t ∧ Delivered s t c (zeros (4096 * count)) ∧
        Answered s t c .ok (4096 * count) 0 0 ∧ KeepsData s t) ∧
    ((∃ i < count, ∃ e, n.entry (lba + i) = some e ∧ (s.sector? e.sector).isSome = true) →
      (∀ i < count, ∀ e, n.entry (lba + i) = some e → s.keyedFor c.fn e.sectors = true) →
      ∃ t c', exec (.blockRead tag) s = .next t ∧ t.cmd? tag = some c' ∧ c'.launched = true ∧
        (∀ i < count, ∀ e, n.entry (lba + i) = some e → ∀ k ∈ e.sectors, (s.sector? k).isSome = true → Reading t (.cmd tag i) k) ∧
        (∀ i < count, n.entry (lba + i) = none → c'.got.look i = some (zeros 4096)) ∧
        ∀ i < count, ∀ e x, n.entry (lba + i) = some e → s.sector? e.sector = some x →
          ((∃ p ∈ c'.coded, p.idx = i) ↔ x.header.layout ≠ 0)) ∧
    ((∃ i < count, ∃ e, n.entry (lba + i) = some e ∧ s.keyedFor c.fn e.sectors = false) →
      ∃ t, exec (.blockRead tag) s = .next t ∧ Answered s t c .notPermitted 0 0 0 ∧ KeepsData s t)

/-- 02 R60, R63; 10 R349, R356; 01 R17; 07 R262: BLOCK_WRITE of one atomic unit is one group in the open row of the unit's home
Batch; the map is not changed and nothing is answered before the group is durable. Stored raw, the group's sectors are the
blocks, with their headers; under a compression target a Roller codes the blocks first, and nothing is placed before. Without
space, and then without the tenant's key, it fails.
02 R62; 03 R101; 10 R362: DEALLOCATE writes one trim record, and the map reads as before until the record is durable; FLUSH is
answered once no earlier write of its ring is left.
Model's choices in it: log entries 19, 72, 77, 132. -/
def Obligations.WritesTrimsAndFlush : Prop :=
  (
    ∀ (s : State) (tag : Nat) (c : Cmd) (n : Namespace), Turn s tag 0x21 c → s.ns? c.fn c.pkt.container = some n →
      let lba := c.pkt.fld 24 8
      let len := c.data.length
      let blocks := len / 4096
      let key := s.tenantKey c.fn (s.classKey c.pclass) 0
      (s.spaceFor len = some .noSpace → ∃ t, exec (.blockWrite tag) s = .next t ∧ Answered s t c .noSpace 0 0 0 ∧ KeepsData s t) ∧
      (s.spaceFor len = some .readOnly → ∃ t, exec (.blockWrite tag) s = .next t ∧ Answered s t c .readOnly 0 0 0 ∧
        t.flash.roWear = true ∧ t.flash.rows = s.flash.rows ∧ ∀ n, (t.tenant n).nss = (s.tenant n).nss) ∧
      (s.spaceFor len = none → key = none → ∃ t, exec (.blockWrite tag) s = .next t ∧ Answered s t c .notPermitted 0 0 0 ∧
        KeepsData s t) ∧
      (s.spaceFor len = none → key ≠ none → 0 < blocks →
        (s.classTarget c.pclass ≠ 0 → ∃ t c', exec (.blockWrite tag) s = .next t ∧ t.cmd? tag = some c' ∧ c'.launched = true ∧
          c'.groups = c.groups ∧ t.hasRoller (.write tag) = true ∧ t.flash = s.flash ∧ t.tenants = s.tenants ∧ t.tx = s.tx ∧
          t.held = s.held ∧ t.mem = s.mem) ∧
        (s.classTarget c.pclass = 0 → len % 4096 = 0 → lba / 64 = (lba + blocks - 1) / 64 →
          EmptyRow s (lba / 64 % 4) .host (s.classParity c.pclass != 1) →
          ∃ t c' g, exec (.blockWrite tag) s = .next t ∧ t.cmd? tag = some c' ∧ c'.launched = true ∧
            c'.groups = [s.flash.nextGroup] ∧ InRow t g ∧ g.id = s.flash.nextGroup ∧ g.owner = .write tag ∧
            (∀ x ∈ g.sectors, x.1.kind = 1 ∧ x.1.tenant = c.fn ∧ x.1.container = c.pkt.container ∧ x.1.seq = c.dataSeq ∧
              x.1.unitSectors = g.sectors.length ∧ x.2.length = 4096) ∧
            g.sectors.map Prod.snd = chunks 4096 c.data ∧
            g.sectors.map (fun x => x.1.logicalLo) = (List.range blocks).map (lba + ·) ∧
            t.tenants = s.tenants ∧ Quiet s t ∧ t.flash.sectors = s.flash.sectors ∧ t.mem = s.mem))) ∧
  (
    ∀ (s : State) (tag : Nat) (c : Cmd),
      (∀ n, Turn s tag 0x23 c → s.ns? c.fn c.pkt.container = some n → EmptyRow s (s.nextCommit % 4) .metadata true →
        let r : Record := ⟨s.nextCommit, tag, c.fn, c.pkt.container, .trim (c.pkt.fld 24 8) (c.pkt.fld 32 4 + 1), c.dataSeq, false⟩
        ∃ t c' g, exec (.deallocate tag) s = .next t ∧ t.records = s.records ++ [r] ∧ t.cmd? tag = some c' ∧ c'.launched = true ∧
          InRow t g ∧ g.owner = .record r.id ∧ g.sectors.map Prod.snd = [padTo r.bytes 4096] ∧
          t.tenants = s.tenants ∧ Quiet s t ∧ t.flash.sectors = s.flash.sectors ∧ t.mem = s.mem) ∧
      (Turn s tag 0x22 c → (∀ x ∈ s.earlier c, x.pkt.writes = false) →
        ∃ t, exec (.flush tag) s = .next t ∧ Answered s t c .ok 0 0 0 ∧ KeepsData s t))

/-! ## Object spaces -/

/-- 02 R41, R54; 03 R119; 04 R137: OPEN_WRITE takes a context and opens a write stream on it, with the key of its class loaded (08 R294); OPEN_READ takes one and pins the
current version; both answer the handle, or the first condition that fails.
02 R41, R45, R54; 04 R139: ABORT_STREAM, CLOSE_READ and the inactivity limit give a stream's context back; the commands left on
an aborted stream fail with STREAM_UNKNOWN; no limit runs out while the timers stand still. A context out of the cache comes
back into it from a copy.
Model's choices in it: log entries 68, 70, 128, 137, 143. -/
def Obligations.StreamsOpenAndEnd : Prop :=
  (
    ∀ (s : State) (tag : Nat) (c : Cmd) (sp : Space), s.space? c.fn c.pkt.container = some sp →
      let p := c.pkt
      let oid := p.fld 24 16
      (Turn s tag 0x40 c →
        (s.ctxAllowed c.fn = false → ∃ t, exec (.openWrite tag) s = .next t ∧ Answered s t c .ctxExhausted 0 0 0) ∧
        (s.ctxAllowed c.fn = true → s.current c.fn p.container oid = none → sp.objectQuota ≠ 0 →
          sp.objectQuota ≤ s.spaceObjects c.fn p.container →
          ∃ t, exec (.openWrite tag) s = .next t ∧ Answered s t c .quotaObjects 0 0 0 ∧ KeepsData s t) ∧
        (s.ctxAllowed c.fn = true → s.createOk c.fn p.container oid = none → sp.byteQuota ≠ 0 →
          sp.byteQuota < s.spaceBytes c.fn p.container + (p.fld 40 8 - p.fld 48 8) →
          ∃ t, exec (.openWrite tag) s = .next t ∧ Answered s t c .quotaBytes 0 0 0 ∧ KeepsData s t) ∧
        (s.ctxAllowed c.fn = true → s.openCheck c oid (p.fld 40 8) (p.fld 48 8) (bitOf p.aux 2) = none →
          s.tenantKey c.fn (s.classKey c.pclass) 0 = none →
          ∃ t, exec (.openWrite tag) s = .next t ∧ Answered s t c .notPermitted 0 0 0 ∧ KeepsData s t) ∧
        (s.ctxAllowed c.fn = true → s.openCheck c oid (p.fld 40 8) (p.fld 48 8) (bitOf p.aux 2) = none →
          s.tenantKey c.fn (s.classKey c.pclass) 0 ≠ none →
          ∃ t h x w, exec (.openWrite tag) s = .next t ∧ Answered s t c .ok h 0 0 ∧ KeepsData s t ∧
            x ∈ t.ctxs ∧ x.handle = h ∧ h % 2 ^ 18 = x.slot ∧ 1 ≤ h / 2 ^ 18 ∧ h / 2 ^ 18 ≤ 16383 ∧ x.tenant = c.fn ∧
            x.port = c.port ∧ x.kind = .write w ∧ w.space = p.container ∧ w.oid = oid ∧ w.declLen = p.fld 40 8 ∧
            w.start = p.fld 48 8 ∧ w.alg = p.aux % 4 ∧ w.log = bitOf p.aux 2 ∧
            w.expect = (if bitOf p.aux 3 then some c.data else none) ∧ w.state = .opened ∧ w.parts = [])) ∧
      (Turn s tag 0x45 c → s.ctxAllowed c.fn = true →
        (s.current c.fn p.container oid = none → ∃ t, exec (.openRead tag) s = .next t ∧ Answered s t c .notFound 0 0 0) ∧
        (∀ v, s.current c.fn p.container oid = some v →
          (p.fld 40 8 ≠ 0 → p.fld 40 8 ≠ v.version →
            ∃ t, exec (.openRead tag) s = .next t ∧ Answered s t c .versionGone 0 0 0 ∧ KeepsData s t) ∧
          (p.fld 40 8 = 0 ∨ p.fld 40 8 = v.version →
            ∃ t h x, exec (.openRead tag) s = .next t ∧ Answered s t c .ok h v.version v.length ∧ KeepsData s t ∧
              x ∈ t.ctxs ∧ x.handle = h ∧ x.tenant = c.fn ∧ x.kind = .read p.container oid v.version)))) ∧
  (
    ∀ (s : State) (tag : Nat) (c : Cmd),
      let h := c.pkt.stream
      (∀ w, Turn s tag 0x43 c → s.stream? c.fn h = some w → w.state ≠ .opened →
        ∃ t, exec (.abortStream tag) s = .next t ∧ Answered s t c .streamCommitting 0 0 0) ∧
      (∀ w, Turn s tag 0x43 c → s.stream? c.fn h = some w → w.state = .opened → h ≠ 0 → (∀ q ∈ s.qps, q.deleting = none) →
        (∀ x ∈ s.cmds, x.tag = tag → x = c) →
        ∃ t, exec (.abortStream tag) s = .next t ∧ Answered s t c .ok 0 0 0 ∧ StreamGone t h ∧ KeepsData s t ∧
          ∀ x, s.cmd? x.tag = some x → x.fn = c.fn → x.pkt.stream = h → x.tag ≠ tag → Live s x →
            Answered s t x .streamUnknown 0 0 0) ∧
      (Turn s tag 0x46 c → (s.readStream? c.fn h).isSome = true → NoGroupWork s →
        ∃ t, exec (.closeRead tag) s = .next t ∧ Answered s t c .ok 0 0 0 ∧ StreamGone t h ∧ t.commits = s.commits ∧
          t.records = s.records ∧ t.mem = s.mem) ∧
      (∀ x, s.ctxs.find? (fun c => c.handle == h) = some x →
        (s.timersStand x.tenant = true → exec (.streamInactivityTimeout h) s = .next s) ∧
        (s.timersStand x.tenant = false → (∀ j, x.kind ≠ .job j) → (∀ j, x.kind ≠ .transient j) →
          (∀ w, x.kind = .write w → w.state = .opened) → NoGroupWork s →
          ∃ t, exec (.streamInactivityTimeout h) s = .next t ∧ StreamGone t h ∧ t.commits = s.commits ∧ t.records = s.records) ∧
        ((s.ctxs.filter Ctx.cached).length < 16384 → x.cached = false → x.copies ≠ [] →
          exec (.contextCacheLoad h) s = .next (s.modCtx h fun c => { c with cached := true }))))

/-- 02 R42 to R44, R46; 03 R119; 01 R17: APPEND in an Open stream, or in flight when its stream's COMMIT was accepted, is
received when it lies in the declared length, overlaps no byte received and starts in the window, and space, key and staging
allow it: its bytes join the stream at once and are placed in the stream's home Batch, after a Roller has coded them under a
compression target, and it is answered when they are durable. It waits while the staging of the home Batch is full. Beyond the
declared length it aborts the stream. A COMMIT that waited for one that fails goes on.
Model's choices in it: log entries 19, 69, 76, 132. -/
def Obligations.Appends : Prop :=
  ∀ (s : State) (tag : Nat) (c : Cmd) (w : WriteStream), Turn s tag 0x41 c → s.stream? c.fn c.pkt.stream = some w →
    let off := c.pkt.fld 24 8
    let len := c.data.length
    let gives (st : Status) : Prop := ∃ u, exec (.append tag) s = .next ((u.tryCommit c.fn c.pkt.stream).pumpGroup) ∧
      Answered s u c st 0 0 0 ∧ KeepsData s u
    let runs : Prop := w.state = .opened ∨ tag ∈ w.inFlight
    let fits : Prop := runs ∧ off + len ≤ w.declLen ∧ w.overlaps off len = false ∧ off < w.frontier + 2 ^ 26
    let key := s.tenantKey c.fn (s.classKey w.pclass) 0
    (¬runs → ∃ t, exec (.append tag) s = .next t ∧ Answered s t c .streamCommitting 0 0 0 ∧ KeepsData s t) ∧
    (runs → w.declLen < off + len → c.pkt.stream ≠ 0 →
      ∃ t, exec (.append tag) s = .next t ∧ Answered s t c .lengthOver 0 0 0 ∧ StreamGone t c.pkt.stream) ∧
    (runs → off + len ≤ w.declLen →
      (off < w.start ∨ (∃ p ∈ w.parts, off < p.off + p.data.length ∧ p.off < off + len) → gives .appendOverlap) ∧
      (w.overlaps off len = false → w.frontier + 2 ^ 26 ≤ off → gives .outOfWindow)) ∧
    (fits →
      (s.spaceFor len = some .noSpace → gives .noSpace) ∧
      (s.spaceFor len = some .readOnly → ∃ u, exec (.append tag) s = .next ((u.tryCommit c.fn c.pkt.stream).pumpGroup) ∧
        Answered s u c .readOnly 0 0 0 ∧ u.flash.roWear = true) ∧
      (s.spaceFor len = none →
        (key = none → gives .notPermitted) ∧
        (key ≠ none → s.stagingSize w.batch < s.staged w.batch + len → exec (.append tag) s = .next s) ∧
        (key ≠ none → s.staged w.batch + len ≤ s.stagingSize w.batch → 0 < len →
          let received (t : State) (c' : Cmd) : Prop := exec (.append tag) s = .next t ∧
            t.stream? c.fn c.pkt.stream = some { w with parts := w.parts ++ [⟨off, c.data, tag, [], false⟩] } ∧
            t.cmd? tag = some c' ∧ c'.launched = true ∧ t.versions = s.versions ∧ t.commits = s.commits ∧
            t.flash.sectors = s.flash.sectors
          (s.objectTarget w.pclass ≠ 0 → ∃ t c', received t c' ∧ t.hasRoller (.write tag) = true ∧ t.flash = s.flash ∧ t.tx = s.tx ∧
            t.held = s.held) ∧
          (s.objectTarget w.pclass = 0 → off % 4096 + len ≤ 262144 → EmptyRow s w.batch .host (s.classParity w.pclass != 1) →
            ∃ t c' g, received t c' ∧ c'.groups = [g.id] ∧ InRow t g ∧ g.owner = .append tag ∧ Quiet s t ∧
              ∀ x ∈ g.sectors, x.1.kind = 2 ∧ x.1.tenant = c.fn ∧ x.1.container = w.space ∧ x.1.logicalHi = w.oid ∧
                x.1.seq = c.dataSeq))))

/-- 02 R46 to R48, R51; 04 R144: COMMIT of a stream waits for its appends, those in flight with them; once all are durable it
checks the length, the digest and the version condition in this order, ends the stream with the first that fails, and otherwise
is accepted under the space's next counter value; in a space that is being deleted it fails.
02 R41, R48 to R51, R55; 10 R352, R356, R362: the records of the commits that may go out are placed in one commit page, in a
metadata row of the Batch whose turn it is, with the extent lists they name; a commit whose page is durable makes its version
the object's latest one, in commit order, and its COMMIT or DELETE is answered; the stream is Committed until the answer is
posted, and then gone.
Model's choices in it: log entries 77, 75, 98. -/
def Obligations.CommitsAndPages : Prop :=
  (
    ∀ (s : State) (tag : Nat) (c : Cmd) (w : WriteStream), Turn s tag 0x42 c → s.stream? c.fn c.pkt.stream = some w →
      let h := c.pkt.stream
      let l := s.latestInOrder c.fn w.space w.oid
      let want := c.pkt.fld 24 8
      let d := contentDigest w.alg w.segment
      let deleting := ((s.tenant c.fn).spaces.look w.space).any Space.deleting
      let flying : Prop := ∃ x ∈ s.cmds, x.fn = c.fn ∧ x.pkt.opcode = 0x41 ∧ x.pkt.stream = h ∧ x.started = true ∧ x.launched = false
      let gives (st : Status) (r1 : Nat) : Prop := ∃ t, exec (.commit tag) s = .next t ∧ Answered s t c st 0 r1 0 ∧
        StreamGone t h ∧ t.versions = s.versions ∧ t.commits = s.commits
      (w.state ≠ .opened → ∃ t, exec (.commit tag) s = .next t ∧ Answered s t c .streamCommitting 0 0 0 ∧ KeepsData s t) ∧
      (w.state = .opened → NoGroupWork s → (∀ v ∈ s.versions, v.group = none) → (∀ x ∈ s.commits, x.handle ≠ h) →
        (∀ x ∈ s.cmds, x.fn = c.fn → x.pkt.stream = h → x.pkt.opcode = 0x42 → x = c) →
        (deleting = true → gives .containerUnknown 0) ∧
        (deleting = false → flying ∨ (∃ p ∈ w.parts, p.durable = false) →
          ∃ t, exec (.commit tag) s = .next t ∧ (t.stream? c.fn h).map WriteStream.state = some .committing ∧
            (t.cmd? tag).map Cmd.launched = some true ∧ t.commits = s.commits ∧ t.versions = s.versions ∧ t.tx = s.tx) ∧
        (deleting = false → ¬flying → (∀ p ∈ w.parts, p.durable = true) →
          (w.frontier ≠ w.declLen → gives .lengthShort 0) ∧
          (w.frontier = w.declLen → w.expect.any (· != d) = true → gives .digestMismatch 0) ∧
          (w.frontier = w.declLen → w.expect.any (· != d) = false →
            ((want = 0 ∧ l.any Version.live = true) ∨
                (want ≠ 0 ∧ want ≠ 2 ^ 64 - 1 ∧ l.all (fun v => v.version != want) = true) →
              gives .commitConflict ((l.map Version.version).getD 0)) ∧
            (w.log = false → (want = 2 ^ 64 - 1 ∨ (want = 0 ∧ l = none)) → l.all (fun v => !v.log) = true →
              s.classParity w.pclass < 2 →
              ∀ sp, (s.tenant c.fn).spaces.look w.space = some sp → sp.counter < 2 ^ 64 - 2 →
              ∃ t x, exec (.commit tag) s = .next t ∧ t.commits = s.commits ++ [x] ∧ x.owner = .cmd tag ∧ x.handle = h ∧
                x.phase = .waiting ∧ x.ver.version = sp.counter + 1 ∧ x.ver.tenant = c.fn ∧ x.ver.space = w.space ∧
                x.ver.oid = w.oid ∧ x.ver.live = true ∧ x.ver.length = w.declLen ∧ x.ver.digest = d ∧
                x.ver.seq = s.flash.seq ∧ t.flash.seq = s.flash.seq + 1 ∧
                ((t.tenant c.fn).spaces.look w.space).map Space.counter = some (sp.counter + 1) ∧
                (t.stream? c.fn h).map WriteStream.state = some .committing ∧ t.versions = s.versions ∧ t.tx = s.tx))))) ∧
  (
    ∀ (s : State),
      let batch := s.nextCommit % 4
      let sectors := (s.pageable.map fun c => c.ver.listSectors).sum + 1
      (s.pageable = [] ∨ s.awake = false → exec .commitPageProgram s = .next s) ∧
      (s.pageable ≠ [] → s.awake = true → EmptyRow s batch .metadata true → (∀ r ∈ s.flash.rows, s.rowFull r.id sectors = false) →
        (∀ r ∈ s.flash.rows, ∀ g ∈ r.groups, g.id < s.flash.nextGroup) →
        ∃ t g h, exec .commitPageProgram s = .next t ∧ InRow t g ∧ g.owner = .commits (s.pageable.map Commit.id) ∧
          g.sectors = [(h, padTo (s.pageable.flatMap fun c => c.record 0) 4096)] ∧ h.kind = 3 ∧ h.devKey = true ∧
          (∀ c ∈ s.pageable, c.ver.seq ≤ h.seq) ∧
          (∀ c ∈ s.pageable, ∀ p < (c.ver.listSectors + 63) / 64, ∃ g', InRow t g' ∧
            g'.owner = .extents c.ver.tenant c.ver.space c.ver.oid c.ver.version p ∧ ∀ e ∈ g'.sectors, e.1.seq = c.ver.seq) ∧
          t.commits.map (fun c => (c.id, c.phase, c.ver.version)) = s.commits.map (fun c =>
            (c.id, if c.id ∈ s.pageable.map Commit.id then .paged else c.phase, c.ver.version)) ∧
          t.versions.map (fun v => { v with fresh := none }) = s.versions.map (fun v => { v with fresh := none }) ∧ Quiet s t) ∧
      (∀ id c, s.commits.find? (fun c => c.id == id) = some c →
        let v := c.ver
        ((c.phase ≠ .durable ∨ ∃ x ∈ s.commitsOf v.tenant v.space v.oid, x.ver.version < v.version) →
          exec (.commitRecordDurable id) s = .next s) ∧
        (c.phase = .durable → (∀ x ∈ s.commitsOf v.tenant v.space v.oid, v.version ≤ x.ver.version) →
          (∀ x ∈ s.versions, x.is v.tenant v.space v.oid = true → x.version < v.version) → NoGroupWork s →
          ∃ t, exec (.commitRecordDurable id) s = .next t ∧ (∀ x ∈ t.commits, x.id ≠ id) ∧
            (t.latest v.tenant v.space v.oid).map (fun x => (x.version, x.live, x.length, x.digest)) =
              some (v.version, v.live, v.length, v.digest) ∧
            (∀ slot, c.owner = .job slot → StreamGone t c.handle) ∧
            ∀ tag k, c.owner = .cmd tag → s.cmd? tag = some k → Live s k → s.usable k.port k.fn = true →
              (k.pkt.opcode = 0x42 → Answered s t k .ok 0 v.version v.length ∧ (k.pkt.dataLen = 32 → Delivered s t k v.digest) ∧
                ∀ w, s.stream? k.fn c.handle = some w →
                  ((s.hp k.port).up = true → (∀ h ∈ s.held, h.fn ≠ k.fn) → StreamGone t c.handle) ∧
                  ((s.hp k.port).up = false → (t.stream? k.fn c.handle).map WriteStream.state = some .committed)) ∧
              (k.pkt.opcode = 0x47 → Answered s t k .ok 0 v.version 0))))

/-- 02 R52, R53, R54; 10 R359: OBJECT_READ reads one version: the one its read stream pins, or the current one. With no byte of the
range below its length it answers the version and the length at once; otherwise a read of every sector of the range begins, and
what lies in sectors that hold raw blocks alone needs no decompressor. A name with no live object is not found, and a version
that is neither current nor pinned is gone.
Model's choices in it: log entries 19, 74, 78, 156. -/
def Obligations.ObjectReads : Prop :=
  ∀ (s : State) (tag : Nat) (c : Cmd), Turn s tag 0x44 c → s.reading tag = false →
    let p := c.pkt
    let lo := p.fld 40 8
    let named (v : Version) : Prop :=
      (p.stream ≠ 0 ∧ s.readStream? c.fn p.stream = some v) ∨
      (p.stream = 0 ∧ (s.space? c.fn p.container).isSome = true ∧ s.latest c.fn p.container (p.fld 24 16) = some v ∧
        v.live = true ∧ (p.fld 48 8 = 0 ∨ p.fld 48 8 = v.version))
    (p.stream = 0 → (s.space? c.fn p.container).isSome = true → (s.latest c.fn p.container (p.fld 24 16)).all (!·.live) = true →
      ∃ t, exec (.objectRead tag) s = .next t ∧ Answered s t c .notFound 0 0 0 ∧ KeepsData s t) ∧
    (∀ v, p.stream = 0 → (s.space? c.fn p.container).isSome = true → s.latest c.fn p.container (p.fld 24 16) = some v →
      v.live = true → p.fld 48 8 ≠ 0 → p.fld 48 8 ≠ v.version →
      (∀ w ∈ s.versions, w.is c.fn p.container (p.fld 24 16) = true → w.version = p.fld 48 8 → s.pinnedVersion w = false) →
      ∃ t, exec (.objectRead tag) s = .next t ∧ Answered s t c .versionGone 0 0 0 ∧ KeepsData s t) ∧
    (∀ v, named v → v.group = none → (∀ e ∈ v.parts, e.data ≠ []) →
      let hi := min (lo + p.dataLen) v.length
      (s.keyedFor v.tenant (v.sectorsAt lo hi) = false → ∃ t, exec (.objectRead tag) s = .next t ∧ Answered s t c .notPermitted 0 0 0) ∧
      (s.keyedFor v.tenant (v.sectorsAt lo hi) = true →
        (hi ≤ lo → ∃ t, exec (.objectRead tag) s = .next t ∧ Answered s t c .ok 0 v.version v.length ∧ KeepsData s t) ∧
        (lo < hi → (∃ k ∈ v.sectorsAt lo hi, (s.sector? k).isSome = true) →
          ∃ t c', exec (.objectRead tag) s = .next t ∧ t.cmd? tag = some c' ∧ c'.launched = true ∧
            c'.results = (v.version, v.length) ∧
            (∀ k ∈ v.sectorsAt lo hi, (s.sector? k).isSome = true → ∃ i, Reading t (.cmd tag i) k) ∧
            ((∀ k ∈ v.sectorsAt lo hi, s.codedSector k = false) → c'.coded = []))))

/-- 02 R41, R47, R54, R55, R57; 03 R90, R91; 04 R144: DELETE checks its version condition; where the object is live it is
accepted as a commit of a tombstone under the space's next counter value, and fails in a space that is being deleted; where no
object is live it is not found, with selector 2^64 − 1, or done. STAT answers what is current of an object, or nothing;
STREAM_QUERY answers a stream's state, frontier and bytes received. LIST answers, in order, the current objects from a name on,
as many as the buffer takes, and whether they are the last. LOG_TRIM of a log object marks the range below its length as trimmed
and releases the blocks that lie whole in it, but of a version that is pinned.
Model's choices in it: log entries 71, 75, 131. -/
def Obligations.ObjectCommands : Prop :=
  ∀ (s : State) (tag : Nat) (c : Cmd) (sp : Space), s.space? c.fn c.pkt.container = some sp →
    let p := c.pkt
    let oid := p.fld 24 16
    let l := s.latestInOrder c.fn p.container oid
    let want := p.fld 40 8
    let no := (l.map Version.version).getD 0
    (Turn s tag 0x47 c →
      (versionOk want l = false →
        ∃ t, exec (.delete tag) s = .next t ∧ Answered s t c .commitConflict 0 no 0 ∧ KeepsData s t) ∧
      (versionOk want l = true → l.any Version.live = false → want = 2 ^ 64 - 1 →
        ∃ t, exec (.delete tag) s = .next t ∧ Answered s t c .notFound 0 0 0 ∧ KeepsData s t) ∧
      (versionOk want l = true → l.any Version.live = false → want ≠ 2 ^ 64 - 1 →
        ∃ t, exec (.delete tag) s = .next t ∧ Answered s t c .ok 0 no 0 ∧ KeepsData s t) ∧
      (versionOk want l = true → l.any Version.live = true → sp.deleting = true →
        ∃ t, exec (.delete tag) s = .next t ∧ Answered s t c .containerUnknown 0 0 0) ∧
      (versionOk want l = true → l.any Version.live = true → sp.deleting = false → sp.counter < 2 ^ 64 - 2 → NoGroupWork s →
        ∃ t x, exec (.delete tag) s = .next t ∧ t.commits = s.commits ++ [x] ∧ x.owner = .cmd tag ∧ x.phase = .waiting ∧
          x.ver.live = false ∧ x.ver.tenant = c.fn ∧ x.ver.space = p.container ∧ x.ver.oid = oid ∧
          x.ver.version = sp.counter + 1 ∧ x.ver.seq = s.flash.seq ∧ (t.cmd? tag).map Cmd.launched = some true ∧
          t.tx = s.tx ∧ t.held = s.held ∧ t.records = s.records)) ∧
    (Turn s tag 0x48 c → bitOf p.aux 0 = false → s.usable c.port c.fn = true →
      (s.latest c.fn p.container oid = none → ∃ t, exec (.stat tag) s = .next t ∧ Answered s t c .ok 0 0 0 ∧ KeepsData s t) ∧
      (∀ v, s.latest c.fn p.container oid = some v → v.live = true → ∃ t, exec (.stat tag) s = .next t ∧ KeepsData s t ∧
        Answered s t c .ok (if v.log then 3 else 1) v.version v.length ∧ (p.dataLen = 32 → Delivered s t c (padTo v.digest 32))) ∧
      (∀ v, s.latest c.fn p.container oid = some v → v.live = false → ∃ t, exec (.stat tag) s = .next t ∧ KeepsData s t ∧
        Answered s t c .ok 0 v.version 0)) ∧
    (Turn s tag 0x48 c → bitOf p.aux 0 = true →
      (s.stream? c.fn p.stream = none → ∃ t, exec (.statStreamQuery tag) s = .next t ∧ Answered s t c .streamUnknown 0 0 0 ∧
        KeepsData s t) ∧
      (∀ w, s.stream? c.fn p.stream = some w → ∃ t, exec (.statStreamQuery tag) s = .next t ∧ KeepsData s t ∧
        Answered s t c .ok w.state.num w.frontier (w.parts.map fun x => x.data.length).sum)) ∧
    (Turn s tag 0x4A c → s.usable c.port c.fn = true →
      ∃ (t : State) (part : List (Nat × Nat)) (r2 : Nat), exec (.list tag) s = .next t ∧ KeepsData s t ∧
        Delivered s t c (part.flatMap fun e => leBytes 16 e.1 ++ leBytes 8 e.2) ∧ Answered s t c .ok part.length 0 r2 ∧
        part.length ≤ p.dataLen / 24 ∧ part.Pairwise (fun a b => a.1 ≤ b.1) ∧ r2 ≤ 1 ∧ (part.length < p.dataLen / 24 → r2 = 1) ∧
        (∀ e ∈ part, oid ≤ e.1 ∧ (s.latest c.fn p.container e.1).map Version.version = some e.2) ∧
        ∀ v, s.current c.fn p.container v.oid = some v → oid ≤ v.oid →
          (v.oid, v.version) ∈ part ∨ (part.length = p.dataLen / 24 ∧ ∀ e ∈ part, e.1 ≤ v.oid)) ∧
    (Turn s tag 0x49 c →
      (s.current c.fn p.container oid = none → ∃ t, exec (.logTrim tag) s = .next t ∧ Answered s t c .notFound 0 0 0 ∧ KeepsData s t) ∧
      ∀ v, s.current c.fn p.container oid = some v →
      let hi := min (want + p.fld 48 8) v.length
      (v.log = false → ∃ t, exec (.logTrim tag) s = .next t ∧ Answered s t c .notLogObject 0 0 0 ∧ KeepsData s t) ∧
      (v.log = true → s.pinnedVersion v = true → ∃ t, exec (.logTrim tag) s = .next t ∧ Answered s t c .ok 0 0 0 ∧
        t.current c.fn p.container oid = some v ∧ t.mem = s.mem ∧ t.flash.sectors = s.flash.sectors) ∧
      (v.log = true → s.pinnedVersion v = false → ∃ t v', exec (.logTrim tag) s = .next t ∧ Answered s t c .ok 0 0 0 ∧
        t.current c.fn p.container oid = some v' ∧ v'.version = v.version ∧ v'.length = v.length ∧
        v'.trimmed = v.trimmed ++ (if want < hi then [(want, hi)] else []) ∧
        v'.parts = v.parts.map (fun e => if want < hi ∧ want ≤ e.off ∧ e.off + e.data.length ≤ hi then { e with sectors := [] } else e) ∧
        t.records = s.records ∧ t.mem = s.mem ∧ t.flash.sectors = s.flash.sectors))

/-! ## Flash channels and cards -/

/-- 10 R359: a flash read that has been issued and decodes is over, and so is a rebuild from parity where the row's other units
allow one: what is coded of its piece goes to a decompressor, and a command whose last read is over is answered with its bytes.
A read that does not decode goes on with the next step of its ladder, with the rebuild from parity beside it from the third
failure on; where the last step fails too, or cannot succeed, the command is answered with UNRECOVERED_READ and the bytes before
the first piece that is missing. A read that has not been issued does not end.
Model's choices in it: log entry 83. -/
def Obligations.FlashReads : Prop :=
  ∀ (s : State) (rid : Nat) (r : FlashRead) (x : Sector), s.flash.reads.find? (fun r => r.id == rid) = some r →
    s.sector? r.sector = some x →
    let rr := s.retrySteps x.slot
    let last := rr + 1
    let goes := r.step ≤ last ∧ s.runs (.read rid) = true
    (r.step ≤ last → s.runs (.read rid) = false → ∀ ok, exec (.flashReadDone rid ok) s = .next s) ∧
    (goes ∨ (last < r.step ∧ s.rebuildable x = true) →
      ∃ t, exec (.flashReadDone rid true) s = .next t ∧ (∀ y ∈ t.flash.reads, y.id ≠ rid) ∧ t.mem = s.mem ∧
      (∀ tag i c p, r.owner = .cmd tag i → s.cmd? tag = some c → c.coded.find? (fun p => p.idx == i) = some p →
        (∀ y ∈ s.flash.reads, y.owner = .cmd tag i → y.id = rid) → (∀ y ∈ s.flash.sets, y.victim = false) →
        t.hasRoller (.read tag i) = true) ∧
      ∀ tag i c, r.owner = .cmd tag i → s.cmd? tag = some c → Live s c → c.launched = true →
        (c.pkt.opcode = 0x20 ∨ c.pkt.opcode = 0x44) → LastRead s tag rid → c.coded = [] → s.usable c.port c.fn = true →
        (∀ i < c.ref, (c.got.look i).isSome = true) →
        let b := (List.range c.ref).flatMap fun i => (c.got.look i).getD []
        Delivered s t c b ∧ Answered s t c .ok b.length c.results.1 c.results.2) ∧
    (goes → r.parity = false → ∃ t y, exec (.flashReadDone rid false) s = .next t ∧ y ∈ t.flash.reads ∧
      y.id = rid ∧ y.owner = r.owner ∧ y.sector = r.sector ∧ y.step = r.step + 1 ∧ (2 ≤ r.step → y.parity = true) ∧
      t.mem = s.mem ∧ ((∀ y ∈ s.flash.sets, y.victim = false) → t.flash.sectors = s.flash.sectors ∧ t.cmds = s.cmds)) ∧
    (goes → r.parity = true → ∃ t, exec (.flashReadDone rid false) s = .next t ∧ t.mem = s.mem ∧
      ((∀ y ∈ t.flash.reads, y.id ≠ rid) ∨ ∃ y ∈ t.flash.reads, y.id = rid ∧ y.owner = r.owner ∧ y.sector = r.sector ∧
        y.step = r.step + 1 ∧ y.parity = true)) ∧
    (last < r.step → ∀ ok, ok = false ∨ s.rebuildable x = false →
      ∀ tag i c, r.owner = .cmd tag i → s.cmd? tag = some c → Live s c → c.launched = true →
      (c.pkt.opcode = 0x20 ∨ c.pkt.opcode = 0x44) → LastRead s tag rid → (∀ p ∈ c.coded, p.idx = i) →
      s.usable c.port c.fn = true → i < c.ref →
      ∃ t, exec (.flashReadDone rid ok) s = .next t ∧ (∀ y ∈ t.flash.reads, y.id ≠ rid) ∧
        let b := piecesUpTo { c with got := c.got.del i } c.ref
        Delivered s t c b ∧ Answered s t c .unrecoveredRead b.length 0 0)

/-- 10 R334, R335, R355 to R357, R364, R367; 14 R464, R465: what ends a program or an erase. A program that succeeds has its
member's sectors of the row on flash and is noted for its row; one that fails closes the row's set and marks it for reclaiming.
An erase counts on its block; a block that fails it is retired; the last one frees a set that is reclaimed, with its sectors. A
timeout sets the card's error bit; during identification it rejects the card. An operation that has waited 4 ms is served at QOS
7, and of the operations that may be issued the one of highest QOS is, reads before programs before erases. ZQ calibration goes
to every populated chip enable of a card in service.
Model's choices in it: log entries 84, 82. -/
def Obligations.FlashPrograms : Prop :=
  ∀ (s : State) (n : Nat) (slot : Fin 24),
    let card (t : State) := t.card slot
    (∀ r m, s.programming n slot = some (r, m) → r.repair = none →
      ((∀ p ∈ r.progs, p.2 ≠ .failed) → ∃ t l, exec (.flashProgramDone n slot true) s = .next t ∧
        t.row? n = some { r with progs := r.progs.put slot .done } ∧ (card t).programs = (card s).programs + 1 ∧
        t.cmds = s.cmds ∧ t.flash.sets = s.flash.sets ∧ t.mem = s.mem ∧ ((card s).state ≠ 5 → Quiet s t) ∧
        t.flash.sectors = s.flash.sectors ++ l ∧ (∀ y ∈ l, y.slot = slot.val ∧ y.set = r.set ∧ y.row = r.index) ∧
        ∀ x geo g tag, s.set? r.set = some x → s.geom = some geo → r.groups = [g] → (g.owner = .write tag ∨ g.owner = .append tag) →
          r.index < geo.rows → ∀ i, i < g.sectors.length → i < x.rowCap geo → (x.place geo r.index i).1 = slot.val →
          ∃ y ∈ l, y.id = r.base + i ∧ some (y.header, y.data) = g.sectors[i]?) ∧
      (r.dead = false → (s.set? r.set).map StripeSet.victim = some false →
        (∃ t, exec (.flashProgramDone n slot false) s = .next t ∧
          (t.set? r.set).map (fun y => (y.closed, y.gcMark)) = some (true, true)) ∧
        (∃ t, exec (.flashOpTimeout (.program n slot)) s = .next t ∧ (card t).errTimeout = true ∧
          (t.set? r.set).map (fun y => (y.closed, y.gcMark)) = some (true, true)) ∧
        ∃ t, exec (.programEarlyReissue n slot) s = .next t ∧ (t.set? r.set).map StripeSet.closed = some true ∧
          ∀ y ∈ s.flash.reads, ∀ x, s.sector? y.sector = some x → s.dieOf x = dieKey m.slot m.chan m.die →
            ∃ z ∈ t.flash.reads, z.id = y.id ∧ z.parity = true)) ∧
    (∀ x m, s.set? n = some x → s.erasing n slot = some m →
      let key := blockKey m.slot m.chan m.die m.block
      (∃ t, exec (.flashEraseDone n slot true) s = .next t ∧ t.flash.wear.lookD key 0 = s.flash.wear.lookD key 0 + 1 ∧
        (card t).erases = (card s).erases + 1 ∧
        (x.victim = true → s.flash.stalled = [] →
          (∀ y ∈ x.members, y.slot ≠ slot.val → (y.lost = true ∧ y.erase ≠ 1) ∨ y.erase = 2) →
          t.set? n = none ∧ ∀ y ∈ t.flash.sectors, y.set ≠ n)) ∧
      (∃ t, exec (.flashEraseDone n slot false) s = .next t ∧ key ∈ t.flash.bad) ∧
      (∃ t, exec (.flashOpTimeout (.erase n slot)) s = .next t ∧ key ∈ t.flash.bad ∧ (card t).errTimeout = true) ∧
      ∃ t, exec (.erasePastHalfTime n slot) s = .next t ∧ t.flash.sets = s.flash.sets ∧ t.cmds = s.cmds ∧
        ∀ y ∈ s.flash.reads, ∀ x, s.sector? y.sector = some x → s.dieOf x = dieKey m.slot m.chan m.die →
          ∃ z ∈ t.flash.reads, z.id = y.id ∧ z.parity = true) ∧
    (∀ r x m, s.flash.reads.find? (fun r => r.id == n) = some r → s.sector? r.sector = some x → s.memberOf x = some m →
      (s.readRuns r = true → ∃ t, exec (.flashOpTimeout (.read n)) s = .next t ∧ (t.card m.slot).errTimeout = true) ∧
      (s.readRuns r = false → exec (.flashOpTimeout (.read n)) s = .next s)) ∧
    (∀ chan die, let i := Instr.flashOpTimeout (.command slot chan die)
      ((card s).powered = false → exec i s = .next s) ∧
      ((card s).powered = true → ∃ t, exec i s = .next t ∧ (card t).errTimeout = true ∧
        ((card s).state = 1 → (card t).state = 2 ∧ (card t).reject = 5 ∧ (card t).powered = false))) ∧
    (∀ op, ∃ t, exec (.flashOpAging op) s = .next t ∧ t.flash.sets = s.flash.sets ∧ t.flash.rows = s.flash.rows ∧
      t.flash.reads = s.flash.reads ∧ t.cmds = s.cmds ∧ Quiet s t ∧
      ∀ o ∈ s.flash.ops, o.ref = op → o.run = false → (∃ w ∈ s.wantedOps, w.ref = o.ref ∧ w.step = o.step) →
        ∃ p ∈ t.flash.ops, p.ref = op ∧ p.step = o.step ∧ p.qos = 7) ∧
    (∀ o, s.nextOp = some o → s.mayIssue o = true ∧ ∀ p ∈ s.flash.ops, s.mayIssue p = true → o.qos ≤ 7 → p.qos ≤ 7 →
      p.qos ≤ o.qos ∧ (p.qos = o.qos → o.rank ≤ p.rank)) ∧
    ((card s).serves = false → exec (.zqCalibration slot) s = .next s) ∧
    (∀ g, (card s).info = some g → (card s).serves = true → ∃ t, exec (.zqCalibration slot) s = .next t ∧
      t.flash = s.flash ∧ t.cmds = s.cmds ∧ Quiet s t ∧ ∀ ch < 8, ∀ ce ∈ g.ces, Tx.onfi slot ch (4 * ce) [0xF9] ∈ t.tx)

/-- 10 R343, R349, R352, R355, R356, R358, R362; 02 R43, R60, R62: a row with data is programmed at its timeout, once the blocks
of its set are erased. When every program of a row has succeeded each group takes effect: a write switches the map and is
answered, an append is durable and is answered, the commits of a page whose extent lists are in force and a trim record are
durable, and the last part of an extent list puts the list in force.
Model's choices in it: log entries 85, 86, 84. -/
def Obligations.DurableRows : Prop :=
  ∀ (s : State) (row : Nat) (r : Row) (x : StripeSet) (geo : CardInfo), s.row? row = some r → s.set? r.set = some x →
    s.geom = some geo →
    (r.issued = false → r.groups ≠ [] → s.modes.powerFail = false → ∃ t r', exec (.rowFillTimeout row) s = .next t ∧
      t.row? row = some r' ∧ r'.groups = r.groups ∧
      ((∀ m ∈ x.members, m.erase = 1 → m.lost = true) → r'.issued = true ∧ r'.base = s.flash.nextSector ∧
        r'.progs = (x.members.filter fun m => !m.lost).map (fun m => (m.slot, ProgState.outstanding))) ∧
      ((∃ m ∈ x.members, m.erase = 1 ∧ m.lost = false) → r'.due = true ∧ r'.issued = false) ∧ t.cmds = s.cmds ∧
      t.flash.sets = s.flash.sets ∧ t.flash.sectors = s.flash.sectors ∧ t.mem = s.mem ∧ Quiet s t) ∧
    (r.issued = true ∨ r.groups = [] → exec (.rowFillTimeout row) s = .next s) ∧
    (r.issued = false ∨ r.repair ≠ none ∨ r.progs = [] ∨ (∃ p ∈ r.progs, p.2 ≠ .done) → exec (.rowDurable row) s = .next s) ∧
    (∀ g, r.issued = true → r.repair = none → r.progs ≠ [] → (∀ p ∈ r.progs, p.2 = .done) → r.groups = [g] →
      (∀ y ∈ s.flash.sets, y.victim = false) → NoGroupWork s →
      let closed (t : State) : Prop := (∀ y ∈ t.flash.rows, y.id = r.id → y.groups = []) ∧ t.flash.sectors = s.flash.sectors ∧
        t.mem = s.mem
      (∀ tag c n, g.owner = .write tag → s.cmd? tag = some c → Live s c → c.pkt.opcode = 0x21 → c.launched = true →
        c.groups = [g.id] → c.verdict = none → c.placed = [] → s.overlapped c = false →
        s.ns? c.fn c.pkt.container = some n → (g.blocks.map Prod.fst).Nodup →
        (∀ y ∈ s.cmds, y.tag ≠ tag → y.pkt.opcode = 0x21 → y.groups ≠ []) →
        ∃ t, exec (.rowDurable row) s = .next t ∧ closed t ∧ Answered s t c .ok c.pkt.dataLen 0 0 ∧
          ∀ b ∈ g.blocks, (∀ e, n.map.look b.1 = some e → e.seq < c.dataSeq) → ((t.ns? c.fn c.pkt.container).bind fun n =>
            n.map.look b.1) = some (⟨r.base + b.2.1, b.2.2.1, b.2.2.2, c.dataSeq⟩ : MapEntry)) ∧
      (∀ tag c w, g.owner = .append tag → s.cmd? tag = some c → Live s c → c.groups = [g.id] →
        s.stream? c.fn c.pkt.stream = some w → w.state = .opened →
        ∃ t w', exec (.rowDurable row) s = .next t ∧ closed t ∧ Answered s t c .ok c.pkt.dataLen 0 0 ∧
          t.stream? c.fn c.pkt.stream = some w' ∧ ∀ p ∈ w'.parts, p.tag = tag → p.durable = true) ∧
      (∀ ids, g.owner = .commits ids → (∃ c ∈ s.commits, c.id ∈ ids ∧ c.phase = .paged ∧ c.pageDone = false) →
        ∃ t, exec (.rowDurable row) s = .next t ∧ closed t ∧
          t.commits = s.commits.map (fun c => if c.id ∈ ids then { c with
            pageDone := true, phase := if c.phase = .paged ∧ c.ver.fresh = none then .durable else c.phase } else c)) ∧
      (∀ tn sp oid ver part e l v, g.owner = .extents tn sp oid ver part → s.versionNamed tn sp oid ver = some v →
        v.fresh = some l → g.sectors.head? = some e → e.1.seq = l.seq → l.done.has part = false →
        let done := l.done.put part ((List.range g.sectors.length).map fun i => r.base + i)
        done.length = l.parts → ∃ t w, exec (.rowDurable row) s = .next t ∧ closed t ∧ t.versionNamed tn sp oid ver = some w ∧
          w.fresh = none ∧ w.list = done.vals.flatten) ∧
      (∀ id rec c lba n, g.owner = .record id → s.records.find? (fun r => r.id == id) = some rec → rec.durable = false →
        rec.kind = .trim lba n → s.cmd? rec.tag = some c → Live s c → c.left = 1 →
        ∃ t, exec (.rowDurable row) s = .next t ∧ closed t ∧ Answered s t c .ok 0 0 0 ∧
          ∀ ns, s.ns? rec.tenant rec.container = some ns →
            ⟨lba, n, rec.seq⟩ ∈ ((t.ns? rec.tenant rec.container).map Namespace.trims).getD []))

/-- 10 R336 to R343, R360, R364 to R366: card slots. An inserted card is identified, in a mode that powers cards: its slot gets
power and its record is read; a read that times out is tried again, and the third time rejects the card. A record or a card that
fails a check is rejected with the check's number; a card that passes comes Online, or Rebuilding while units of its slot are
lost, and is Online once they are restored; a removed, a taken Offline and a failed card leave service, and their units are lost.
Patrol marks a set; a victim's valid sectors are read.
Model's choices in it: log entries 87, 88. -/
def Obligations.Cards : Prop :=
  ∀ (s : State) (slot : Fin 24) (port : Port),
    let c := s.card slot
    let reads := (List.range 8).map fun k => Tx.i2cRead slot (0x50 + (Config.cardStrap slot).toNat) (64 * k) 64
    let gone (t : State) : Prop := ∀ x ∈ t.flash.sets, ∀ m ∈ x.members, m.slot = slot.val → m.lost = true
    (c.present = true → exec (.cardInserted slot) s = .next s) ∧
    (c.present = false → s.awake = true → s.modes.powerFail = false → ∃ t, exec (.cardInserted slot) s = .next t ∧
      (t.card slot).present = true ∧ (t.card slot).state = 1 ∧ (t.card slot).tries = 0 ∧ (t.card slot).powered = true ∧
      (c.powered = false → t.tx = s.tx ++ [.pin "CARD_PWR_EN" slot true] ++ reads) ∧ (c.powered = true → t.tx = s.tx ++ reads) ∧
      t.flash.sets = s.flash.sets ∧ t.cmds = s.cmds) ∧
    (c.present = false → (s.awake = false ∨ s.modes.powerFail = true) → ∃ t, exec (.cardInserted slot) s = .next t ∧
      t.card slot = { c with present := true } ∧ t.tx = s.tx ∧ t.flash.sets = s.flash.sets ∧ t.cmds = s.cmds) ∧
    (c.state ≠ 1 → exec (.i2cTimeout slot) s = .next s ∧ ∀ rep, exec (.cardIdentified slot rep) s = .next s) ∧
    (c.state = 1 → c.tries + 1 < 3 → ∃ t, ∃ k < 8, exec (.i2cTimeout slot) s = .next t ∧
      t.card slot = { c with tries := c.tries + 1 } ∧ t.flash.sets = s.flash.sets ∧ t.cmds = s.cmds ∧
      t.tx = s.tx ++ [.i2cRead slot (0x50 + (Config.cardStrap slot).toNat) (64 * k) 64]) ∧
    (c.state = 1 → 2 ≤ c.tries → ∃ t, exec (.i2cTimeout slot) s = .next t ∧ (t.card slot).state = 2 ∧ (t.card slot).reject = 1 ∧
      (t.card slot).errI2c = true ∧ (t.card slot).powered = false ∧ t.flash.sets = s.flash.sets ∧ t.cmds = s.cmds) ∧
    (∀ rep : CardReport, c.state = 1 →
      (∀ n, s.admitCard rep = .error n → ∃ t, exec (.cardIdentified slot rep) s = .next t ∧ (t.card slot).state = 2 ∧
        (t.card slot).reject = n ∧ (t.card slot).powered = false ∧ t.flash.sets = s.flash.sets ∧ t.cmds = s.cmds) ∧
      (∀ g rate, s.admitCard rep = .ok (g, rate) → ∃ t, exec (.cardIdentified slot rep) s = .next t ∧
        ((t.card slot).state = 3 ∨ (t.card slot).state = 4) ∧ (s.flash.sets = [] → (t.card slot).state = 3) ∧
        ((∃ x ∈ s.flash.sets, ∃ m ∈ x.members, m.slot = slot.val ∧ m.lost = true) → (t.card slot).state = 4) ∧
        (t.card slot).info = some g ∧ (t.card slot).rate = rate ∧ (t.card slot).trained = true ∧
        (t.card slot).known = g.serial ∧ t.flash.usable = t.goodBytes * 9 / 10)) ∧
    (∀ rep : CardReport, (rep.record = none → s.admitCard rep = .error 1) ∧
      (∀ b, rep.record = some b → b.length = 512 → fieldLe b 0 4 = 0x44434B56 → fieldLe b 4 2 = 1 → fieldLe b 6 2 = 512 →
        crcOk b 508 = false → s.admitCard rep = .error 3) ∧
      ∀ b, rep.record = some b → (b.length ≠ 512 ∨ fieldLe b 0 4 ≠ 0x44434B56 ∨ fieldLe b 4 2 ≠ 1 ∨ fieldLe b 6 2 ≠ 512) →
        s.admitCard rep = .error 2) ∧
    (c.present = false → exec (.cardRemoved slot) s = .next s) ∧
    (c.present = true → ∃ t, exec (.cardRemoved slot) s = .next t ∧ (t.card slot).present = false ∧ (t.card slot).state = 0 ∧
      (t.card slot).errRemoved = true ∧ (t.card slot).powered = false ∧ (c.serves = true → gone t)) ∧
    (s.mmio port = true →
      (c.serves = true → ∃ t, exec (.cardOffline port slot) s = .next t ∧ (t.card slot).state = 5 ∧ gone t) ∧
      (c.present = true → (c.state = 5 ∨ c.state = 6 ∨ c.state = 2) → ∃ t, exec (.cardRestore port slot) s = .next t ∧
        (t.card slot).state = 1 ∧ (t.card slot).tries = 0 ∧ (t.card slot).powered = true ∧ t.flash.sets = s.flash.sets ∧
        t.cmds = s.cmds)) ∧
    (s.mmio port = false → exec (.cardOffline port slot) s = .next s ∧ exec (.cardRestore port slot) s = .next s) ∧
    (c.state = 4 → s.regaining slot = false → ∃ t, exec (.cardRebuildComplete slot) s = .next t ∧ (t.card slot).state = 3 ∧
      t.flash.usable = t.goodBytes * 9 / 10 ∧ t.flash.sets = s.flash.sets) ∧
    (c.state ≠ 4 ∨ s.regaining slot = true → exec (.cardRebuildComplete slot) s = .next s) ∧
    (c.serves = true → ∃ t, exec (.xtsSelfCheckFailure slot) s = .next t ∧ (t.card slot).state = 6 ∧
      (t.card slot).powered = false ∧ gone t) ∧
    (∀ set step x, s.set? set = some x → ((∃ m ∈ x.members, m.slot = slot.val ∧ m.lost = false) →
        (s.retrySteps slot + 1) / 2 ≤ step → ∃ t, exec (.patrolRead set slot step) s = .next t ∧
          t.set? set = some { x with gcMark := true } ∧ t.flash.sectors = s.flash.sectors ∧ t.cmds = s.cmds) ∧
      (step < (s.retrySteps slot + 1) / 2 → exec (.patrolRead set slot step) s = .next s)) ∧
    (∀ (b : Fin 4) x, s.modes.running = true → s.modes.powerFail = false → s.gcVictim b = some x → s.set? x.no = some x →
      s.validOf x.no ≠ [] → ∃ t, exec (.gcStart b) s = .next t ∧ t.set? x.no = some { x with victim := true } ∧
        (∀ y ∈ s.validOf x.no, s.sector? y.id = some y → Reading t (.copy x.no) y.id) ∧ t.flash.sectors = s.flash.sectors ∧
        t.cmds = s.cmds) ∧
    (∀ (b : Fin 4), (s.modes.running = false ∨ s.modes.powerFail = true ∨ s.gcVictim b = none) → exec (.gcStart b) s = .next s)

/-! ## Programs and jobs -/

/-- 05 R163 to R165, R170 to R174, R198: PROGRAM_LOAD takes a valid image under a new handle and refuses another; PROGRAM_UNLOAD
takes it out; JOB_SUBMIT refuses a descriptor by the first check that fails, and otherwise opens a job in Loading with a context;
JOB_STATUS tells its state; JOB_CANCEL ends it.
Model's choices in it: log entries 101, 102, 103. -/
def Obligations.JobCommands : Prop :=
  ∀ (s : State) (tag : Nat) (c : Cmd),
    let b := c.data
    let id := c.pkt.fld 24 4
    (Turn s tag 0x70 c →
      (b.length < 64 ∨ fieldLe b 0 4 ≠ 0x47504B56 ∨ imageOk b = false →
        ∃ t, exec (.programLoad tag) s = .next t ∧ Answered s t c .programInvalid 0 0 0 ∧ KeepsData s t) ∧
      (imageOk b = true → s.slotRetained c.fn (fieldLe b 6 1) = false →
        let h := (((s.tenant c.fn).loads + 1) * 4 + fieldLe b 6 1) % 2 ^ 31
        ∃ t p, exec (.programLoad tag) s = .next t ∧ Answered s t c .ok h 0 0 ∧ KeepsData s t ∧
          (t.tenant c.fn).programs.look (fieldLe b 6 1) = some p ∧ p.handle = h ∧ p.codeLen = fieldLe b 8 4 ∧
          p.entrySlice = fieldLe b 24 4 ∧ p.stackLen = fieldLe b 20 4 ∧ p.code = (b.drop 64).take (fieldLe b 8 4))) ∧
    (Turn s tag 0x71 c →
      ((∀ p ∈ (s.tenant c.fn).programs, p.2.handle ≠ id) →
        ∃ t, exec (.programUnload tag) s = .next t ∧ Answered s t c .invalidField 0 0 0 ∧ KeepsData s t) ∧
      (∀ k p, (s.tenant c.fn).programs.find? (fun p => p.2.handle == id) = some (k, p) →
        ∃ t, exec (.programUnload tag) s = .next t ∧ Answered s t c .ok 0 0 0 ∧ KeepsData s t ∧
          (t.tenant c.fn).programs.look k = none)) ∧
    (Turn s tag 0x72 c →
      let d := jobDesc b
      (descLenOk b = false → ∃ t, exec (.jobSubmit tag) s = .next t ∧ Answered s t c .invalidBuffer 0 0 0 ∧ KeepsData s t) ∧
      (descLenOk b = true → s.descOk c.fn d b = false →
        ∃ t, exec (.jobSubmit tag) s = .next t ∧ Answered s t c .invalidField 0 0 0 ∧ KeepsData s t) ∧
      (s.submitCheck c d b = none → s.anyHeld (s.bankOf 1).toList = false → bitOf d.flags 1 = false → bitOf d.flags 4 = false →
        libParamsOk d = true → s.jobs.length < 262144 →
        (∀ i ∈ d.inputs, d.inputKind = 0 → ∃ v, s.resolve c.fn i.container i.oid i.versionSel = .ok v ∧ s.versionKeyed v 0 v.length = true) →
        ∃ t j x, exec (.jobSubmit tag) s = .next t ∧ t.jobs = s.jobs ++ [j] ∧ j.tag = tag ∧ j.tenant = c.fn ∧ j.st = .loading ∧
          j.desc.jobId = d.jobId ∧ j.ending = none ∧ s.job? j.slot = none ∧ some j.prog = s.programFor c.fn d.program ∧
          (d.inputKind = 0 → ∀ i ∈ j.desc.inputs, ∃ v, i.pin = some v ∧ i.version = v.version ∧ i.length = v.length) ∧
          x ∈ t.ctxs ∧ x.kind = .job j.slot ∧ x.tenant = c.fn ∧ x.handle = j.handle ∧
          (t.cmd? tag).map Cmd.launched = some true ∧ t.tx = s.tx ∧ t.held = s.held)) ∧
    (Turn s tag 0x73 c →
      (s.jobById c.fn id = none → ∃ t, exec (.jobStatus tag) s = .next t ∧ Answered s t c .streamUnknown 0 0 0 ∧ KeepsData s t) ∧
      (∀ j, s.jobById c.fn id = some j →
        ∃ t, exec (.jobStatus tag) s = .next t ∧ Answered s t c .ok j.st.num 0 j.done ∧ KeepsData s t)) ∧
    (Turn s tag 0x74 c →
      (s.jobById c.fn id = none → ∃ t, exec (.jobCancel tag) s = .next t ∧ Answered s t c .streamUnknown 0 0 0 ∧ KeepsData s t) ∧
      (∀ j, s.jobById c.fn id = some j → s.job? j.slot = some j → JobRuns s j.slot →
        ∃ t, exec (.jobCancel tag) s = .next t ∧ JobEnded t j.slot 1 .ok ∧
          (t.job? j.slot).map Job.cancelWait = some (j.cancelWait ++ [tag]) ∧ t.versions = s.versions ∧ t.commits = s.commits))

/-- 05 R166, R167, R172, R175 to R189, R195: slices. A Loading job whose table is here and for which there is room enters Running
and takes the lowest free device job slot. The job whose turn it is takes a buffer and a deque slot for its next slice and reads
it; no other job does; a job whose namespace has been deleted ends. A loaded slice is pushed, which wakes the Crumbs of its Loaf.
An idle Crumb takes an entry, scrubs for another tenant, and enters the program with the registers of R167. A thief takes entries
of one tenant from TOP, at most half of the victim's, and goes idle where there is no victim. A tenant turn that ends marks the
oldest entry of another tenant. A reduction step takes two partials. A slice that has used its budget is skipped or ends the job;
one inside a REP unit, or with budget left, goes on.
Model's choices in it: log entries 105, 107, 108, 110, 19, 152. -/
def Obligations.JobSlices : Prop :=
  ∀ (s : State) (slot : Nat) (crumb : Fin 1024), s.awake = true →
    let k := s.crumb crumb
    let takes (t : State) (e : Entry) (reducing : Bool) : Prop :=
      (t.crumb crumb).run = some e ∧ (t.crumb crumb).reducing = reducing ∧
      (k.lastTenant ≠ e.tenant → (t.crumb crumb).st = .scrubbing) ∧
      ∀ j, s.job? e.job = some j → k.lastTenant = e.tenant → (reducing = true ∨ j.desc.program < 2 ^ 31) →
        (t.crumb crumb).st = .running ∧ (t.crumb crumb).loaded = some j.slot ∧
        (reducing = false → SliceEntry (t.crumb crumb).core j e) ∧
        (reducing = true → (t.crumb crumb).core.pc = BitVec.ofNat 32 (j.prog.entryReduce.getD 0)) ∧
        (k.loaded ≠ some j.slot → (t.crumb crumb).store = Memory.write [] 0 (j.prog.code ++ j.prog.data))
    (∀ j, s.job? slot = some j → j.st = .loading → j.ending = none →
      (∀ p r, s.poolPlace j.batch j.poolNeed = some p → s.freeSlot = some r →
        (s.buf? (tableBuf slot)).all (fun b => b.left == 0 && b.coded.isNone) = true →
        ∃ t j', exec (.jobEnterRunning slot) s = .next t ∧ t.job? slot = some j' ∧ j'.pool = p ∧ j'.runSlot = r ∧ j'.st ≠ .loading ∧
          (j.allDone = false → j'.st = .running) ∧ j'.desc = j.desc ∧ t.cmds = s.cmds ∧ t.tx = s.tx ∧ t.crumbs = s.crumbs) ∧
      ((s.poolPlace j.batch j.poolNeed = none ∨ s.freeSlot = none ∨
          (s.buf? (tableBuf slot)).any (fun b => b.left != 0 || b.coded.isSome) = true) →
        exec (.jobEnterRunning slot) s = .next s)) ∧
    (∀ j, s.job? slot = some j → j.slot = slot →
      let issued (t : State) (id i off len : Nat) (data : List Byte) : Prop := ∃ b, b ∈ t.bufs ∧ b.id = id ∧ b.data = data ∧
        b.pushed = false ∧ b.entry.length = len ∧ b.entry.input = i ∧ b.entry.offset = off ∧ b.entry.slice = j.issued ∧
        b.entry.job = slot ∧ b.entry.tenant = j.tenant ∧ b.entry.jobSlot = j.runSlot
      (s.sliceReady j = false ∨ s.sliceTurn j = false → exec (.sliceReadIssue slot) s = .next s) ∧
      (s.sliceReady j = true → s.sliceTurn j = true →
        (∀ i off len rest v, j.slices = (i, off, len) :: rest → (j.desc.inputs[i]?).bind JobInput.pin = some v →
          (s.versionKeyed v off (off + len) = true → v.group = none →
            ∃ t id, exec (.sliceReadIssue slot) s = .next t ∧ issued t id i off len (s.versionBytes v off (off + len)) ∧
              (∀ x ∈ s.bufs, x.id ≠ id) ∧ t.prf.turn = j.runSlot ∧
              (t.job? slot).map (fun j => (j.issued, j.slices)) = some (j.issued + 1, rest) ∧ t.crumbs = s.crumbs ∧
              ∀ x ∈ v.sectorsAt off (off + len), (s.sector? x).isSome = true → Reading t (.slice id) x) ∧
          (s.versionKeyed v off (off + len) = false → JobRuns s slot →
            ∃ t, exec (.sliceReadIssue slot) s = .next t ∧ JobEnded t slot 2 .notPermitted)) ∧
        (∀ i, j.slices = [] → j.desc.inputs[j.nextInput]? = some i →
          (∀ n, s.ns? j.tenant i.container = some n →
            let upto := s.lbaEnd n i j.nextOff (j.desc.sliceKib * 1024)
            let secs := (lbaMapped n i j.nextOff upto).flatMap MapEntry.sectors
            s.keyedFor j.tenant secs = true → ∃ t id, exec (.sliceReadIssue slot) s = .next t ∧
              issued t id j.nextInput j.nextOff (upto - j.nextOff)
                (s.lbaBytes n (i.lba + j.nextOff / 4096) ((upto - j.nextOff) / 4096)) ∧ (∀ x ∈ s.bufs, x.id ≠ id) ∧
              (t.job? slot).map (fun j => (j.issued, j.total)) = some (j.issued + 1, j.total + 1) ∧ t.crumbs = s.crumbs ∧
              ∀ x ∈ secs, (s.sector? x).isSome = true → Reading t (.slice id) x) ∧
          (s.ns? j.tenant i.container = none → JobRuns s slot →
            ∃ t, exec (.sliceReadIssue slot) s = .next t ∧ JobEnded t slot 2 .containerUnknown)))) ∧
    (∀ b, s.buf? slot = some b → slot < 2 ^ 20 → b.left = 0 → b.coded = none → b.pushed = false →
      ∃ t n, exec (.slicePush slot) s = .next t ∧ (t.crumb n).deque = (s.crumb n).deque ++ [b.entry] ∧
        (t.buf? slot).map SliceBuf.pushed = some true ∧ (∀ m, m ≠ n → (t.crumb m).deque = (s.crumb m).deque) ∧
        (∀ m, (t.crumb m).run = (s.crumb m).run ∧ (t.crumb m).st = (s.crumb m).st) ∧
        (∀ m, m / 16 = n / 16 → (t.crumb m).asleep = false) ∧ t.jobs = s.jobs) ∧
    (∀ e rest j, k.st = .idle → s.ownEntry crumb = some (e, rest) → s.job? e.job = some j → j.slot = e.job →
      (j.desc.program < 2 ^ 31 ∨ k.lastTenant ≠ e.tenant) →
      ∃ t, exec (.sliceTake crumb) s = .next t ∧ (t.crumb crumb).deque = rest ∧ takes t e false) ∧
    (k.st ≠ .idle ∨ s.ownEntry crumb = none → exec (.sliceTake crumb) s = .next s) ∧
    (∀ e j, k.st = .scrubbing → k.run = some e → s.job? e.job = some j → (k.reducing = true ∨ j.desc.program < 2 ^ 31) →
      ∃ t, exec (.scrubDone crumb) s = .next t ∧ (t.crumb crumb).st = .running ∧ (t.crumb crumb).run = some e ∧
        (k.reducing = false → SliceEntry (t.crumb crumb).core j e ∧ (t.crumb crumb).lastTenant = e.tenant) ∧
        (k.reducing = true → (t.crumb crumb).core.pc = BitVec.ofNat 32 (j.prog.entryReduce.getD 0) ∧
          (t.crumb crumb).lastTenant = j.tenant) ∧
        (t.crumb crumb).store = Memory.write [] 0 (j.prog.code ++ j.prog.data)) ∧
    (∀ j, s.job? slot = some j → j.desc.reduceOp = 6 → 2 ≤ j.partials.length → j.ending = none → s.reducing slot = false →
      k.st = .idle → j.slot = slot → s.reduceCrumb crumb j = true →
      ∃ t e, exec (.reductionStep slot crumb) s = .next t ∧ e.job = slot ∧ e.tenant = j.tenant ∧ takes t e true) ∧
    (∀ level v, k.st = .idle → k.asleep = false → s.ownEntry crumb = none → s.findVictim crumb = some (level, v) →
      let d := (s.crumb v).deque
      ∃ t n, exec (.steal crumb) s = .next t ∧ n ≤ d.length / 2 ∧ n ≤ 32 - k.deque.length ∧ (t.crumb v).deque = d.drop n ∧
        (t.crumb crumb).deque = k.deque ++ d.take n ∧ (∀ e ∈ d.take n, some e.tenant = d.head?.map Entry.tenant) ∧
        t.jobs = s.jobs ∧ t.bufs = s.bufs ∧ Counted s t .prfCnt level) ∧
    (k.st = .idle → k.asleep = false → s.ownEntry crumb = none → s.findVictim crumb = none →
      exec (.steal crumb) s = .next (s.modCrumb crumb fun k => { k with asleep := true })) ∧
    (∀ e, k.online = true → k.lastTenant ≠ 0 → k.deque.find? (fun e => e.tenant != k.lastTenant) = some e →
      exec (.tenantTurnExpiry crumb) s = .next (s.modCrumb crumb fun k => { k with turnOver := some (e.job, e.slice) })) ∧
    (∀ e j, k.run = some e → s.job? e.job = some j → j.slot = e.job → k.st = .running →
      (s.spent (.crumb crumb) = true → k.core.inUnit = false →
        (bitOf j.desc.flags 3 = true → k.reducing = false → k.retiring = false → ∃ t, exec (.budgetExhausted crumb) s = .next t ∧
          (t.crumb crumb).st = .idle ∧ (t.crumb crumb).run = none ∧ (∀ b ∈ t.bufs, b.id ≠ e.buf) ∧
          (t.job? e.job).map Job.skipped = some (j.skipped + 1)) ∧
        (bitOf j.desc.flags 3 = false ∨ k.reducing = true → JobRuns s e.job → ∃ t, exec (.budgetExhausted crumb) s = .next t ∧
          JobEnded t e.job 2 .budgetExhausted)) ∧
      (s.spent (.crumb crumb) = false ∨ k.core.inUnit = true → exec (.budgetExhausted crumb) s = .next s))

/-- 03 R109; 04 R132; 05 R177, R191, R192, R194, R196, R197: jobs that end and Crumbs that fail. A time limit ends a job with its
status; a Finishing job posts its partial, its summary and its reply, and leaves; a Crumb whose watchdog fires is reset, and its
slice and its deque go to other Crumbs; a self-test brings a Crumb back or retires it.
Model's choices in it: log entries 109, 111, 150. -/
def Obligations.JobEnds : Prop :=
  ∀ (s : State) (slot : Nat) (j : Job) (crumb : Fin 1024) (port : Port), s.job? slot = some j → j.slot = slot →
    let k := s.crumb crumb
    (JobRuns s slot →
      (j.st ≠ .finishing → ∃ t, exec (.jobTimeout slot) s = .next t ∧ JobEnded t slot 2 .jobTimeout ∧ t.versions = s.versions) ∧
      ((s.tenant j.tenant).state = .stopped → NoGroupWork s → ∃ t, exec (.stopJobTimeout slot) s = .next t ∧ JobEnded t slot 1 .quiesced) ∧
      (s.modes.mode = .quiesce → NoGroupWork s → ∃ t, exec (.quiesceJobTimeout slot) s = .next t ∧ JobEnded t slot 1 .quiesced)) ∧
    (j.st = .finishing → exec (.jobTimeout slot) s = .next s) ∧
    ((s.tenant j.tenant).state ≠ .stopped → exec (.stopJobTimeout slot) s = .next s) ∧
    (s.modes.mode ≠ .quiesce → exec (.quiesceJobTimeout slot) s = .next s) ∧
    (∀ c, j.st = .finishing → s.awake = true → (j.ending.isSome = true ∨ bitOf j.desc.flags 1 = false ∨ j.outPhase = 3) →
      s.cmd? j.tag = some c → Live s c → (∀ x ∈ s.cmds, x.tag = j.tag → x = c) → c.pkt.opcode = 0x72 →
      s.usable j.port j.tenant = true → j.cancelWait = [] → NoGroupWork s →
      let e := j.ending.getD (0, .ok)
      ∃ t, exec (.jobFinish slot) s = .next t ∧ (∀ y ∈ t.jobs, y.slot ≠ slot) ∧ (∀ x ∈ t.ctxs, x.kind ≠ .job slot) ∧
        (e.2 = .ok → Answered s t c .ok j.desc.jobId j.bytesOut j.done) ∧ (e.2 ≠ .ok → Answered s t c e.2 0 0 0) ∧
        (j.desc.summaryAddr ≠ 0 → ∃ d, Sends s t (.hostWrite j.port j.tenant j.desc.summaryAddr d) ∧ d.length = 64 ∧
          d.take 56 = (j.summary e.1 e.2 0).take 56) ∧
        (bitOf j.desc.flags 2 = true → e.1 = 0 → j.reduced ≠ [] →
          Sends s t (.hostWrite j.port j.tenant j.desc.reduceAddr j.reduced))) ∧
    (k.st = .running → ∃ t, exec (.crumbWatchdog crumb) s = .next t ∧ (t.crumb crumb).st = .recovering ∧
      (t.crumb crumb).run = none ∧ (t.crumb crumb).store = [] ∧ (t.crumb crumb).core = Core.init ∧
      (∀ e, k.run = some e → k.reducing = false → ∃ n, { e with attempt := e.attempt + 1 } ∈ (t.crumb n).deque) ∧
      (∀ e ∈ k.deque, ∃ n, e ∈ (t.crumb n).deque) ∧ t.jobs = s.jobs) ∧
    (k.st = .recovering → (∃ t, exec (.crumbSelfTestEnd crumb false) s = .next t ∧ (t.crumb crumb).st = .retired) ∧
      ∃ t, exec (.crumbSelfTestEnd crumb true) s = .next t ∧ (t.crumb crumb).st = .idle) ∧
    (s.mmio port = true → (s.latch port 0 .bar0).write = none →
      (k.st = .idle → ∃ t, exec (.crumbRetire port crumb) s = .next t ∧ (t.crumb crumb).st = .retired ∧
        ∀ e ∈ k.deque, ∃ n, e ∈ (t.crumb n).deque) ∧
      (k.st = .running → ∃ t, exec (.crumbRetire port crumb) s = .next t ∧ (t.crumb crumb).st = .running ∧
        (t.crumb crumb).retiring = true ∧ (t.crumb crumb).run = k.run) ∧
      (k.st = .retired → ∃ t, exec (.crumbRestore port crumb) s = .next t ∧ (t.crumb crumb).st = .recovering ∧
        (t.crumb crumb).store = [] ∧ (t.crumb crumb).core = Core.init))

/-! ## Digest engines, Rollers, the Sieve, package memory -/

/-- 03 R91; 08 R274 to R287: DIGEST_DIRECT and DIGEST_RAW enter a message, a segment of a digest stream behind the segments
accepted before it; a block taken advances it, and the last one ends a direct message with the digest of its bytes at RESULT_ADDR
or in the result slot, a raw one with its state; a message without bytes ends with its context; contexts are granted in order of
arrival, idled and checkpointed; a wait limit fails the command with DIGEST_BUSY and a core's DGO; an engine with an alarm or
retired gives its messages to others.
Model's choices in it: log entries 120, 119, 122, 140. -/
def Obligations.DigestEngines : Prop :=
  ∀ (s : State) (tag id : Nat) (c : Cmd) (eng : Fin 4) (port : Port),
    (∀ m ∈ s.digests.msgs, m.resident = true → m.asks = true → ∃ k h, m.owner = .crumb k h) →
    let a := c.pkt.direct
    let e := s.engine eng
    let granted (x : Nat) : Prop := s.waiters x = [] ∧ (s.engine x).st = 1 ∧ ((s.resident x).length < 64 ∨ (s.idlest x).isSome = true)
    let result (t : State) (d : List Byte) : Prop := Answered s t c .ok 0 0 0 ∧
      (a.result ≠ 0 → d ≠ [] → Sends s t (.hostWrite c.port c.fn a.result d)) ∧
      (a.result = 0 → ((t.fp c.port c.fn).results.look (c.qid * 8 + c.pkt.cid % 8)).map ResultSlot.digest = some (padTo d 64))
    let launched (t : State) : Prop := (t.cmd? tag).map Cmd.launched = some true ∧ t.tx = s.tx ∧ KeepsData s t
    (Turn s tag 0x90 c → a.first = true → s.ctxAllowed c.fn = true → s.hmacOk c = true →
      (a.last = true → c.data = [] → a.hm = false → s.usable c.port c.fn = true → (∀ m ∈ s.digests.msgs, m.id ≠ s.digests.nextMsg) →
        granted s.chooseEngine → ∃ t, exec (.digestDirect tag) s = .next t ∧ result t (algDigest a.alg [])) ∧
      (a.last = true → c.data = [] → ¬granted s.chooseEngine → ∃ t m, exec (.digestDirect tag) s = .next t ∧ m ∈ t.digests.msgs ∧
        m.owner = .direct tag ∧ m.total = 0 ∧ m.asks = true ∧ m.resident = false ∧ launched t) ∧
      (a.last = true → c.data ≠ [] → ∃ t m, exec (.digestDirect tag) s = .next t ∧ m ∈ t.digests.msgs ∧ m.owner = .direct tag ∧
        m.total = c.data.length ∧ m.fed = 0 ∧ launched t) ∧
      (a.last = false → c.data ≠ [] → ∃ t m x, exec (.digestDirect tag) s = .next t ∧ m ∈ t.digests.msgs ∧ x ∈ t.ctxs ∧
        m.owner = .stream x.handle ∧ x.tenant = c.fn ∧ x.kind = .digest ⟨a.alg, a.hm, a.key, m.engine, []⟩ ∧
        m.total = c.data.length ∧ m.fed = 0 ∧ launched t)) ∧
    (Turn s tag 0x90 c → a.first = false → (s.segmentBefore c = true → exec (.digestDirect tag) s = .next s) ∧
      (∀ m, s.segmentBefore c = false → s.hmacOk c = true → c.data ≠ [] → s.streamMsg c.pkt.stream = some m → s.msg? m.id = some m →
        ∃ t, exec (.digestDirect tag) s = .next t ∧ (t.msg? m.id).map DigestMsg.total = some (m.total + c.data.length) ∧ launched t)) ∧
    (Turn s tag 0x90 c → a.hm = true → (s.tenantKey c.fn a.key 1).isNone = true →
      ((a.first = false ∧ s.segmentBefore c = false) ∨ (a.first = true ∧ s.ctxAllowed c.fn = true)) →
      ∃ t, exec (.digestDirect tag) s = .next t ∧ Answered s t c .notPermitted 0 0 0 ∧ KeepsData s t) ∧
    (Turn s tag 0xFD c → s.ctxAllowed 0 = true →
      let alg := bitsOf c.pkt.aux 2 0
      (zeroAt c.data (stateLen alg) (256 - stateLen alg) = false →
        ∃ t, exec (.digestRaw tag) s = .next t ∧ Answered s t c .invalidField 0 0 0 ∧ KeepsData s t) ∧
      (zeroAt c.data (stateLen alg) (256 - stateLen alg) = true → 256 < c.data.length →
        ∃ t m, exec (.digestRaw tag) s = .next t ∧ m ∈ t.digests.msgs ∧ m.owner = .raw tag ∧ m.total = c.data.length - 256 ∧
          m.engine = s.nextOnline (c.pkt.fld 24 1) ∧ launched t)) ∧
    (∀ m, s.msg? id = some m → m.engine = eng.val → m.resident = true → m.busy = true → m.fed < m.total →
      (∀ k, s.msgCmd m = some k → k.want = .nothing) →
      let n := min (s.msgBlock m) (m.total - m.fed)
      let alg := bitsOf c.pkt.aux 2 0
      (m.fed + n < m.total → ∃ t, exec (.digestBlockDone eng id) s = .next t ∧ t.cmds = s.cmds ∧ t.tx = s.tx ∧ KeepsData s t ∧
        (t.msg? id).map (fun m => (m.fed, m.sinceGrant, m.sinceCheck, m.busy)) =
          some (m.fed + n, m.sinceGrant + n, m.sinceCheck + n, true)) ∧
      (m.fed + n = m.total → m.owner = .direct tag → s.cmd? tag = some c → Live s c → a.last = true → a.hm = false →
        s.usable c.port c.fn = true → ∃ t, exec (.digestBlockDone eng id) s = .next t ∧ result t (algDigest a.alg c.data) ∧
          ∀ x ∈ t.digests.msgs, x.id ≠ id) ∧
      (m.fed + n = m.total → m.owner = .raw tag → s.cmd? tag = some c → Live s c → s.usable c.port c.fn = true →
        let from' := if bitOf c.pkt.aux 3 then initState alg else c.data.take (stateLen alg)
        ∃ t, exec (.digestBlockDone eng id) s = .next t ∧ Answered s t c .ok ((c.data.length - 256) / algBlock alg) 0 0 ∧
          Sends s t (.hostWrite c.port c.fn (c.pkt.fld 32 8) (padTo (rawBlocks alg from' (c.data.drop 256)) 200)))) ∧
    (∀ m rest, s.waiters eng = m :: rest → e.st = 1 → (s.resident eng).length < 64 → s.msg? m.id = some m →
      (m.fed < m.total → ∃ t, exec (.digestContextGrant eng) s = .next t ∧
        (t.msg? m.id).map (fun m => (m.resident, m.busy)) = some (true, true) ∧ t.cmds = s.cmds ∧ KeepsData s t) ∧
      (m.fed = m.total → m.owner = .direct tag → s.cmd? tag = some c → Live s c → a.last = true → a.hm = false → c.data = [] →
        s.usable c.port c.fn = true → ∃ t, exec (.digestContextGrant eng) s = .next t ∧ result t (algDigest a.alg []))) ∧
    (∀ m, s.msg? id = some m → m.engine = eng.val → m.resident = true → m.busy = true → s.waiters eng ≠ [] →
      s.regBits .dgCfg 0 23 16 * 1024 ≤ m.sinceGrant → ∃ t, exec (.digestQuantumExpiry eng id) s = .next t ∧
        (t.msg? id).map (fun m => (m.busy, m.resident, m.fed)) = some (false, true, m.fed) ∧ t.cmds = s.cmds ∧ KeepsData s t) ∧
    (∀ m, s.msg? id = some m → m.waits = true →
      (s.msgCmd m = some c → Live s c → s.cmd? c.tag = some c →
        ∃ t, exec (.digestWaitTimeout id) s = .next t ∧ Answered s t c .digestBusy 0 0 0 ∧ KeepsData s t) ∧
      (∀ k h, m.owner = .crumb k h → (∀ d ∈ (s.core k).digests, d.handle ≠ h) → ∃ t, exec (.digestWaitTimeout id) s = .next t ∧
        (t.msg? id).map DigestMsg.expired = some true ∧ t.cmds = s.cmds ∧ t.tx = s.tx ∧ KeepsData s t)) ∧
    (∀ m, s.msg? id = some m → m.resident = true → 262144 ≤ m.sinceCheck → ∃ t, exec (.digestCheckpoint id) s = .next t ∧
      (t.msg? id).map (fun x => (x.sinceCheck, x.check, x.checkRec)) = some (0, m.fed, some (s.midstateOf m)) ∧ t.cmds = s.cmds ∧
      t.tx = s.tx ∧ ∀ h w, m.owner = .stream h → s.stream? c.fn h = some w →
        t.stream? c.fn h = some { w with checkpoint := m.fed }) ∧
    (∀ cause : Fin 4, e.st = 1 → ∃ t, exec (.digestAlarm eng cause) s = .next t ∧ (t.engine eng).st = 2 ∧
      (t.engine eng).alarm = e.alarm ||| (1#4 <<< cause.val) ∧ ∀ m ∈ t.digests.msgs, m.engine ≠ eng.val) ∧
    (e.st = 2 → (∃ t, exec (.digestSelfTestEnd eng true) s = .next t ∧ (t.engine eng).st = 1) ∧
      ∃ t, exec (.digestSelfTestEnd eng false) s = .next t ∧ (t.engine eng).st = 3) ∧
    (s.mmio port = true → (s.latch port 0 .bar0).write = none →
      (e.st = 1 → ∃ t, exec (.digestRetire port eng) s = .next t ∧ (t.engine eng).st = 3 ∧ ∀ m ∈ t.digests.msgs, m.engine ≠ eng.val) ∧
      (e.st = 3 → ∃ t, exec (.digestRestore port eng) s = .next t ∧ (t.engine eng).st = 2))

/-- 07 R247 to R263, R269, R270: Roller jobs. A job submitted takes the lowest free entry of its Loaf's ring, or waits while it is
full; a descriptor out of range takes none. A compressor writes a bucket that decodes to its block, and the bucket's code, at the
block's place or behind the bucket before it; a decompressor writes the block, or ends the job with the error; the last block ends
a job. A thief takes the last half of a job. A half that fails, fails its test or is retired leaves service.
01 R17 to R19; 07 R248, R254, R264 to R268: COMPRESS_DIRECT and DECOMPRESS_DIRECT submit a job for their staged data,
DECOMPRESS_DIRECT once its stream passes the checks of R266 and its output is long enough. The last block of a compress job writes
a stream that passes those checks and decodes to the blocks it was made of; a decompress job writes its blocks up to the first one
that does not decode. A stored block that decodes is no longer waited for; one that does not is an error of its pair.
Model's choices in it: log entries 94, 95, 96, 97, 153, 156. -/
def Obligations.Rollers : Prop :=
  (
    ∀ (s : State) (pair : Fin 64) (comp : Bool) (port : Port),
      let p := pair.val
      let ended (t : State) (i : Nat) : Prop := t.rjob? (64 * p + i) = none
      (∀ desc, s.awake = true → (s.roller p).half ((rollerDesc desc).kind == 1) ≠ .retired →
        ((s.roller p).freeEntry = none → exec (.rollerJobSubmit pair desc) s = .next s) ∧
        ∀ i, (s.roller p).freeEntry = some i →
          (rollerDescOk desc = true → ∃ t, exec (.rollerJobSubmit pair desc) s = .next t ∧
            t.rjob? (64 * p + i) = some (newRollerJob (rollerDesc desc) s.rolls.order) ∧ t.rolls.order = s.rolls.order + 1 ∧
            t.mem = s.mem ∧ t.tx = s.tx) ∧
          (rollerDescOk desc = false → s.rolls.waits = [] → ∃ t, exec (.rollerJobSubmit pair desc) s = .next t ∧ ended t i)) ∧
      (∀ i j, s.halfOn p true = true → (s.roller p).oldest true = some (i, j) → (s.roller p).ring.look i = some j → i < 64 →
        (j.owner = .firmware →
          let r := s.memRead (j.desc.inAddr + 4096 * j.next) 4096
          let writes (t : State) (place : Nat) (bucket : List Byte) (code : Nat) : Prop :=
            decodeBlock code bucket = .ok r.bytes ∧ bucket.length = bucketKib code * 1024 ∧
            t.mem = ((r.st.memWrite place bucket).memWrite (j.desc.mapAddr + j.next) (leBytes 1 code)).mem
          r.poison = false →
          (j.desc.layout ≠ 1 → j.finished + 1 ≠ j.desc.blocks → ∃ t code bucket, exec (.rollerBlockCode pair true) s = .next t ∧
            writes t (j.desc.outAddr + 4096 * j.next) bucket code ∧
            (t.rjob? (64 * p + i)).map (fun j => (j.todo, j.finished)) = some (j.todo.drop 1, j.finished + 1)) ∧
          (j.desc.layout = 1 → j.finished + 1 ≠ j.desc.blocks → j.used + 4096 ≤ j.bufLen →
            ∃ t code bucket, exec (.rollerBlockCode pair true) s = .next t ∧ writes t (j.buf + j.used) bucket code ∧
            (t.rjob? (64 * p + i)).map (fun j => (j.todo, j.finished, j.used)) =
              some (j.todo.drop 1, j.finished + 1, j.used + bucket.length)) ∧
          (j.desc.layout ≠ 1 → j.finished + 1 = j.desc.blocks → s.rolls.waits = [] →
            ∃ t, exec (.rollerBlockCode pair true) s = .next t ∧ ended t i)) ∧
        (j.owner ≠ .firmware → j.finished + 1 ≠ j.desc.blocks → ∃ t, exec (.rollerBlockCode pair true) s = .next t ∧
          (t.rjob? (64 * p + i)).map (fun j => (j.todo, j.finished)) = some (j.todo.drop 1, j.finished + 1) ∧ t.mem = s.mem ∧
          t.cmds = s.cmds)) ∧
      (∀ i j, s.halfOn p false = true → (s.roller p).oldest false = some (i, j) → (s.roller p).ring.look i = some j → i < 64 →
        j.owner = .firmware → j.desc.layout ≠ 1 →
        let m := s.memRead (j.desc.mapAddr + j.next) 1
        let code := leNat m.bytes
        let r := m.st.memRead (j.desc.inAddr + 4096 * j.next) (bucketKib code * 1024)
        m.poison = false → r.poison = false →
        (∀ b, code ≤ 3 → decodeBlock code r.bytes = .ok b →
          (j.finished + 1 ≠ j.desc.blocks →
            ∃ t, exec (.rollerBlockCode pair false) s = .next t ∧ t.mem = (r.st.memWrite (j.desc.outAddr + 4096 * j.next) b).mem ∧
              (t.rjob? (64 * p + i)).map (fun j => (j.todo, j.finished)) = some (j.todo.drop 1, j.finished + 1)) ∧
          (j.finished + 1 = j.desc.blocks → s.rolls.waits = [] →
            ∃ t, exec (.rollerBlockCode pair false) s = .next t ∧ ended t i)) ∧
        (∀ e, (if code > 3 then .error .badCode else decodeBlock code r.bytes) = .error e → s.rolls.waits = [] →
          ∃ t, exec (.rollerBlockCode pair false) s = .next t ∧ ended t i ∧ (t.roller p).errNew = true ∧
            (t.roller p).errSlot = 64 * p + i ∧ (t.roller p).errBlock = j.next ∧ (t.roller p).errCode = e.codes.2)) ∧
      (∀ q level i j, s.halfOn p true = true → (s.roller p).hasWork true = false → s.rollerVictim p = some (q, level) →
        greatestBy ((s.roller q).ring.filter fun e => e.2.stealable && decide (e.2.unstarted > 0)) (fun e => e.2.order) = some (i, j) →
        (s.roller q).ring.look i = some j → i < 64 →
        let n := max (j.todo.length / 2) (if s.halfOn q true then 0 else 1)
        n ≠ 0 → ∃ t, exec (.rollerSteal pair) s = .next t ∧
          (t.rjob? (64 * q + i)).map RollerJob.todo = some (j.todo.take (j.todo.length - n)) ∧
          (t.roller p).stolen = (s.roller p).stolen ++ [⟨64 * q + i, j.todo.drop (j.todo.length - n)⟩] ∧ t.mem = s.mem ∧
          Counted s t .rlrCnt (5 + level)) ∧
      (∀ slot j, s.rjob? slot = some j → j.waiting = true →
        (s.rolls.waits = [] → ∃ t, exec (.outWaitTimeout slot) s = .next t ∧ t.rjob? slot = none) ∧
        (s.mmio port = true → (s.latch port 0 .bar0).write = none → slot < 4096 →
          ∃ t, exec (.rlrResume port slot) s = .next t ∧ (t.rjob? slot).map RollerJob.waiting = some false ∧ t.mem = s.mem)) ∧
      (s.halfOn p comp = true → (s.roller p).hasWork comp = true →
        ∃ t, exec (.rollerWatchdog pair comp) s = .next t ∧ (t.roller p).half comp = .recovering) ∧
      ((s.roller p).half comp = .recovering →
        (∃ t, exec (.rollerSelfTestEnd pair comp true) s = .next t ∧ (t.roller p).half comp = .idle) ∧
        ∃ t, exec (.rollerSelfTestEnd pair comp false) s = .next t ∧ (t.roller p).half comp = .retired) ∧
      (s.mmio port = true → (s.latch port 0 .bar0).write = none →
        (s.halfOn p true = true → ∃ t, exec (.retireC port pair) s = .next t ∧ (t.roller p).stC = .retired) ∧
        (s.halfOn p false = true → ∃ t, exec (.retireD port pair) s = .next t ∧ (t.roller p).stD = .retired) ∧
        ((s.roller p).stC = .retired → ∃ t, exec (.restoreC port pair) s = .next t ∧ (t.roller p).stC = .recovering) ∧
        ((s.roller p).stD = .retired → ∃ t, exec (.restoreD port pair) s = .next t ∧ (t.roller p).stD = .recovering))) ∧
  (
    ∀ (s : State) (tag : Nat) (c : Cmd),
      let b := c.data
      let k := fieldLe b 6 2
      let submits (t : State) (kind target blocks : Nat) (input : List (Nat × List Byte)) : Prop :=
        (∃ j, Submitted t j ∧ j.owner = .direct tag ∧ j.desc.kind = kind ∧ j.desc.target = target ∧ j.desc.blocks = blocks ∧
          j.input = input ∧ j.todo = List.range blocks ∧ j.finished = 0 ∧ j.out = []) ∧
        (t.cmd? tag).map Cmd.launched = some true ∧ t.tx = s.tx ∧ t.held = s.held ∧ t.mem = s.mem ∧ t.flash = s.flash
      (Turn s tag 0x91 c → ∃ t, exec (.compressDirect tag) s = .next t ∧
        submits t 1 (c.pkt.fld 36 1) (chunks 4096 b).length ((chunks 4096 b).map fun x => (3, x))) ∧
      (Turn s tag 0x92 c →
        (streamOk b = false → ∃ t, exec (.decompressDirect tag) s = .next t ∧ Answered s t c .rollBadCode 0 0 0 ∧ KeepsData s t) ∧
        (streamOk b = true → c.pkt.fld 32 4 < 4096 * k →
          ∃ t, exec (.decompressDirect tag) s = .next t ∧ Answered s t c .invalidBuffer 0 0 0 ∧ KeepsData s t) ∧
        (streamOk b = true → 4096 * k ≤ c.pkt.fld 32 4 →
          ∃ t, exec (.decompressDirect tag) s = .next t ∧
            submits t 2 0 k (streamBuckets (mapCodes (fieldLe b 16 64) k) (b.drop 80))))) ∧
  (
    ∀ (s : State) (pair : Fin 64) (tag i : Nat) (j : RollerJob) (c : Cmd), s.rolls.waits = [] → i < 64 →
      (s.roller pair).ring.look i = some j →
      let out (t : State) (st : Status) (b : List Byte) : Prop :=
        (b ≠ [] → Sends s t (.hostWrite c.port c.fn (c.pkt.fld 24 8) b)) ∧ Answered s t c st (if st = .ok then b.length else 0) 0 0
      (s.cmd? tag = some c → Live s c → s.usable c.port c.fn = true → j.owner = .direct tag →
        (s.halfOn pair true = true → (s.roller pair).oldest true = some (i, j) → j.finished + 1 = j.desc.blocks →
          1 ≤ j.input.length → j.input.length ≤ 255 → (∀ x ∈ j.input, x.2.length = 4096) → 1 ≤ j.desc.target → j.desc.target ≤ 4 →
          ∃ t b, exec (.rollerBlockCode pair true) s = .next t ∧ out t .ok b ∧ streamOk b = true ∧
            (streamBuckets (mapCodes (fieldLe b 16 64) (fieldLe b 6 2)) (b.drop 80)).map (fun x => decodeBlock x.1 x.2) =
              j.input.map fun x => .ok x.2) ∧
        (s.halfOn pair false = true → (s.roller pair).oldest false = some (i, j) →
          let x := j.input.getD j.next (3, [])
          (∀ b, decodeBlock x.1 x.2 = .ok b → j.finished + 1 ≠ j.desc.blocks →
            ∃ t, exec (.rollerBlockCode pair false) s = .next t ∧ t.cmds = s.cmds ∧ t.mem = s.mem ∧
              (t.rjob? (64 * pair + i)).map (fun j => (j.todo, j.finished, j.out)) =
                some (j.todo.drop 1, j.finished + 1, j.out ++ [b])) ∧
          (∀ b, decodeBlock x.1 x.2 = .ok b → j.finished + 1 = j.desc.blocks →
            ∃ t, exec (.rollerBlockCode pair false) s = .next t ∧ out t .ok (j.out ++ [b]).flatten) ∧
          (∀ e, decodeBlock x.1 x.2 = .error e → ∃ t, exec (.rollerBlockCode pair false) s = .next t ∧
            out t e.codes.1 j.out.flatten ∧ (t.roller pair).errNew = true ∧ (t.roller pair).errCode = e.codes.2))) ∧
      (s.halfOn pair false = true → (s.roller pair).oldest false = some (i, j) → j.finished + 1 = j.desc.blocks →
        (∀ buf x, j.owner = .slice buf → s.buf? buf = some x → ∃ t, exec (.rollerBlockCode pair false) s = .next t ∧
          ((t.roller pair).errNew = true ∨ (t.buf? buf).map SliceBuf.coded = some none)) ∧
        (∀ idx, j.owner = .read tag idx → ∃ t, exec (.rollerBlockCode pair false) s = .next t ∧
          ((t.roller pair).errNew = true ∨ ∀ y, t.cmd? tag = some y → ∀ q ∈ y.coded, q.idx ≠ idx))))

/-- 09 R303 to R307, R318 to R323, R329 to R331: the Sieve. A tenant's entry takes the lowest free number of its region and only
that place changes; INDEX names it for removal and reading; a lookup answers the winning entry or 0xFFFFFFFF; SIEVE_ADMIN does the
same in a bank of the device; an error that cannot be mended holds its bank until the entry is rewritten.
Model's choices in it: log entries 125, 132. -/
def Obligations.SieveCommands : Prop :=
  ∀ (s : State) (tag : Nat) (c : Cmd),
    let r := (s.tenant c.fn).region
    let i := c.pkt.fld 24 4
    let b := c.pkt.fld 24 1
    let k := s.bank b
    let n := c.pkt.fld 28 4
    let op := bitsOf c.pkt.aux 2 0
    let others (t : State) (p : Nat) : Prop := ∀ q, q < s.privCap → q ≠ p → t.privEntry q = s.privEntry q
    (s.anyHeld s.privBanks = false → r.1 + r.2 ≤ s.privCap →
      (Turn s tag 0xA0 c →
        (tenantEntryOk c.data = false → ∃ t, exec (.sieveInsert tag) s = .next t ∧ Answered s t c .invalidField 0 0 0 ∧ t.banks = s.banks) ∧
        (tenantEntryOk c.data = true → bitsOf (s.tenant c.fn).active.sieve.toNat 16 0 ≤ (s.privUsed c.fn).length →
          ∃ t, exec (.sieveInsert tag) s = .next t ∧ Answered s t c .sieveQuota 0 0 0 ∧ t.banks = s.banks) ∧
        (∀ x, tenantEntryOk c.data = true → (s.privUsed c.fn).length < bitsOf (s.tenant c.fn).active.sieve.toNat 16 0 →
          x < r.2 → s.privEntry (r.1 + x) = none → (∀ y < x, (s.privEntry (r.1 + y)).isSome = true) →
          ∃ t, exec (.sieveInsert tag) s = .next t ∧ Answered s t c .ok x 0 0 ∧
            t.privEntry (r.1 + x) = some (tenantEntry c.fn c.data) ∧ others t (r.1 + x))) ∧
      (Turn s tag 0xA1 c →
        (s.tenantIndex c.fn i = none → ∃ t, exec (.sieveRemove tag) s = .next t ∧ Answered s t c .invalidField 0 0 0 ∧ t.banks = s.banks) ∧
        (i < r.2 → (s.privEntry (r.1 + i)).isSome = true →
          ∃ t, exec (.sieveRemove tag) s = .next t ∧ Answered s t c .ok 0 0 0 ∧ t.privEntry (r.1 + i) = none ∧ others t (r.1 + i))) ∧
      (∀ e, Turn s tag 0xA3 c → i < r.2 → s.privEntry (r.1 + i) = some e → s.usable c.port c.fn = true →
        ∃ t, exec (.sieveRead tag) s = .next t ∧ Answered s t c .ok 0 0 0 ∧ Delivered s t c (entryBytes e) ∧ KeepsData s t) ∧
      (Turn s tag 0xA2 c →
        let key := sieveKey (c.pkt.body.take 38) c.fn 3
        (s.privLookup key = none → ∃ t, exec (.sieveLookup tag) s = .next t ∧ Answered s t c .ok 0xFFFFFFFF 0 0 ∧ KeepsData s t) ∧
        (∀ bank slot e, s.privLookup key = some (bank, slot, e) → e.matches key = true ∧
          ∃ t, exec (.sieveLookup tag) s = .next t ∧ KeepsData s t ∧
            Answered s t c .ok (s.privIndex bank slot - r.1) e.result.toNat 0))) ∧
    (Turn s tag 0xFF c → k.held = false → k.use ≠ 0 →
      (op = 0 → k.use ≠ 3 → adminEntryOk k.use.toNat c.data = true → k.longest = false → n ≠ 0xFFFFFFFF → n < 65536 →
        k.entries.look n = none → k.entries.length < 65536 → ∃ t, exec (.sieveAdminInsert tag) s = .next t ∧
          Answered s t c .ok (b * 65536 + n) 0 0 ∧ (t.bank b).entries.look n = some (adminEntry c.data) ∧
          ∀ m, m ≠ n → (t.bank b).entries.look m = k.entries.look m) ∧
      (op = 0 → k.use ≠ 3 → adminEntryOk k.use.toNat c.data = true → k.longest = true → n = 0xFFFFFFFF →
        k.entries.length < 61440 → ∃ t slot, exec (.sieveAdminInsert tag) s = .next t ∧ Answered s t c .ok (b * 65536 + slot) 0 0) ∧
      (op = 0 → k.use = 3 ∨ adminEntryOk k.use.toNat c.data = false →
        ∃ t, exec (.sieveAdminInsert tag) s = .next t ∧ Answered s t c .invalidField 0 0 0 ∧ t.banks = s.banks) ∧
      (op = 1 → k.longest = false → (k.entries.look n).isSome = true → ∃ t, exec (.sieveAdminRemove tag) s = .next t ∧
        Answered s t c .ok 0 0 0 ∧ (t.bank b).entries.look n = none ∧ ∀ m, m ≠ n → (t.bank b).entries.look m = k.entries.look m) ∧
      (∀ e, op = 2 → k.entries.look n = some e → s.usable c.port c.fn = true → ∃ t, exec (.sieveAdminRead tag) s = .next t ∧
        Answered s t c .ok 0 0 0 ∧ Delivered s t c (adminBytes e) ∧ t.banks = s.banks) ∧
      (op = 3 → let key := BitVec.ofNat 320 (fieldLe c.data 0 40)
        (k.winner key = none → ∃ t, exec (.sieveAdminLookup tag) s = .next t ∧ Answered s t c .ok 0xFFFFFFFF 0 0 ∧ t.banks = s.banks) ∧
        (∀ w, k.winner key = some w → w.2.matches key = true ∧ ∃ t, exec (.sieveAdminLookup tag) s = .next t ∧
          Answered s t c .ok (b * 65536 + w.1) w.2.result.toNat 0 ∧ t.banks = s.banks)) ∧
      (op = 4 → k.use ≠ 3 → ∃ t, exec (.sieveAdminClear tag) s = .next t ∧ Answered s t c .ok 0 0 0 ∧ (t.bank b).entries = [])) ∧
    (∀ (bank : Fin 4) slot, exec (.sieveEntryScrub bank slot .clean) s = .next s ∧
      (∃ t, exec (.sieveEntryScrub bank slot .corrected) s = .next t ∧ t.banks = s.banks) ∧
      (∃ t, exec (.sieveEntryScrub bank slot .uncorrectable) s = .next t ∧ (t.bank bank).held = true ∧
        (t.bank bank).entries = (s.bank bank).entries) ∧
      ((s.bank bank).held = true → ∃ t, exec (.sieveEntryRewritten bank slot) s = .next t ∧ (t.bank bank).held = false ∧
        (t.bank bank).entries.look slot = (s.bank bank).copy.look slot ∧
        ∀ m, m ≠ slot → (t.bank bank).entries.look m = (s.bank bank).entries.look m)) ∧
    (∀ tenant base, (s.tenant tenant).region.2 ≠ 0 → s.runFree tenant base (s.tenant tenant).region.2 = true →
      s.anyHeld s.privBanks = false → (s.tenant tenant).region.1 + (s.tenant tenant).region.2 ≤ s.privCap →
      ∃ t, exec (.sieveRegionMove tenant base) s = .next t ∧ (t.tenant tenant).region = (base, (s.tenant tenant).region.2) ∧
        t.cmds = s.cmds ∧ t.tx = s.tx)

/-- 11 R386, R389, R391, R395, R399, R401, R404, R407: package memory. A controller serves a waiting request: a whole block is
written, a block that reads clean is answered; refresh is postponed, issued or paid; a scrub mends a single bit; a failed
pseudo-channel is fenced; a page is copied to its spare page.
Model's choices in it: log entries 92, 93. -/
def Obligations.PackageMemory : Prop :=
  ∀ (s : State) (ctrl : Fin 256) (port : Port) (stack : Fin 8) (block n : Nat), s.mem.bytes.wf = true →
    let k := s.ctrl ctrl
    let sa := block * 32
    let stk := ctrl.val / 32
    let blk := s.blockNo stk sa
    let region := s.regionOf stk (s.remapped stk sa)
    (k.st = 0 → ∀ l, exec (.memoryAccess ctrl l) s = .next s) ∧
    (k.st = 1 → k.queue = [] → exec (.memoryAccess ctrl []) s =
      .next (s.modCtrl ctrl fun k => { k with queue := [], debt := 0 })) ∧
    (∀ q : MemReq, k.st = 1 → k.queue = [] → ownReq ctrl q = true → q.block = block → k.merge = [] →
      (s.hk.step ≠ 0 → q.id ∉ k.held → ∃ t, exec (.memoryAccess ctrl [q]) s = .next t ∧
        ((t.ctrl ctrl).queue = [] ∨ ((t.ctrl ctrl).queue = [q] ∧ q.id ∈ (t.ctrl ctrl).held ∧ t.mem.bytes = s.mem.bytes))) ∧
      (s.hk.step = 0 ∨ q.id ∈ k.held → q.write = true → q.mask = BitVec.allOnes 32 → (region = 1 ∨ region = 2 ∨ region = 4) →
        ∃ t, exec (.memoryAccess ctrl [q]) s = .next t ∧ t.mem.data blk = q.data ∧ t.mem.syndrome blk = 0 ∧
          (∀ x, x ≠ blk → t.mem.data x = s.mem.data x) ∧ t.tx = s.tx) ∧
      (s.hk.step = 0 ∨ q.id ∈ k.held → q.write = false → s.mem.cls blk = .clean →
        ∃ t, exec (.memoryAccess ctrl [q]) s = .next t ∧ (t.ctrl ctrl).answers = k.answers ++ [⟨q.id, s.mem.data blk, false⟩] ∧
          (t.ctrl ctrl).queue = [] ∧ t.mem.bytes = s.mem.bytes ∧ t.tx = s.tx)) ∧
    ((∃ r ∈ k.queue, r.id = n) → n ∉ k.aged →
      exec (.requestAgeRaise ctrl n) s = .next (s.modCtrl ctrl fun k => { k with aged := k.aged ++ [n] })) ∧
    (k.st = 1 →
      let urgent : Prop := ∃ r ∈ k.queue, r.id ∉ k.held ∧ s.regBits .memRef 0 30 28 ≤ s.reqLevel k r
      (urgent → k.debt < s.postponeLimit k →
        exec (.refreshDue ctrl) s = .next (s.modCtrl ctrl fun k => { k with debt := k.debt + 1 })) ∧
      (urgent → s.postponeLimit k ≤ k.debt → ∃ t, exec (.refreshDue ctrl) s = .next t ∧ t.mem = s.mem ∧
        (t.reg .memCnt 7).toNat = min ((s.reg .memCnt 7).toNat + 1) 0xFFFFFFFF) ∧
      (¬urgent → k.queue ≠ [] → exec (.refreshDue ctrl) s = .next s) ∧
      (k.queue = [] → exec (.refreshDue ctrl) s = .next (s.modCtrl ctrl fun k => { k with debt := 0 }))) ∧
    (k.st ≠ 1 → exec (.refreshDue ctrl) s = .next s) ∧
    (∀ e, k.merge.find? (fun e => e.block == block) = some e → s.lineLost stk sa = false → ctrlOf stk sa = ctrl.val →
      s.mem.cls blk = .clean → ∃ t, exec (.mergeEntryRetire ctrl block) s = .next t ∧
        (∀ x ∈ (t.ctrl ctrl).merge, x.block ≠ block) ∧ t.mem.syndrome blk = 0 ∧
        t.mem.data blk = if e.mask = BitVec.allOnes 32 then e.data else mergeBytes e.mask e.data (s.mem.data blk)) ∧
    (let st := n / 2 ^ 35
     let a := n % 2 ^ 35 * 32
     st < 8 → a < 36 * 2 ^ 30 → (s.ctrl (ctrlOf st a)).st = 1 → (s.ctrl (ctrlOf st a)).merge = [] →
      (s.mem.cls n = .clean → exec (.memoryScrub n) s = .next s) ∧
      (∀ b, s.mem.cls n = .dataBit b → b < 256 → ∃ t, exec (.memoryScrub n) s = .next t ∧
        t.mem.data n = flipBit (s.mem.data n) b ∧ t.mem.syndrome n = 0 ∧ ∀ x, x ≠ n → t.mem.data x = s.mem.data x) ∧
      (s.mem.cls n = .checkBit → ∃ t, exec (.memoryScrub n) s = .next t ∧ t.mem.data n = s.mem.data n ∧ t.mem.syndrome n = 0)) ∧
    (k.st = 1 → (∃ t, exec (.memoryReadTimeout ctrl) s = .next t ∧ (t.ctrl ctrl).st = 2 ∧ (t.ctrl ctrl).cause = 2 ∧
        (t.ctrl ctrl).queue = [] ∧ (t.ctrl ctrl).held = [] ∧ (s.mem.moved = [] → (t.ctrl ctrl).merge = [])) ∧
      ∃ t, exec (.caParityError ctrl true) s = .next t ∧ (t.ctrl ctrl).st = 2 ∧ (t.ctrl ctrl).cause = 1) ∧
    exec (.caParityError ctrl false) s = .next s ∧
    (s.mmio port = true → (s.latch port 0 .bar0).write = none →
      (n ≤ 4 → ∃ t, exec (.delayApply port stack n) s = .next t ∧ (t.stack stack).band = n ∧
        ∀ i < 32, t.reg .memDlyAct (stack * 32 + i) = s.reg .memDly (stack * 32 + i)) ∧
      (4 < n → ∃ t, exec (.delayApply port stack n) s = .next t ∧ t.mem = s.mem) ∧
      (∀ old new, n < 4096 → (s.remapEntry stack n).st = 0 → old ≤ 8790527 → 8790528 ≤ new → new ≤ 9437183 →
        (∀ e ∈ s.remapUsed stack, e.2.new ≠ new) → ∃ t, exec (.pageRetireStart port stack n old new) s = .next t ∧
          t.remapEntry stack n = ⟨1, old, new⟩ ∧ t.mem.bytes = s.mem.bytes) ∧
      (∀ old new, (s.remapEntry stack n).st ≠ 0 ∨ 8790527 < old ∨ new < 8790528 ∨ 9437183 < new →
        ∃ t, exec (.pageRetireStart port stack n old new) s = .next t ∧ t.mem = s.mem)) ∧
    (∀ e, s.remapEntry stack n = e → e.st = 1 → n < 4096 → e.old ≠ e.new →
      (∀ x ∈ s.mem.remap, x.1 / 4096 = stack.val → x.2.st ≠ 2) →
      (∀ i < 128, (s.ctrl (ctrlOf stack (e.old * 4096 + 32 * i))).st ≠ 2 ∧ (s.ctrl (ctrlOf stack (e.old * 4096 + 32 * i))).merge = [] ∧
        s.mem.cls (stack * 2 ^ 35 + e.old * 128 + i) = .clean) →
      ∃ t, exec (.pageCopyDone stack n) s = .next t ∧ t.remapEntry stack n = ⟨2, e.old, e.new⟩ ∧
        t.boot.retired = s.boot.retired ++ [(stack.val, e.old, e.new)] ∧
        ∀ i < 128, t.mem.data (stack * 2 ^ 35 + e.new * 128 + i) = s.mem.data (stack * 2 ^ 35 + e.old * 128 + i))

/-- 11 R393: when a stack's reading falls below DOUBLE_C − HYST_C, its controllers in service return to the normal interval; the
debt is halved, rounded up, the postponement limit is POSTPONE_MAX again, and no burst is forced. -/
def Obligations.RefreshReturns : Prop :=
  ∀ (s : State) (k : Fin 128) (v : Int), 72 ≤ k.val → k.val < 80 → s.housekeeps = true → s.hk.next = k.val →
    let n := k.val - 72
    (s.stack n).st = 1 → (s.stack n).double = true → v < (s.regBits .memRef 0 23 16 : Int) - (s.regBits .memRef 0 27 24 : Int) →
    ∃ t, exec (.housekeepingVisit k (some v)) s = .next t ∧ (t.stack n).double = false ∧ (t.stack n).temp = v ∧
      t.reg .memCnt 8 = s.reg .memCnt 8 ∧ t.mem.bytes = s.mem.bytes ∧ t.cmds = s.cmds ∧
      (∀ c ∈ stackCtrls n, (s.ctrl c).st = 1 → t.ctrl c = { s.ctrl c with double := false, debt := ((s.ctrl c).debt + 1) / 2 } ∧
        t.postponeLimit (t.ctrl c) = s.regBits .memRef 0 15 12) ∧
      ∀ c, c ∉ stackCtrls n → t.ctrl c = s.ctrl c

/-! ## Tenants and host ports -/

/-- 04 R130 to R134; 03 R105 to R107; 09 R329: FN_CONTROL. ENABLE of a Disabled tenant and RESTART of a Stopped one apply the
shadow settings, or name the first that fails; with DISABLE they wait while a private Sieve bank is held; STOP waits until no started command of the tenant is left; DISABLE and RESET end the
queue pairs, commands and programs of the tenant and wait for PATH_RESET_COMPLETE; NOTIFY first answers the unstarted
commands.
Model's choices in it: log entries 58, 60, 139. -/
def Obligations.FunctionControl : Prop :=
  (∀ (s : State) (tag : Nat) (c : Cmd), Turn s tag 0xF0 c → c.fn = 0 → Calm s → NoGroupWork s →
    let n := c.pkt.fld 24 2
    let x := s.tenant n
    let op := c.pkt.fld 26 1
    let gives (i : Instr) (st : Status) : Prop := ∃ t, exec i s = .next t ∧ Answered s t c st 0 0 0 ∧ KeepsData s t
    let waits (t : State) : Prop := (t.tenant n).resetWait = some tag ∧ (t.cmd? tag).map Cmd.launched = some true
    1 ≤ n → n ≤ 4096 → x.stopWait = none → x.resetWait = none → (∀ h ∈ s.held, h.fn ≠ n) →
    (s.anyHeld s.privBanks = true → (op = 1 → exec (.fnControlEnable tag) s = .next s) ∧
      (op = 2 → exec (.fnControlDisable tag) s = .next s) ∧ (op = 4 → exec (.fnControlRestart tag) s = .next s)) ∧
    (s.anyHeld s.privBanks = false ∨ op = 3 ∨ op = 5 →
    (op = 1 → x.state ≠ .disabled → gives (.fnControlEnable tag) .ok) ∧
    (op = 4 → x.state ≠ .stopped → gives (.fnControlRestart tag) .invalidField) ∧
    (∀ i, (i = .fnControlEnable tag ∧ op = 1 ∧ x.state = .disabled) ∨ (i = .fnControlRestart tag ∧ op = 4 ∧ x.state = .stopped) →
      ((∀ e ∈ s.settingsOk n, e.2 = true) → ∃ t, exec i s = .next t ∧ Answered s t c .ok 0 0 0 ∧
        (t.tenant n).state = .running ∧ (t.tenant n).active = x.shadow ∧ (t.tenant n).reject = 0) ∧
      (∀ e, (s.settingsOk n).find? (fun e => !e.2) = some e → ∃ t, exec i s = .next t ∧ Answered s t c .invalidField 0 0 0 ∧
        (t.tenant n).state = x.state ∧ (t.tenant n).active = x.active ∧ (t.tenant n).reject = e.1)) ∧
    (op = 3 → (x.state = .disabled → gives (.fnControlStop tag) .invalidField) ∧ (x.state = .stopped → gives (.fnControlStop tag) .ok) ∧
      (x.state = .running → exec (.fnControlStop tag) s = .next ((s.modCmd tag fun y => { y with launched := true }).modTenant n
        fun y => { y with state := .stopped, stopWait := some tag }))) ∧
    (op = 2 → ∃ t, exec (.fnControlDisable tag) s = .next t ∧ waits t ∧ PathReset s t .a n ∧ PathReset s t .b n ∧
      (t.tenant n).state = .disabled ∧ (t.tenant n).programs = [] ∧ (t.tenant n).errors = [] ∧ (t.tenant n).region = (0, 0) ∧
      ∀ k, (t.space? n k).isSome = (s.space? n k).isSome ∧ (t.ns? n k).isSome = (s.ns? n k).isSome) ∧
    (op = 5 → x.state = .disabled → gives (.fnControlReset tag) .ok) ∧
    (op = 5 → x.state ≠ .disabled → c.pkt.fld 27 1 = 2 → ∃ t, exec (.fnControlReset tag) s = .next t ∧ waits t ∧
      PathReset s t .a n ∧ PathReset s t .b n ∧ (t.tenant n).state = x.state ∧ (t.tenant n).programs = [] ∧
      (bitOf c.pkt.aux 0 = true → s.held = [] → ∀ y ∈ s.cmds, y.fn = n → y.started = false → Live s y → s.canSend y.port n = true →
        Answered s t y .abortedReset 0 0 0)) ∧
    (∀ p o : Port, op = 5 → x.state ≠ .disabled → c.pkt.fld 27 1 = portNum p → o ≠ p → ∃ t, exec (.fnControlReset tag) s = .next t ∧
      waits t ∧ PathReset s t p n ∧ (t.fp o n).generation = (s.fp o n).generation ∧ (t.tenant n).state = x.state))) ∧
  (∀ (s : State) (n tag : Nat) (c : Cmd), s.cmd? tag = some c → Live s c →
    ((s.tenant n).stopWait = some tag →
      ((∃ y ∈ s.cmds, y.fn = n ∧ y.started = true ∧ y.pkt.opcode ≠ 0x06) → exec (.tenantStopDrained n) s = .next s) ∧
      ((∀ y ∈ s.cmds, y.fn = n → y.started = true → y.pkt.opcode = 0x06) →
        ∃ t, exec (.tenantStopDrained n) s = .next t ∧ Answered s t c .ok 0 0 0 ∧ (t.tenant n).stopWait = none)) ∧
    (∀ port, (s.fp port n).resetting = true →
      ((∃ y ∈ s.cmds, y.fn = n ∧ y.port = port ∧ y.doomed = true) → exec (.pathResetComplete port n) s = .next s) ∧
      ((∀ y ∈ s.cmds, y.fn = n → y.port = port → y.doomed = false) →
        ((s.tenant n).resetWait = none → exec (.pathResetComplete port n) s =
          .next (s.modFp port n fun p => { p with resetting := false })) ∧
        ((s.tenant n).resetWait = some tag → (∀ p, p ≠ port → (s.fp p n).resetting = false) →
          ∃ t, exec (.pathResetComplete port n) s = .next t ∧ Answered s t c .ok 0 0 0 ∧ (t.fp port n).resetting = false ∧
            (t.tenant n).resetWait = none))))

/-- 04 R142, R144, R147, R150; 02 R28: containers and the dirty-page log. SPACE_CREATE and NS_CREATE make or resize a container; a
space created again keeps its commit counter; the delete commands write a delete record and wait for it, and no commit in a space
being deleted becomes visible. DIRTY_LOG starts and stops the log of a tenant, and reads it once no entry is held.
Model's choices in it: log entries 66, 64. -/
def Obligations.ContainersAndDirtyLog : Prop :=
  ∀ (s : State) (tag : Nat) (c : Cmd), c.fn = 0 →
    let n := c.pkt.fld 24 2
    let k := c.pkt.fld 26 1
    let size := c.pkt.fld 32 8
    let gives (i : Instr) (st : Status) : Prop := ∃ t, exec i s = .next t ∧ Answered s t c st 0 0 0 ∧ KeepsData s t
    let old := ((s.ns? n k).map Namespace.size).getD 0
    let recorded (i : Instr) (kind : RecordKind) : Prop := ∃ t c' g, exec i s = .next t ∧
      t.records = s.records ++ [⟨s.nextCommit, tag, n, k, kind, s.flash.seq, false⟩] ∧ t.cmd? tag = some c' ∧ c'.launched = true ∧
      InRow t g ∧ g.owner = .record s.nextCommit ∧ Quiet s t ∧ (∀ m, m ≠ n → t.tenant m = s.tenant m) ∧
      t.tenant n = { s.tenant n with
        spaces := if kind = .spaceDelete then (s.tenant n).spaces.adj k fun x => { x with deleting := true } else (s.tenant n).spaces }
    let row := EmptyRow s (s.nextCommit % 4) .metadata true
    let d := (s.tenant n).dlog
    (Turn s tag 0xF1 c →
      (bitOf c.pkt.aux 0 ≠ (s.space? n k).isSome → gives (.spaceCreate tag) .invalidField) ∧
      (bitOf c.pkt.aux 0 = (s.space? n k).isSome → ∃ t, exec (.spaceCreate tag) s = .next t ∧ Answered s t c .ok 0 0 0 ∧
        t.space? n k = some ⟨true, size, c.pkt.fld 40 8, (((s.tenant n).spaces.look k).map Space.counter).getD 0,
          (((s.tenant n).spaces.look k).map Space.deleting).getD false⟩)) ∧
    (Turn s tag 0xF2 c → (s.space? n k = none → gives (.spaceDelete tag) .containerUnknown) ∧
      ((s.space? n k).isSome = true → (∀ r ∈ s.records, r.durable = true) → (∀ x ∈ s.commits, ¬(x.ver.tenant = n ∧ x.ver.space = k)) →
        (∀ x ∈ s.ctxs, ∀ w, x.kind = .write w → x.tenant = n → w.space = k → w.state ≠ .committing) →
        NoGroupWork s → row → recorded (.spaceDelete tag) .spaceDelete)) ∧
    (Turn s tag 0xF3 c →
      (bitOf c.pkt.aux 0 ≠ (s.ns? n k).isSome ∨ size < old → gives (.nsCreate tag) .invalidField) ∧
      (bitOf c.pkt.aux 0 = (s.ns? n k).isSome → old ≤ size → 7812500000 < s.nsBlocks - old + size →
        gives (.nsCreate tag) .namespaceLimit) ∧
      (bitOf c.pkt.aux 0 = (s.ns? n k).isSome → old ≤ size → s.nsBlocks - old + size ≤ 7812500000 →
        ∃ t, exec (.nsCreate tag) s = .next t ∧ Answered s t c .ok 0 0 0 ∧ (t.ns? n k).map Namespace.size = some size)) ∧
    (Turn s tag 0xF4 c → (s.ns? n k = none → gives (.nsDelete tag) .containerUnknown) ∧
      ((s.ns? n k).isSome = true → (∀ r ∈ s.records, r.durable = true) → row → recorded (.nsDelete tag) .nsDelete)) ∧
    (Turn s tag 0xF9 c → n ≠ 0 → (∀ y ∈ s.cmds, y.fn ≠ n) →
      (c.pkt.aux = 0 → d.on = true → gives (.dirtyLogStart tag) .invalidField) ∧
      (c.pkt.aux = 0 → d.on = false → ∃ t, exec (.dirtyLogStart tag) s = .next t ∧ Answered s t c .ok 0 0 0 ∧
        (t.tenant n).dlog = { d with on := true, port := c.port, base := size, log2 := k, written := 0, since := 0, dropped := false }) ∧
      (c.pkt.aux = 1 → d.on = false → gives (.dirtyLogStop tag) .invalidField) ∧
      (c.pkt.aux = 1 → d.on = true → ∃ t, exec (.dirtyLogStop tag) s = .next t ∧ Answered s t c .ok 0 0 0 ∧
        (t.tenant n).dlog = { d with on := false }) ∧
      (c.pkt.aux = 2 → d.on = false → gives (.dirtyLogSync tag) .invalidField) ∧
      (c.pkt.aux = 2 → d.on = true → s.dlogHeld d = true → exec (.dirtyLogSync tag) s = .next s) ∧
      (c.pkt.aux = 2 → d.on = true → s.dlogHeld d = false → ∃ t, exec (.dirtyLogSync tag) s = .next t ∧ Answered s t c .ok d.since 0 (b2n d.dropped) ∧
        (t.tenant n).dlog = { d with since := 0, dropped := false }))

/-- 04 R120, R121, R123 to R125; 03 R117; 13 R450; 15 R495, R503, R504: the events of a host port. A function-level reset resets one
function on one port, a hot reset and PERST_N function 0 and what was enabled; a link that goes down resets nothing, and one
that comes up sends what was held, in order; VF Enable, the command register, the power state and the translation cache take
the values of the event; a malformed TLP and a FLIT retry are reported.
A configuration request is answered with Request Retry Status before Discovery ends, and then by the configuration space of the
function it finds, which a write changes and a read leaves.
Model's choices in it: log entries 61, 62, 63, 67, 133. -/
def Obligations.HostPortEvents : Prop :=
  ∀ (s : State) (port : Port) (fn : Nat),
    (s.cfgReach port = true → fn ≤ 4096 →
      (1 ≤ fn → fn ≤ (s.hp port).enabledVfs → ∃ t, exec (.functionLevelReset port fn) s = .next t ∧ PathReset s t port fn ∧
        (t.fp port fn).ats = [] ∧ (t.tenant fn).state = (s.tenant fn).state) ∧
      (fn = 0 → ∃ t, exec (.functionLevelReset port fn) s = .next t ∧ PortReset s t port ∧ (t.fp port 0).ats = []) ∧
      ((s.hp port).enabledVfs < fn → exec (.functionLevelReset port fn) s = .next s) ∧
      (∀ on num, num ≤ 4096 → ∃ t, exec (.vfEnableChange port on num) s = .next t ∧ (t.hp port).vfEnable = on ∧ (t.hp port).numVfs = num ∧
        ∀ n, ((if on then num else 0) < n → n ≤ (s.hp port).enabledVfs → PathReset s t port n) ∧
          ((n ≤ if on then num else 0) ∨ (s.hp port).enabledVfs < n → (t.fp port n).generation = (s.fp port n).generation)) ∧
      (1 ≤ fn → ∀ mse bme, ∃ t, exec (.vfCommandChange port fn mse bme) s = .next t ∧ (t.fp port fn).mse = mse ∧
        (t.fp port fn).bme = bme ∧ KeepsData s t ∧ ((s.tenant fn).dlog.on = false → t.qps = s.qps ∧ t.cmds = s.cmds)) ∧
      (∀ d3, ∃ t, exec (.pciePowerStateChange port fn d3) s = .next t ∧ (t.fp port fn).d3hot = d3 ∧ KeepsData s t ∧
        ((s.tenant fn).dlog.on = false → t.qps = s.qps ∧ t.cmds = s.cmds)) ∧
      (∀ addr len, ∃ t, exec (.atsInvalidateRequest port fn addr len) s = .next t ∧ t.tx = s.tx ++ [.atsInvalidated port fn] ∧
        t.held = s.held ∧ t.qps = s.qps ∧ t.cmds = s.cmds ∧ KeepsData s t ∧
        ∀ e, e ∈ (t.fp port fn).ats ↔ e ∈ (s.fp port fn).ats ∧ ¬(e.1 * 4096 < addr + len ∧ addr < e.1 * 4096 + 4096))) ∧
    (∀ bus reg, let req (w : Option Nat) : Instr := .configurationRequest port ⟨bus, fn, reg, w⟩
      let found := fn = 0 ∨ (bus = (s.hp port).bus ∧ fn ≤ (s.hp port).enabledVfs)
      (∀ w, (s.hp port).up = false → exec (req w) s = .next s) ∧
      (∀ w, s.cfgReach port = false → (s.hp port).up = true → exec (req w) s = .next { s with tx := s.tx ++ [.retryStatus port fn] }) ∧
      (∀ w, s.cfgReach port = true → ¬found → exec (req w) s = .next { s with tx := s.tx ++ [.configUnsupported port bus fn] }) ∧
      (s.cfgReach port = true → found → exec (req none) s =
        .next { s with tx := s.tx ++ [.configData port fn (some (s.configRead port fn reg))] }) ∧
      ∀ v, s.cfgReach port = true → found → ∃ t l, exec (req (some v)) s = .next t ∧ t.tx = l ++ [.configData port fn none] ∧
        (reg ≠ .sriovControl → reg ≠ .numVfs → KeepsData s t) ∧ (fn = 0 → (t.hp port).bus = bus) ∧
        (reg = .command → (t.fp port fn).mse = bitOf v 1 ∧ (t.fp port fn).bme = bitOf v 2) ∧
        (reg = .msixControl → (t.fp port fn).pci.msixOn = bitOf v 15 ∧ (t.fp port fn).pci.msixMask = bitOf v 14) ∧
        (reg = .atsControl → (t.fp port fn).pci.atsOn = bitOf v 15) ∧
        (reg = .bar0 → fn = 0 → (t.fp port 0).pci.bar0 = v % 2 ^ 64 / 2 ^ 24 * 2 ^ 24) ∧
        (reg = .sriovControl → fn = 0 → (t.hp port).vfEnable = bitOf v 0) ∧
        (reg = .numVfs → fn = 0 → v ≤ 4096 → (t.hp port).numVfs = v)) ∧
    (s.awake = true →
      ((s.hp port).up = true → ∃ t, exec (.hotReset port) s = .next t ∧ PortReset s t port) ∧
      ((s.hp port).perst = false → ∃ t, exec (.perstAssert port) s = .next t ∧ PortReset s t port ∧ (t.hp port).perst = true ∧
        (t.hp port).up = false)) ∧
    (∃ t, exec (.perstRelease port) s = .next t ∧ t.hp port = { s.hp port with perst := false } ∧ t.fns = s.fns ∧ KeepsData s t) ∧
    ((s.hp port).up = false → exec (.pcieLinkDown port) s = .next s) ∧
    ((s.hp port).up = true → ∃ t, exec (.pcieLinkDown port) s = .next t ∧
      t.hp port = { s.hp port with up := false, speed := 0, lanes := 0, flit := false, downSeen := true } ∧
      t.fns = s.fns ∧ t.qps = s.qps ∧ t.cmds = s.cmds ∧ t.held = s.held ∧ t.tx = s.tx ∧ KeepsData s t) ∧
    (∀ speed lanes flit, s.mayTrain port lanes = true → 1 ≤ speed → speed ≤ 6 → (s.hp port).up = false →
      ∃ t, exec (.pcieLinkUp port speed lanes flit) s = .next t ∧
        t.hp port = { s.hp port with up := true, speed := speed, lanes := lanes, flit := flit } ∧ KeepsData s t ∧
        ((∀ n, (s.tenant n).dlog.on = false) → t.cmds = s.cmds) ∧ (∀ h ∈ t.held, h.port = port → s.usable port h.fn = false) ∧
        (s.usable port fn = true → (s.tenant fn).dlog.on = false → (s.fp port fn).pci.atsOn = false →
          (∀ h ∈ s.held, h.fn = fn ∧ h.port = port ∧ h.vector = none ∧ ∀ p f v addr data, h.out ≠ .msix p f v addr data) →
          t.tx = s.tx ++ s.held.map Held.out ∧ t.held = [])) ∧
    (s.awake = true → (s.hp port).up = true →
      (∀ ovr, ∃ t, exec (.malformedTlp port fn ovr) s = .next t ∧ t.cmds = s.cmds ∧ KeepsData s t ∧
        t.tx = s.tx ++ [.aer port fn (if ovr then "Receiver Overflow" else "Malformed TLP")]) ∧
      ∃ t, exec (.flitRetry port) s = .next t ∧ t.tx = s.tx ++ [.aer port 0 "FLIT Retry"] ∧ t.cmds = s.cmds ∧ KeepsData s t)

/-! ## Firmware, boot flash, modes -/

/-- 13 R456, R457; 03 R110: FW_DOWNLOAD takes the chunks of one image in order; a firmware chunk goes into the slot that is not
in use, and the last chunk has the image checked. FW_ACTIVATE puts the device into Quiesce; FIRMWARE_READY makes the pending
image the active one, at whose ENTRY the control cores begin, and commits what FLAGS ask for; ACTIVATION_TIMEOUT restores the boot selector.
13 R442, R443, R456; 14 R472: the writes of the boot flash end one after another, each at its place. A configuration goes to copy B and then to copy A,
and is answered then; the boot selector and the key record take the copy that is not in use and are newer than the other; a
write that times out is given up, its command fails, and SPI_TIMEOUT is recorded.
Model's choices in it: log entries 44, 45, 46, 47, 48. -/
def Obligations.FirmwareAndBootFlash : Prop :=
  (
    ∀ (s : State) (tag : Nat) (c : Cmd), Calm s →
      let target := c.pkt.fld 24 1
      let off := c.pkt.fld 28 4
      let total := c.pkt.fld 32 4
      let d := s.cfg.download
      let first : Prop := off = 0
      let goesOn : Prop := d.active = true ∧ d.target = target ∧ d.total = total ∧ d.bytes.length = off
      let b := (if off = 0 then [] else d.bytes) ++ c.data
      let fails (i : Instr) (st : Status) : Prop := ∃ t, exec i s = .next t ∧ Answered s t c st 0 0 0
      (Turn s tag 0xF5 c →
        (¬first → ¬goesOn → fails (.fwDownload tag) .invalidField) ∧
        (first ∨ goesOn →
          (b.length < total → ∃ t, exec (.fwDownload tag) s = .next t ∧ Answered s t c .ok 0 0 0 ∧ t.cfg.download.active = true ∧
            t.cfg.download.bytes = b ∧
            (target = 0 → t.boot.slot s.otherSlot = some (overlay ((s.boot.slot s.otherSlot).getD []) off c.data) ∧
              t.cfg.fwPending = none)) ∧
          (total ≤ b.length → target = 0 → ∀ i, s.fwCheck b = .ok i → ∃ t, exec (.fwDownload tag) s = .next t ∧
            Answered s t c .ok 0 0 0 ∧ t.cfg.fwPending = some i ∧ t.cfg.download.active = false) ∧
          (total ≤ b.length → target = 0 → ∀ e, s.fwCheck b = .error e → ∃ t, exec (.fwDownload tag) s = .next t ∧
            Answered s t c (if e = .signature then .notPermitted else .invalidField) 0 0 0 ∧ t.cfg.fwPending = none ∧
            t.cfg.download.fail = e.code) ∧
          (total ≤ b.length → target ≠ 0 → ∀ e, cfgCheck b = .error e → ∃ t, exec (.fwDownload tag) s = .next t ∧
            Answered s t c .invalidField 0 0 0 ∧ t.cfg.download.fail = e.code ∧ t.boot.cfgA = s.boot.cfgA ∧ t.boot.cfgB = s.boot.cfgB) ∧
          (total ≤ b.length → target ≠ 0 → ∀ x, cfgCheck b = .ok x → ∃ t, exec (.fwDownload tag) s = .next t ∧
            t.boot.ops = s.boot.ops ++ [.cfgB b tag] ∧ t.tx = s.tx ∧ (t.cmd? tag).map Cmd.launched = some true))) ∧
      (Turn s tag 0xF6 c →
        (s.cfg.fwPending = none ∨ s.modes.fwWait ≠ none → fails (.fwActivate tag) .invalidField) ∧
        (s.cfg.fwPending ≠ none → s.modes.fwWait = none → s.modes.running = true → s.modes.powerFail = false →
          (s.modes.mode = .quiesce → s.modes.drained = false) → ∃ t, exec (.fwActivate tag) s = .next t ∧ t.modes.mode = .quiesce ∧
            t.modes.fwWait = some tag ∧ (t.cmd? tag).map Cmd.fwSlot = some s.otherSlot ∧ t.cfg = s.cfg ∧ t.boot.selA = s.boot.selA ∧
            t.boot.selB = s.boot.selB)) ∧
      (∀ i, s.modes.fwSwitched = true → s.modes.fwWait = some tag → s.cmd? tag = some c → s.cfg.fwPending = some i → Live s c →
        c.pkt.opcode = 0xF6 → tag ∉ s.modes.maintWait →
        ((∃ x, SpiOp.bootSel x ∈ s.boot.ops) ∨ s.boot.named ≠ c.fwSlot → exec .firmwareReady s = .next s) ∧
        ((∀ x, SpiOp.bootSel x ∉ s.boot.ops) → s.boot.named = c.fwSlot → ∃ t, exec .firmwareReady s = .next t ∧
          Answered s t c .ok 0 0 0 ∧ t.cfg.fwActive = i ∧ t.cfg.fwSlot = c.fwSlot ∧ t.cfg.fwPending = none ∧
          t.cfg.svnFused = (if bitOf (c.pkt.fld 24 1) 0 then max s.cfg.svnFused i.svn else s.cfg.svnFused) ∧
          t.cfg.revoked = (if bitOf (c.pkt.fld 24 1) 1 then s.cfg.revoked ||| BitVec.ofNat 4 (2 ^ i.keyIndex - 1) else s.cfg.revoked) ∧
          t.modes.quiesceFw = false ∧ t.modes.fwSwitched = false ∧ t.modes.fwWait = none ∧
          ∀ k < 4, (t.ccore k).core.pc = BitVec.ofNat 32 i.entry ∧ (t.ccore k).core.priv = true) ∧
        ∃ t, exec .activationTimeout s = .next t ∧ Answered s t c .invalidField 0 0 0 ∧ t.cfg = s.cfg ∧ t.modes.actFailed = true ∧
          SpiOp.bootSel ⟨0, 1 - min c.fwSlot 1⟩ ∈ t.boot.ops ∧ t.modes.quiesceFw = false ∧ t.modes.fwWait = none) ∧
      (s.modes.fwSwitched = false → exec .firmwareReady s = .next s ∧ exec .activationTimeout s = .next s)) ∧
  (
    ∀ (s : State), (s.boot.ops = [] → exec .spiOperationDone s = .next s ∧ ∀ off, exec (.spiTimeout off) s = .next s) ∧
      ∀ o rest, s.boot.ops = o :: rest →
        let w := Tx.spiWrite (s.boot.written o).1 (s.boot.written o).2
        (∀ b tag, o = .cfgB b tag → exec .spiOperationDone s =
          .next { s with boot := { s.boot with cfgB := some b, ops := .cfgA b tag :: rest }, tx := s.tx ++ [.spiWrite 0x100000 b] }) ∧
        (∀ b tag c, o = .cfgA b tag → s.cmd? tag = some c → Live s c →
          ∃ t, exec .spiOperationDone s = .next t ∧ t.boot.cfgA = some b ∧ Answered s t c .ok 0 0 0) ∧
        (∀ r tag c, o = .keyRecord r (some tag) → s.cmd? tag = some c → Live s c → c.pkt.opcode ≠ 0xFC →
          ∃ t, exec .spiOperationDone s = .next t ∧ t.boot.keyRec.map (fun x => (x.sanitize, x.keys)) = some (r.sanitize, r.keys) ∧
            Answered s t c .ok 0 0 0) ∧
        (∀ x, o = .bootSel x → ∃ t, exec .spiOperationDone s = .next t ∧ t.boot.named = x.active ∧ t.boot.ops = rest ∧
          t.cfg = s.cfg ∧ t.modes = s.modes ∧ t.tx = s.tx ++ [w]) ∧
        (∀ r, o = .perm r → exec .spiOperationDone s =
          .next { s with
            boot := { s.boot with ops := rest }, evr := { s.evr with perm := r :: s.evr.perm }
            tx := s.tx ++ [.spiWrite (0x40000 + 32 * (r.number - 1)) r.bytes] }) ∧
        (∀ r, o = .parkRecord r → exec .spiOperationDone s =
          .next { s with
            boot := { s.boot with ops := rest, parks := s.boot.parks ++ [r] }
            tx := s.tx ++ [.spiWrite (0x20000 + 64 * s.boot.parks.length) r.bytes] }) ∧
        (∀ off tag c, (∃ b, o = .cfgB b tag ∨ o = .cfgA b tag) ∨ (∃ r, o = .keyRecord r (some tag)) → s.cmd? tag = some c → Live s c →
          ∃ t, exec (.spiTimeout off) s = .next t ∧ Answered s t c .writeFailed 0 0 0 ∧ s.evr.next < t.evr.next) ∧
        ∀ off x, o = .bootSel x → ∃ t, exec (.spiTimeout off) s = .next t ∧ t.tx = s.tx ∧ t.modes = s.modes ∧ t.cfg = s.cfg ∧
          t.evr.next = s.evr.next + 1 ∧
          (t.evr.ring.head?.map fun r => (r.number, r.code, r.data)) = some (s.evr.next, 0x0112, leBytes 4 off ++ zeros 4))

/-- 13 R439, R453 to R455: Quiesce and Maintenance. QUIESCE_ENTER and MODE_REQUEST set QUIESCE; DRAINED lets go on what waited for
it: ENTER_QUIESCE is answered, ENTER_MAINT goes on into Maintenance, FW_ACTIVATE writes the boot selector. QUIESCE_EXIT and the
limit end only a Quiesce by request. The mode shown is the first whose condition holds.
Model's choices in it: log entries 49, 50, 51. -/
def Obligations.ModeRequests : Prop :=
  ∀ (s : State), Calm s → s.modes.running = true → s.modes.powerFail = false →
    let m := s.modes
    let waits : Prop := ∃ x ∈ s.cmds, s.holdsDrain x = true
    let alone : Prop := m.quiesceWait = [] ∧ m.maintWait = [] ∧ m.fwWait = none
    let left := { s with modes := { m with quiesceReq := false } }.modeNow
    (∀ port, s.mmio port = true → (s.latch port 0 .bar0).write = none →
      (m.mode.takesQuiesce = true → ∃ t, exec (.quiesceEnter port) s = .next t ∧ t.modes.mode = .quiesce ∧ t.modes.quiesceReq = true ∧
        t.modes.drained = false ∧ t.modes.last = m.mode ∧ t.qps.map (fun q => (q.fn, q.port, q.qid)) = s.qps.map fun q => (q.fn, q.port, q.qid)) ∧
      (m.mode.takesQuiesce = false → ∃ t, exec (.quiesceEnter port) s = .next t ∧ t.modes = m ∧ KeepsData s t) ∧
      (m.mode = .quiesce → m.quiesceReq = true → m.quiesceMaint = false → m.quiesceFw = false →
        ∃ t, exec (.quiesceExit port) s = .next t ∧ t.modes.quiesceReq = false ∧ t.modes.mode = left ∧ t.modes.quiesceWait = []) ∧
      (m.mode ≠ .quiesce ∨ m.quiesceReq = false ∨ m.quiesceMaint = true ∨ m.quiesceFw = true →
        ∃ t, exec (.quiesceExit port) s = .next t ∧ t.modes = m ∧ KeepsData s t)) ∧
    (m.mode ≠ .quiesce ∨ m.drained = true ∨ waits → exec .quiesceDrained s = .next s) ∧
    (m.mode = .quiesce → m.drained = false → ¬waits →
      (alone → m.quiesceMaint = false → exec .quiesceDrained s = .next { s with modes := { m with drained := true } }) ∧
      (∀ tag c, m.quiesceWait = [tag] → m.maintWait = [] → m.fwWait = none → m.quiesceMaint = false → s.cmd? tag = some c → Live s c →
        ∃ t, exec .quiesceDrained s = .next t ∧ t.modes.drained = true ∧ Answered s t c .ok t.devMode t.devFlags 0) ∧
      (∀ tag c, m.quiesceWait = [] → m.maintWait = [tag] → m.fwWait = none → m.quiesceMaint = true → m.quiesceReq = false →
        m.quiesceFw = false → s.cmd? tag = some c → Live s c → c.pkt.opcode = 0xF7 → ∃ t, exec .quiesceDrained s = .next t ∧
          t.modes.mode = .maintenance ∧ t.modes.maint = true ∧ Answered s t c .ok t.devMode t.devFlags 0) ∧
      (∀ tag c, m.quiesceWait = [] → m.maintWait = [] → m.fwWait = some tag → m.fwSwitched = false → m.quiesceMaint = false →
        s.cmd? tag = some c → exec .quiesceDrained s = .next { s with
          modes := { m with drained := true, fwSwitched := true }
          boot := { s.boot with ops := s.boot.ops ++ [.bootSel ⟨0, c.fwSlot⟩] } })) ∧
    (m.mode ≠ .quiesce ∨ m.quiesceReq = false → exec .quiesceLimit s = .next s) ∧
    (m.mode = .quiesce → m.quiesceReq = true → ∃ t, exec .quiesceLimit s = .next t ∧ t.modes.quiesceReq = false ∧ t.modes.qlimit = true ∧
      t.modes.mode = left) ∧
    ∀ tag c, Turn s tag 0xF7 c →
      let op := c.pkt.fld 24 1
      (op = 1 → m.maint = false → m.mode ≠ .quiesce → ∃ t, exec (.modeRequestEnterMaint tag) s = .next t ∧ t.modes.mode = .quiesce ∧
        t.modes.quiesceMaint = true ∧ tag ∈ t.modes.maintWait ∧ (t.cmd? tag).map Cmd.launched = some true) ∧
      (op = 1 → m.maint = true → m.mode = .maintenance → m.maintWait = [] →
        ∃ t, exec (.modeRequestEnterMaint tag) s = .next t ∧ Answered s t c .ok s.devMode s.devFlags 0 ∧ t.modes = m) ∧
      (op = 2 → ∃ t, exec (.modeRequestExitMaint tag) s = .next t ∧ Answered s t c .ok t.devMode t.devFlags 0 ∧
        t.modes.maint = false ∧ t.modes.mode = { s with modes := { m with maint := false } }.modeNow) ∧
      (op = 3 → m.mode ≠ .quiesce → ∃ t, exec (.modeRequestEnterQuiesce tag) s = .next t ∧ t.modes.mode = .quiesce ∧
        t.modes.quiesceReq = true ∧ tag ∈ t.modes.quiesceWait ∧ (t.cmd? tag).map Cmd.launched = some true) ∧
      (op = 4 → ∃ t, exec (.modeRequestQuery tag) s = .next t ∧ Answered s t c .ok s.devMode s.devFlags 0 ∧ KeepsData s t)

/-! ## Keys and media -/

/-- 08 R288, R290 to R293; 03 R89, R115; 12 R417, R418: KEY_LOAD. Its body and its mode are checked with the packet. A later check
that fails ends it with its status and changes no key; a tenant key is taken at once where its fingerprint is known, and
otherwise first writes the fingerprint; a device key is taken and its key record written; the erases empty the slots and write
what must be durable before they are answered.
Model's choices in it: log entry 90. -/
def Obligations.KeyCommands : Prop :=
  (∀ (s : State) (fn : Nat) (p : Packet), p.opcode = 0xF8 →
    ((∃ r ∈ s.keyRules p, r.1 = false) → p.strayByte = none → ∃ o, s.bodyCheck fn p = some ⟨.invalidField, 6, o⟩) ∧
    (p.keyMaint = true → s.modes.mode ≠ .maintenance → s.modeCheck p = some ⟨.wrongMode, 8, 0xFFFF⟩) ∧
    (p.keyMaint = true ↔ p.keyOp = 2 ∨ (p.keyOp = 0 ∧ p.keyWrap = 0))) ∧
  ∀ (s : State) (tag : Nat) (c : Cmd), Turn s tag 0xF8 c →
    let p := c.pkt
    let slot := keySlot p.keyTenant p.keyKey
    let fails (i : Instr) (st : Status) : Prop := ∃ t, exec i s = .next t ∧ Answered s t c st 0 0 0 ∧ KeepsData s t
    let boxes := ((s.tenant p.keyTenant).spaces.filter fun e => e.2.live).length + (s.tenant p.keyTenant).nss.length
    let cleared (t : State) : Prop := t.keys.tenant.look (keySlot p.keyTenant 0) = none ∧
      t.keys.tenant.look (keySlot p.keyTenant 1) = none ∧ t.keys.fingerprints.look (keySlot p.keyTenant 0) = none ∧
      t.keys.fingerprints.look (keySlot p.keyTenant 1) = none ∧ t.keys.device = s.keys.device
    let row := EmptyRow s (s.nextCommit % 4) .metadata true
    (p.keyOp = 0 →
      ((∃ r ∈ s.keyRules p, r.1 = false) → fails (.keyLoad tag) .invalidField) ∧
      ((∀ r ∈ s.keyRules p, r.1 = true) →
        (p.keyWrap ≠ 0 → s.keys.device.look (if p.keyWrap = 1 then 0 else 2) = none → fails (.keyLoad tag) .notPermitted) ∧
        (p.keyWrap = 0 → s.keyPlain p c.data = none → fails (.keyLoad tag) .notPermitted)) ∧
      (∀ b, s.keyCheck p c.data = .ok b →
        let key : Key := ⟨BitVec.ofNat 4 (fieldLe b 0 1), b.drop 16⟩
        (p.keyTenant = 0 → ∃ t, exec (.keyLoad tag) s = .next t ∧ t.keys.device.look p.keyKey = some key ∧ t.keys.tenant = s.keys.tenant ∧
          (p.keyKey = 1 → s.regBits .flCfg 0 31 24 ≠ 0 → t.keys.prevD1 = (s.keys.device.look 1).map Key.key) ∧
          t.boot.ops = s.boot.ops ++ [.keyRecord ⟨0, false, t.keys.record⟩ (some c.tag)] ∧ t.tx = s.tx) ∧
        (p.keyTenant ≠ 0 → s.keys.fingerprints.has slot = true → ∃ t, exec (.keyLoad tag) s = .next t ∧ Answered s t c .ok 0 0 0 ∧
          t.keys.tenant.look slot = some key ∧ t.keys.device = s.keys.device) ∧
        (p.keyTenant ≠ 0 → s.keys.fingerprints.has slot = false → row →
          ∃ t g h, exec (.keyLoad tag) s = .next t ∧ t.keys = s.keys ∧ Quiet s t ∧ InRow t g ∧ g.owner = .metadata tag ∧
            g.sectors = [(h, padTo (leBytes 2 slot ++ fingerprint b) 4096)] ∧ h.kind = 9 ∧ h.devKey = true))) ∧
    (p.keyOp = 1 →
      ((s.tenant p.keyTenant).state ≠ .disabled → fails (.eraseTenant tag) .invalidField) ∧
      (1 ≤ p.keyTenant → p.keyTenant ≤ 4096 → (s.tenant p.keyTenant).state = .disabled →
        (boxes = 0 → ∃ t, exec (.eraseTenant tag) s = .next t ∧ Answered s t c .ok 0 0 0 ∧ cleared t) ∧
        (boxes = 1 → row → ∃ t r, exec (.eraseTenant tag) s = .next t ∧ cleared t ∧ Quiet s t ∧
          t.records = s.records ++ [r] ∧ r.tenant = p.keyTenant ∧ r.tag = tag ∧ r.durable = false))) ∧
    (p.keyOp = 2 →
      (p.keyTenant = 0 → p.keyKey ≤ 1 → NoGroupWork s →
        ∃ t, exec (.eraseDevice tag) s = .next t ∧ t.keys.device.look p.keyKey = none ∧ t.keys.tenant = s.keys.tenant ∧
          (p.keyKey = 1 → t.firon.enabled = false ∧ t.keys.prevD1 = none) ∧
          t.boot.ops = s.boot.ops ++ [.keyRecord ⟨0, false, t.keys.record⟩ (some c.tag)] ∧ t.tx = s.tx))

/-- 10 R363, R370, R375 to R377; 03 R115: RAW_MEDIA on a slot that is Online, or Offline with its power on for the command: the reads deliver what
the medium holds, of which the spec leaves some bytes free; a program and an erase need an Offline slot, wait in Power-Fail and
are counted; an address outside the geometry is an invalid field. SANITIZE, taken in Maintenance only, checks its token and writes
its marker. The health summary goes to function 0.
Model's choices in it: log entries 89, 81, 124, 83. -/
def Obligations.MediaCommands : Prop :=
  ∀ (s : State) (tag : Nat) (c : Cmd),
    let a := c.pkt.fld 24 8
    let r := mediaRef a
    let k := s.card r.slot
    let op := c.pkt.aux % 8
    let bad (i : Instr) : Prop := ∃ t, exec i s = .next t ∧ Answered s t c .invalidField 0 0 0 ∧ KeepsData s t
    let gives (i : Instr) (good : List Byte → Prop) : Prop := ∃ t b, exec i s = .next t ∧ good b ∧ Delivered s t c b ∧ Answered s t c .ok 0 0 0
    let nonce := sliceB c.pkt.body 0 8
    let token (d2 : Key) : Prop := leNat nonce = s.flash.nonce.toNat ∧
      (hmacSha256 d2.key (sanitizeMessage nonce)).take 16 = sliceB c.pkt.body 8 16
    (Turn s tag 0xFB c → s.usable c.port c.fn = true →
      (k.info = none →
        (op = 0 → bad (.readSector tag)) ∧ (op = 1 → bad (.readRaw tag)) ∧ (op = 2 → bad (.readParam tag)) ∧
        (op = 3 → bad (.readId tag)) ∧ (op = 4 → bad (.programRaw tag)) ∧ (op = 5 → bad (.erase tag))) ∧
      (∀ g, k.info = some g → c.pkt.fld 32 1 ≤ g.rrSteps →
        (r.ok a g true true false = false → op = 1 → bad (.readRaw tag)) ∧
        (k.state = 3 → (op = 4 → bad (.programRaw tag)) ∧ (op = 5 → bad (.erase tag))) ∧
        (k.state = 3 ∨ k.state = 5 →
          (r.ok a g true true true = true → op = 0 →
            let at' := s.sectorAt (mediaAddr r.sector r.page r.block r.die r.chan 0)
            (at' = none → s.rootSector r g = none →
              ∃ t, exec (.readSector tag) s = .next t ∧ Answered s t c .unrecoveredRead 0 0 0) ∧
            (∀ x, at' = some x ∨ (at' = none ∧ s.rootSector r g = some x) →
              ∃ t, exec (.readSector tag) s = .next t ∧ (Answered s t c .unrecoveredRead 0 0 0 ∨
                Delivered s t c x.stored ∧ Answered s t c .ok 0 0 0))) ∧
          (r.ok a g true true false = true → op = 1 → gives (.readRaw tag) fun b => b.length = c.pkt.dataLen) ∧
          (r.ok a g false false false = true →
            (op = 2 → gives (.readParam tag) fun b => b.length = 256) ∧
            (op = 3 → gives (.readId tag) fun b => b.length = 16 ∧ b.take 1 = leBytes 1 g.jedec ∧
              b.drop 8 = [0x4F#8, 0x4E#8, 0x46#8, 0x49#8, 0, 0, 0, 0]))) ∧
        (k.state = 5 → s.modes.powerFail = true →
          (r.ok a g true true false = true → op = 4 → exec (.programRaw tag) s = .next s) ∧
          (r.ok a g true false false = true → op = 5 → exec (.erase tag) s = .next s)) ∧
        (k.state = 5 → s.modes.powerFail = false →
          (r.ok a g true true false = true → op = 4 → ∃ t, exec (.programRaw tag) s = .next t ∧ Answered s t c .ok 0 0 0 ∧
            (t.card r.slot).programs = k.programs + 1 ∧ (t.card r.slot).powered = false ∧ t.flash.sectors = s.flash.sectors) ∧
          (r.ok a g true false false = true → op = 5 → ∃ t, exec (.erase tag) s = .next t ∧ Answered s t c .ok 0 0 0 ∧
            (t.card r.slot).erases = k.erases + 1 ∧ (t.card r.slot).powered = false ∧ t.flash.sectors = s.flash.sectors)))) ∧
    (Turn s tag 0xFC c →
      ((∀ d2, s.keys.device.look 2 = some d2 → ¬token d2) →
        ∃ t, exec (.sanitize tag) s = .next t ∧ Answered s t c .notPermitted 0 0 0 ∧ t.flash.nonce = s.free ∧ KeepsData s t) ∧
      (∀ d2, s.keys.device.look 2 = some d2 → token d2 →
        ∃ t, exec (.sanitize tag) s = .next t ∧ t.boot.ops = s.boot.ops ++ [.keyRecord ⟨0, true, s.keys.record⟩ (some c.tag)] ∧
          t.flash.nonce = s.free ∧ t.tx = s.tx ∧ t.flash.sectors = s.flash.sectors)) ∧
    (∀ q : Packet, q.opcode = 0xFB ∨ q.opcode = 0xFC → s.modes.mode ≠ .maintenance →
      s.modeCheck q = some ⟨.wrongMode, 8, 0xFFFF⟩) ∧
    (Turn s tag 0x04 c → c.pkt.aux = 1 → s.usable c.port c.fn = true →
      (c.fn ≠ 0 → ∃ t, exec (.getLogHealth tag) s = .next t ∧ Answered s t c .notPermitted 0 0 0 ∧ KeepsData s t) ∧
      (c.fn = 0 → c.pkt.fld 24 8 ≠ 0 → ∃ t, exec (.getLogHealth tag) s = .next t ∧ Answered s t c .invalidField 0 0 0 ∧ KeepsData s t) ∧
      (c.fn = 0 → c.pkt.fld 24 8 = 0 → ∃ t, exec (.getLogHealth tag) s = .next t ∧ KeepsData s t ∧
        Delivered s t c (s.healthSummary.take c.pkt.dataLen) ∧ Answered s t c .ok (min 4096 c.pkt.dataLen) 0 0))

/-! ## Firon Link -/

/-- 12 R411, R415 to R419, R423; 09 R316, R329: a frame that fails a check has no effect but its counter; while D1 is empty none
passes, and none passes from a member that is Absent or Lost. A frame whose MAC, IPv6 or UDP header is not as it must be fails
first. A heartbeat that fails at its session only still tells that its sender has started again. A frame waits while the bank of
its lookup is held; while the link does not run, a frame that passes is counted as admitted and does nothing.
Model's choices in it: log entries 158, 162. -/
def Obligations.FrameChecks : Prop :=
  ∀ (s : State) (f : RxFrame),
    let h := rxHeader f
    let frames := [Instr.heartbeat f, .ack f, .shardPut f, .shardDurable f, .shardGet f, .shardData f, .shardRelease f, .releaseDone f,
      .repairReq f, .repairDone f, .vrecPull f, .vrecList f]
    let drops (r : RxResult) (i : Nat) : Prop := s.checkFrame f = r → ∃ t, exec (.frameDropped f) s = .next t ∧ Counted s t .flCnt i ∧
      t.cmds = s.cmds ∧ t.versions = s.versions ∧ t.keys = s.keys ∧ t.firon.shards = s.firon.shards
    ((s.awake = false ∨ s.frameWaits f = true ∨ ∀ x, s.checkFrame f ≠ .fine x) → ∀ i ∈ frames, exec i s = .next s) ∧
    (s.linkRuns = false → ∀ i ∈ frames, exec i s = .next s ∨ exec i s = .next (s.bump .svCnt 2)) ∧
    (s.linkRuns = false → s.awake = true → s.frameWaits f = false → s.checkFrame f = .fine h → h.type = 1 →
      exec (.heartbeat f) s = .next (s.bump .svCnt 2)) ∧
    (s.groupKey = none → ∀ x, s.checkFrame f ≠ .fine x) ∧
    (∀ x, s.checkFrame f = .fine x → x = h ∧ f.fcsOk = true ∧ ipFine f = true ∧ udpFine f = true ∧
      f.mac.length + f.ip.length + f.udp.length + f.bytes.length + 4 ≤ 9216 ∧ fieldBe f.udp 2 2 = s.firon.selfCfg.udpPort ∧
      s.admission f = some h.src ∧ h.dst = s.firon.member ∧ h.group = s.firon.selfCfg.groupId ∧ s.tagOk f.bytes = true ∧
      (s.peer h.src).st ≠ 0 ∧ (s.peer h.src).st ≠ 3 ∧ (h.type ≠ 1 → h.dstSession = s.firon.session ∧ h.srcSession = (s.peer h.src).session) ∧
      (reliable h.type = true → (s.peer h.src).ackRcv < h.seq ∧ h.seq ≤ (s.peer h.src).ackRcv + 4096 ∧ h.seq ∉ (s.peer h.src).rcvd)) ∧
    (s.wireFine f = false → s.checkFrame f = .failed 1) ∧
    (s.wireFine f = true → fieldBe f.udp 2 2 ≠ s.firon.selfCfg.udpPort → s.checkFrame f = .notFiron) ∧
    (s.awake = false ∨ s.frameWaits f = true → exec (.frameDropped f) s = .next s) ∧
    (s.awake = true → s.frameWaits f = false →
      drops .notFiron 11 ∧ drops (.failed 1) 2 ∧ drops (.failed 2) 2 ∧ drops (.failed 3) 2 ∧ drops (.failed 4) 2 ∧ drops (.failed 5) 3 ∧
      (h.type ≠ 1 ∨ h.srcSession = (s.peer h.src).session → drops (.failed 6) 5) ∧ drops (.failed 7) 4 ∧
      (s.checkFrame f = .failed 6 → h.type = 1 → h.srcSession ≠ (s.peer h.src).session → ∃ t, exec (.frameDropped f) s = .next t ∧
        Counted s t .flCnt 5 ∧ t.cmds = s.cmds ∧ (t.peer h.src).session = h.srcSession ∧ (t.peer h.src).ackRcv = 0 ∧ (t.peer h.src).rcvd = []))

/-- 12 R411, R412, R417, R419 to R423: sessions, acknowledgement, heartbeats, votes and links. A heartbeat goes to every member that
is neither Absent nor Lost on every port that is up; another frame goes on the next of the ports that are up.
Model's choices in it: log entries 100, 158. -/
def Obligations.FironSessions : Prop :=
  (∀ (s : State) (f : RxFrame) (h : Rx),
    (Received s f h 0x01 → ∃ t, exec (.heartbeat f) s = .next t ∧ VotesCounted t ∧
      (t.peer h.src).upMask = BitVec.ofNat 32 (fieldBe h.payload 0 4) ∧ (t.peer h.src).lostVote = BitVec.ofNat 32 (fieldBe h.payload 4 4) ∧
      (t.peer h.src).vote = false ∧ (t.peer h.src).session = h.srcSession ∧
      (h.srcSession ≠ (s.peer h.src).session → (t.peer h.src).ackRcv = 0 ∧ (t.peer h.src).rcvd = [])) ∧
    (Received s f h 0x02 → (∀ x ∈ (s.peer h.src).unacked, x.seq < (s.peer h.src).nextSeq) → ∃ t, exec (.ack f) s = .next t ∧
      ∀ x ∈ (s.peer h.src).unacked,
        (x.seq ≤ h.ack ∨ x.seq ∈ sackSeqs h.payload → ∀ y ∈ (t.peer h.src).unacked, y.seq ≠ x.seq) ∧
        (h.ack < x.seq → x.seq ∉ sackSeqs h.payload →
          ∃ y ∈ (t.peer h.src).unacked, y.seq = x.seq ∧ y.type = x.type ∧ y.payload = x.payload))) ∧
  (∀ (s : State),
    (s.linkRuns = true → ∃ t l, exec .heartbeatSend s = .next t ∧ t.tx = s.tx ++ l ∧
      (∀ p < 32, Alive s p → ∀ e < 4, s.firon.links.lookD e false = true → ∃ x ∈ l, FrameTo s e p 1 x) ∧
      ∀ x ∈ l, ∃ p e, (s.peer p).st ≠ 0 ∧ (s.peer p).st ≠ 3 ∧ s.firon.links.lookD e false = true ∧ FrameTo s e p 1 x) ∧
    (∃ t, exec .keyOverlapExpiry s = .next t ∧ t = { s with keys := { s.keys with prevD1 := none } })) ∧
  (∀ (s : State) (m : Fin 32),
    let p := s.peer m
    (p.sinceAck = 0 → exec (.ackTimer m) s = .next s) ∧
    (0 < p.sinceAck → ∃ t, exec (.ackTimer m) s = .next t ∧ (t.peer m).sinceAck = 0 ∧ (t.peer m).ackRcv = p.ackRcv ∧
      (s.linkRuns = true → ∀ e, s.nextPort m = some e → s.firon.links.lookD e false = true ∧ (t.peer m).nextEth = (e + 1) % 4 ∧
        ∃ x, t.tx = s.tx ++ [x] ∧ FrameTo s e m 2 x)) ∧
    (∀ seq x, s.linkRuns = true → p.unacked.find? (fun x => x.seq == seq) = some x → ∃ t y, exec (.retransmitTimeout m seq) s = .next t ∧
      (t.peer m).unacked.find? (fun x => x.seq == seq) = some y ∧ y = { x with sends := x.sends + 1 } ∧
      (x.sends + 1 = s.regBits .flCfg 0 23 20 → (t.peer m).late = true)) ∧
    (∃ t, exec (.peerSuspect m) s = .next t ∧ t.peer m = { p with st := if p.st = 1 then 2 else p.st } ∧ t.tx = s.tx ∧ t.cmds = s.cmds) ∧
    (Alive s m → s.linkRuns = true → ∃ t, exec (.lossVote m) s = .next t ∧ (t.peer m).vote = true ∧ VotesCounted t) ∧
    (p.st = 0 ∨ p.st = 3 → exec (.lossVote m) s = .next s)) ∧
  (∀ (s : State) (e : Fin 4),
    (s.firon.links.lookD e false = false → exec (.ethLinkDown e) s = .next s) ∧
    (s.firon.links.lookD e false = true → ∃ t, exec (.ethLinkDown e) s = .next t ∧ t.firon.links.lookD e false = false ∧
      t.firon.linkDown.lookD e false = true ∧ t.firon.peers = s.firon.peers ∧ t.tx = s.tx) ∧
    (s.awake = true → s.modes.serdesLock.lookD (2 + e) true = true → ∃ t, exec (.ethLinkUp e) s = .next t ∧
      t.firon.links.lookD e false = true ∧ t.firon.peers = s.firon.peers ∧ t.tx = s.tx))

/-- 12 R428 to R431: shards. A SHARD_PUT chunk is kept, the last one has the shard placed as 64 sectors under D3, and a shard that is
durable already is answered so; SHARD_DURABLE takes it off the origin's list, and a commit whose shards are all durable goes on;
SHARD_GET is answered chunk by chunk; SHARD_DATA reaches the gathers that asked; SHARD_RELEASE drops the version; the limits of
commits and reads end them.
Model's choices in it: log entry 99. -/
def Obligations.ShardFrames : Prop :=
  ∀ (s : State) (f : RxFrame) (h : Rx),
    let key := h.payload.take 32
    let i := fieldLe h.payload 32 1
    let body := h.payload.drop 64
    let data := if i = 0 then body.drop 160 else body
    let vrec (old : List Byte) := if i = 0 then body.take 160 else old
    let coded : Prop := ∀ x ∈ s.commits, x.phase = .shards → x.ver.group.isSome = true
    (Received s f h 0x10 →
      (s.shard? key = none → ∃ t, exec (.shardPut f) s = .next t ∧ Accepted s t h ∧
        t.shard? key = some ⟨key, [(i, data)], vrec [], false, false, [], .tellOrigin⟩) ∧
      (∀ x, s.shard? key = some x → x.durable = true → Alive s (keyOrigin key) →
        ∃ t, exec (.shardPut f) s = .next t ∧ Accepted s t h ∧ Queued t (keyOrigin key) 0x11 (key ++ leBytes 2 0 ++ zeros 6)) ∧
      (∀ x, s.shard? key = some x → x.durable = false →
        let c := x.chunks.put i data
        (c.length < 32 → ∃ t, exec (.shardPut f) s = .next t ∧ Accepted s t h ∧
          t.shard? key = some { x with chunks := c, vrec := vrec x.vrec }) ∧
        (32 ≤ c.length → x.placed = false → vrec x.vrec ≠ [] → fieldLe (vrec x.vrec) 6 1 < 16 → s.readOnlyOn = false →
          s.spaceFor 262144 = none → EmptyRow s (keyStripe key % 4) .host (s.classParity (fieldLe (vrec x.vrec) 6 1) == 3) →
          ∃ t g, exec (.shardPut f) s = .next t ∧ Accepted s t h ∧ InRow t g ∧ g.owner = .shard key ∧
            (t.shard? key).map Shard.placed = some true ∧ (∀ y ∈ g.sectors, y.1.kind = 2 ∧ y.1.devKey = true) ∧
            g.sectors.map Prod.snd = (List.range 64).map fun j => sliceB (chunkBytes c) (4096 * j) 4096))) ∧
    (Received s f h 0x11 → coded →
      (fieldLe h.payload 32 2 = 0 → ∃ t, exec (.shardDurable f) s = .next t ∧ Accepted s t h ∧ key ∉ t.firon.pendingShards ∧
        ∀ c ∈ s.commits, ∀ g, c.phase = .shards → c.ver.group = some g →
          (∀ n < g.stripes, ∀ j < g.k + g.m, shardKey (s.keyOf c.ver) n j ∈ s.firon.pendingShards →
            shardKey (s.keyOf c.ver) n j = key) →
          { c with phase := .waiting } ∈ t.commits) ∧
      (fieldLe h.payload 32 2 ≠ 0 → ∃ t, exec (.shardDurable f) s = .next t ∧ Accepted s t h ∧
        t.firon.pendingShards = s.firon.pendingShards ∧ t.commits = s.commits)) ∧
    (Received s f h 0x12 →
      (s.shard? key = none → ∃ t, exec (.shardGet f) s = .next t ∧ Accepted s t h ∧ t.firon.shards = s.firon.shards) ∧
      (∀ x, s.shard? key = some x → x.durable = true → s.shardReadable x = true → ∃ t, exec (.shardGet f) s = .next t ∧ Accepted s t h ∧
        ∀ j < fieldLe h.payload 33 1, Queued t h.src 0x13 (chunkDesc key (i + j) ++ x.chunks.lookD (i + j) (zeros 8192)))) ∧
    (Received s f h 0x13 → (s.firon.gathers.map Gather.id).Nodup → ∀ g ∈ s.firon.gathers, g.key.take 31 = key.take 31 →
      keyShard key ∈ g.asked →
      let g' := { g with got := g.got.upd (keyShard key) [] fun c => AMap.put c i body }
      ∃ t, exec (.shardData f) s = .next t ∧ Accepted s t h ∧ (g'.enough = false → g' ∈ t.firon.gathers) ∧
        (g'.enough = true → ∀ y ∈ t.firon.gathers, y.id ≠ g.id)) ∧
    (Received s f h 0x14 → ∃ t, exec (.shardRelease f) s = .next t ∧ Accepted s t h ∧ Queued t h.src 0x15 key ∧
      ∀ x, x ∈ t.firon.shards ↔ x ∈ s.firon.shards ∧ x.key.take 28 ≠ key.take 28) ∧
    (Received s f h 0x15 → ∃ t, exec (.releaseDone f) s = .next t ∧ Accepted s t h ∧
      ∀ r, r ∈ t.firon.releases ↔ r ∈ s.firon.releases ∧ r ≠ (h.src, key)) ∧
    (∀ id c g, s.commits.find? (fun c => c.id == id) = some c → c.ver.group = some g → c.phase = .shards →
      (s.atQuorum g (s.keyOf c.ver) = true → exec (.quorumTimeout id) s = .next (s.modCommit id fun c => { c with phase := .waiting })) ∧
      (∀ tag k, s.atQuorum g (s.keyOf c.ver) = false → s.commits = [c] → c.owner = .cmd tag → s.cmd? tag = some k → Live s k →
        ∃ t, exec (.quorumTimeout id) s = .next t ∧ Answered s t k .groupQuorum 0 0 0 ∧ t.commits = [] ∧ StreamGone t c.handle)) ∧
    (∀ id g, s.gather? id = some g →
      (g.enough = false → ∀ tag n c, g.owner = .cmd tag n → s.cmd? tag = some c → Live s c →
        ∃ t, exec (.readGatherTimeout id) s = .next t ∧ Answered s t c .peerUnreachable 0 0 0) ∧
      (∀ n, g.got = [] → 0 < g.info.k → s.firon.shards = [] → g.asked.Nodup → (∀ a ∈ g.asked, a < g.info.k + g.info.m) →
        n < g.info.k + g.info.m → n ∉ g.asked →
        let k := shardKey (g.key.take 28) (keyStripe g.key) n
        let p := s.holderOf g.info k
        p ≠ s.firon.member → (s.peer p).st = 1 → (s.peer p).late = false →
        ∃ t g', exec (.shardReadTimeout id) s = .next t ∧ t.gather? id = some g' ∧ n ∈ g'.asked ∧ Queued t p 0x12 (k ++ [0, 32] ++ zeros 6)))

/-- 12 R418, R423, R433 to R436: repair, adoption and GROUP_CONFIG.
Model's choices in it: log entries 98, 100, 162. -/
def Obligations.GroupMembers : Prop :=
  (∀ (s : State) (f : RxFrame) (h : Rx),
    let key := h.payload.take 32
    (Received s f h 0x20 →
      (∀ x, s.shard? key = some x → x.durable = true → ∃ t, exec (.repairReq f) s = .next t ∧ Accepted s t h ∧
        Queued t h.src 0x21 (key ++ leBytes 1 s.firon.member ++ zeros 7)) ∧
      (s.shard? key = none → ∃ t, exec (.repairReq f) s = .next t ∧ Accepted s t h ∧
        (key ∈ t.firon.repairs ∨ ∃ g ∈ s.firon.gathers, g.owner = .repair h.src ∧ g.key = key))) ∧
    (Received s f h 0x21 → (∀ x ∈ s.commits, x.phase = .shards → x.ver.group.isSome = true) →
      let p := fieldLe h.payload 32 1
      ∃ t, exec (.repairDone f) s = .next t ∧ Accepted s t h ∧ (∀ g, t.holderOf g key = p) ∧ key ∉ t.firon.repairs ∧
        key ∉ t.firon.pendingShards ∧ (p ≠ s.firon.member → t.shard? key = none)) ∧
    (Received s f h 0x30 →
      let all := s.vrecsOf (fieldLe h.payload 0 1)
      let lo := fieldLe h.payload 8 32
      let part := (all.drop lo).take 56
      ∃ t, exec (.vrecPull f) s = .next t ∧ Accepted s t h ∧ Queued t h.src 0x31 (leBytes 2 part.length ++ zeros 6 ++ part.flatten ++
        leBytes 32 (if lo + part.length < all.length then lo + part.length else 0))) ∧
    (Received s f h 0x31 → Calm s →
      let n := fieldLe h.payload 0 2
      let recs := (List.range n).map fun j => sliceB h.payload (8 + 160 * j) 160
      let cursor := (h.payload.drop (8 + 160 * n)).take 32
      (s.firon.adopting = none → ∃ t, exec (.vrecList f) s = .next t ∧ Accepted s t h ∧ t.firon.vrecs = s.firon.vrecs) ∧
      (∀ tag, s.firon.adopting = some tag → allZero cursor = false → ∃ t, exec (.vrecList f) s = .next t ∧ Accepted s t h ∧
        t.firon.vrecs = s.firon.vrecs ++ recs ∧ Queued t h.src 0x30 (leBytes 1 s.firon.member ++ zeros 7 ++ cursor)) ∧
      (∀ tag c b, s.firon.adopting = some tag → allZero cursor = true → s.firon.vrecFrom = [h.src] → s.firon.vrecs ++ recs = [b] →
        s.cmd? tag = some c → Live s c → c.pkt.opcode = 0xFE → ∃ t, exec (.vrecList f) s = .next t ∧ Answered s t c .ok 0 0 0 ∧
          t.firon.adopting = none ∧ vrecVersion b ∈ t.versions))) ∧
  (∀ (s : State) (tag : Nat) (c : Cmd), Turn s tag 0xFE c → Calm s → NoGroupWork s →
    let op := c.pkt.aux % 8
    let p := c.pkt.fld 24 1
    let done (i : Instr) (st : Status) (q : State → Prop) : Prop := ∃ t, exec i s = .next t ∧ Answered s t c st 0 0 0 ∧ q t
    (op = 0 →
      (s.firon.enabled = true ∨ selfOk c.data = false → done (.setSelf tag) .invalidField fun t => t.firon = s.firon) ∧
      (s.firon.enabled = false → selfOk c.data = true → done (.setSelf tag) .ok fun t => t.firon.member = p ∧
        t.firon.selfCfg = selfOf c.data ∧ (t.peer p).st = 0)) ∧
    (op = 1 →
      (p = s.firon.member → done (.setMember tag) .invalidField fun t => t.firon = s.firon) ∧
      (p ≠ s.firon.member → zeroAt c.data 48 16 = true → (∀ j < 4, zeroAt c.data (22 + 8 * j) 2 = true) →
        done (.setMember tag) .ok fun t => (t.peer p).addr = (memberOf c.data).addr ∧ (t.peer p).macs = (memberOf c.data).macs ∧
          (t.peer p).st = if (s.peer p).st = 3 then 3 else 2)) ∧
    (op = 2 → done (.removeMember tag) .ok fun t => (t.peer p).st = 0) ∧
    (op = 3 → (s.groupKey = none → done (.groupConfigEnable tag) .notPermitted fun t => t.firon = s.firon) ∧
      (s.groupKey ≠ none → done (.groupConfigEnable tag) .ok fun t => t.firon.enabled = true ∧ t.firon.session ≠ 0 ∧
        t.firon.selfLost = false ∧ ∀ q < 32, (t.peer q).st = (s.peer q).st ∧ ((s.peer q).st ≠ 0 → (t.peer q).ackRcv = 0))) ∧
    (op = 4 → done (.groupConfigDisable tag) .ok fun t => t.firon.enabled = false) ∧
    (op = 5 →
      (s.firon.adopting ≠ none → done (.adopt tag) .invalidField fun t => t.firon = s.firon) ∧
      (∀ q, s.firon.adopting = none → q < 32 → q ≠ p → Alive s q → ∃ t, exec (.adopt tag) s = .next t ∧ t.firon.adopting = some tag ∧
        t.firon.member = p ∧ t.tx.take s.tx.length = s.tx ∧ (t.cmd? tag).map Cmd.launched = some true ∧
        Queued t q 0x30 (leBytes 1 p ++ zeros 39))))

/-! ## Power, reset and start-up -/

/-- 13 R438, R458 to R460; 15 R489, R492 to R494; 01 R22: power and reset. Auxiliary power leads to Standby and its loss to Off; a
power failure, a brown-out and RESET_N enter Power-Fail from M2 to M10; PARK resets the device, which starts again under R460 or
with RESET_N; a loss of the root lock resets it, and one of a SerDes lock takes one link down.
Model's choices in it: log entries 20, 21, 22, 26, 25, 123. -/
def Obligations.PowerAndReset : Prop :=
  ∀ (s : State),
    let m := s.modes
    (m.auxOn = true → exec .auxPowerOn s = .next s) ∧
    (m.auxOn = false → ∃ t, exec .auxPowerOn s = .next t ∧ t.modes.mode = .standby ∧ t.modes.auxOn = true ∧ t.modes.cause = 0 ∧
      t.modes.rootLol = false ∧ t.modes.lolCount = 0 ∧ t.flash = s.flash ∧ t.boot = s.boot ∧ t.versions = s.versions) ∧
    (m.auxOn = false → exec .auxPowerLoss s = .next s ∧ exec .pwrFailAssert s = .next s) ∧
    (m.auxOn = true → ∃ t, exec .auxPowerLoss s = .next t ∧ WasReset s t ∧ t.modes.mode = .off ∧ t.modes.auxOn = false ∧ t.eid = 0 ∧
      t.dynAddr = none) ∧
    (m.auxOn = true →
      (CanFail s → ∃ t, exec .pwrFailAssert s = .next t ∧ Failing s t 3 ∧ t.modes.pwrFailN = false) ∧
      (¬CanFail s → exec .pwrFailAssert s = .next { s with modes := { m with pwrFailN := false } })) ∧
    (m.resetN = false → exec .resetNAssert s = .next s) ∧
    (m.resetN = true →
      (CanFail s → ∃ t, exec .resetNAssert s = .next t ∧ Failing s t 1 ∧ t.modes.resetN = false) ∧
      (¬CanFail s → exec .resetNAssert s = .next { s with modes := { m with resetN := false } })) ∧
    (∀ r : Fin 12,
      (r ≠ 11 → m.pwrFailN = true → CanFail s → ∃ t, exec (.brownOut r) s = .next t ∧ Failing s t 3) ∧
      (r = 11 ∨ m.pwrFailN = false ∨ ¬CanFail s → exec (.brownOut r) s = .next s)) ∧
    (∀ r rest, s.boot.ops = .parkRecord r :: rest → exec .parkRecordProgrammed s =
      .next { s with
        boot := { s.boot with ops := rest, parks := s.boot.parks ++ [r] }
        tx := s.tx ++ [.spiWrite (0x20000 + 64 * s.boot.parks.length) r.bytes] }) ∧
    ((∀ r rest, s.boot.ops ≠ .parkRecord r :: rest) → exec .parkRecordProgrammed s = .next s) ∧
    (∀ aux, m.mode ≠ .powerFail ∨ (∃ r rest, s.boot.ops = .parkRecord r :: rest) ∨ (∃ o ∈ s.flash.ops, o.run = true ∧ o.rank = 1) →
      exec (.park aux) s = .next s) ∧
    (m.mode = .powerFail → (∀ r rest, s.boot.ops ≠ .parkRecord r :: rest) → (∀ o ∈ s.flash.ops, o.run = true → o.rank ≠ 1) →
      (∃ t, exec (.park false) s = .next t ∧ WasReset s t ∧ t.modes.mode = .off ∧ t.modes.auxOn = false) ∧
      (m.pwrFailN = false ∨ m.nextCause = 3 → ∃ t, exec (.park true) s = .next t ∧ WasReset s t ∧ t.modes.mode = .standby ∧
        t.modes.parked = true) ∧
      (m.pwrFailN = true → m.nextCause ≠ 3 → m.resetN = false → ∃ t, exec (.park true) s = .next t ∧ WasReset s t ∧
        t.modes.mode = .standby ∧ t.modes.parked = false) ∧
      (m.pwrFailN = true → m.nextCause ≠ 3 → m.auxOn = true → m.resetN = true → m.rootLost = false →
        ∃ t, exec (.park true) s = .next t ∧ WasReset s t ∧ Started s t m.nextCause)) ∧
    (m.mode ≠ .standby ∨ m.parked = false → exec .powerRestart s = .next s) ∧
    (m.mode = .standby → m.parked = true →
      (m.auxOn = true → m.resetN = true → m.rootLost = false → ∃ t, exec .powerRestart s = .next t ∧ Started s t m.nextCause) ∧
      (m.resetN = false → exec .powerRestart s =
        .next { s with modes := { m with parked := false, pwrFailN := true, mainOk := true } })) ∧
    (m.auxOn = false ∨ m.rootLost = true ∨ m.mode = .standby ∧ m.rootLock = false → exec .rootLol s = .next s) ∧
    (m.auxOn = true → m.rootLost = false →
      let seen (t : State) : Prop := t.modes.rootLost = true ∧ t.modes.rootLock = false ∧ t.modes.rootLol = true ∧
        t.modes.lolCount = min (m.lolCount + 1) 255 ∧ t.modes.mode = .standby
      (m.mode ≠ .standby → ∃ t, exec .rootLol s = .next t ∧ WasReset s t ∧ seen t ∧ t.modes.nextCause = 2) ∧
      (m.mode = .standby → m.rootLock = true → ∃ t, exec .rootLol s = .next t ∧ seen t ∧ t.modes.nextCause = m.nextCause ∧ KeepsData
        { s with modes := t.modes } t)) ∧
    (m.rootLost = false → exec .rootLockRegained s = .next s) ∧
    (m.rootLost = true → ∃ t, exec .rootLockRegained s = .next t ∧ t.modes.rootLock = true ∧ t.modes.rootLost = false ∧
      (m.mode = .standby → m.auxOn = true → m.resetN = true → m.parked = false → Started s t m.nextCause)) ∧
    (∀ p : Fin 6, s.serdesRuns p = true → m.serdesLock.lookD p true = true → ∃ t, exec (.serdesLol p) s = .next t ∧
      t.modes.serdesLock.lookD p true = false ∧ t.modes.serdesLol = true ∧ t.cmds = s.cmds ∧ t.qps = s.qps ∧
      (p.val < 2 → (t.hp (portOf p)).up = false) ∧ (2 ≤ p.val → t.firon.links.lookD (p - 2) false = false)) ∧
    (∀ p : Fin 6, s.serdesRuns p = true → ∃ t, exec (.serdesLockRegained p) s = .next t ∧ t.modes.serdesLock.lookD p true = true ∧
      t.cmds = s.cmds)

/-- 13 R443, R445, R448, R450 to R452, R461; 08 R289; 10 R372, R377: start-up. The release of RESET_N samples the straps and runs
Starter, which halts on a bad fuse, self-test or boot flash, and otherwise loads the firmware of the selected slot, the keys and
the configuration; Discovery identifies the cards; Rebuild ends in the first mode whose condition holds.
Model's choices in it: log entries 27, 24, 28, 41, 80. -/
def Obligations.StartUp : Prop :=
  ∀ (s : State),
    let m := s.modes
    (∀ rep : StarterReport, (m.auxOn = false ∨ m.resetN = true → exec (.resetNRelease rep) s = .next s) ∧
      (m.auxOn = true → m.resetN = false → (m.mode = .standby ∨ m.mode = .starter) → m.parked = false → m.rootLost = false → m.halt = false →
        ∃ t, exec (.resetNRelease rep) s = .next t ∧ Started s t m.nextCause ∧ t.modes.resetN = true ∧ t.bifHigh = rep.bifPin ∧
          t.mgmtSel = rep.mgmtSelPin ∧
          (rep.fuseOk = false → t.modes.halt = true ∧ t.modes.haltCode = 4) ∧
          (rep.fuseOk = true → rep.selfTestOk = false → t.modes.halt = true ∧ t.modes.haltCode = 3) ∧
          (rep.fuseOk = true → rep.selfTestOk = true → rep.sfdpOk = false → t.modes.halt = true ∧ t.modes.haltCode = 1) ∧
          (rep.fuseOk = true → rep.selfTestOk = true → rep.sfdpOk = true → ∀ b i, s.boot.slot (min s.boot.named 1) = some b →
            { s with cfg := { s.cfg with svnFused := t.cfg.svnFused, revoked := t.cfg.revoked } }.fwCheck b = .ok i →
            t.modes.halt = false ∧ t.cfg.fwActive = i ∧ t.cfg.fwSlot = min s.boot.named 1 ∧ t.keys.d3Loaded = true ∧
            (∀ a x, s.boot.cfgA = some a → cfgCheck a = .ok x → t.cfg.source = 0 ∧ t.cfg.image = x) ∧
            (s.boot.cfgA = none → ∀ a x, s.boot.cfgB = some a → cfgCheck a = .ok x → t.cfg.source = 1 ∧ t.cfg.image = x) ∧
            (s.boot.cfgA = none → s.boot.cfgB = none → t.cfg.source = 2 ∧ t.modes.cfgDefaulted = true) ∧
            (∀ r, s.boot.keyRec = some r → t.keys.device = r.keys.filterMap fun e => (unwrapDevice e.2).map fun k => (e.1, k))))) ∧
    (∀ ms, m.mode ≠ .starter ∨ s.keys.d3Loaded = false ∨ m.halt = true → exec (.discoveryStart ms) s = .next s) ∧
    (∀ ms, m.mode = .starter → s.keys.d3Loaded = true → m.halt = false → m.powerFail = false → m.running = false →
      ∃ t, exec (.discoveryStart ms) s = .next t ∧ t.modes.mode = .discovery ∧ t.modes.timeMs.lookD 0 0 = ms ∧
        ∀ n < 24, (s.card n).present = true → (t.card n).state = 1 ∧ (t.card n).powered = true) ∧
    (∀ ms, m.mode ≠ .discovery ∨ (∃ n < 24, (s.card n).state = 1) → exec (.discoveryComplete ms) s = .next s) ∧
    (∀ ms, m.mode = .discovery → (∀ n < 24, (s.card n).state ≠ 1) → m.powerFail = false → m.running = false →
      ∃ t, exec (.discoveryComplete ms) s = .next t ∧ t.modes.mode = .rebuild ∧ t.modes.locked = true ∧ t.modes.timeMs.lookD 1 0 = ms) ∧
    (∀ ms, m.mode ≠ .rebuild → exec (.rebuildComplete ms) s = .next s) ∧
    (∀ ms, m.mode = .rebuild → m.powerFail = false → s.sanitizeDue = false → ∃ t, exec (.rebuildComplete ms) s = .next t ∧
      t.modes.running = true ∧ t.modes.mode = t.modeNow ∧ t.modes.timeMs.lookD 2 0 = ms ∧ t.flash.health.lastRebuildMs = ms) ∧
    (∀ ms, m.mode = .rebuild → s.sanitizeDue = true → s.flash.sets ≠ [] → exec (.rebuildComplete ms) s = .next s) ∧
    (∀ ms, m.mode = .rebuild → m.powerFail = false → m.quiesceOn = false → s.sanitizeDue = true → s.flash.sets = [] →
      ∃ t, exec (.rebuildComplete ms) s = .next t ∧ t.modes.mode = .maintenance ∧ t.modes.sanitizeResumed = true ∧ t.sanitizeDue = false)

/-! ## Housekeeping, faults and event records -/

/-- 14 R463, R464, R469, R473 to R479; 11 R386; 15 R501: the housekeeping round reads one channel a visit, in order; its end evaluates
the warning, the step and the trip from the highest junction temperature; a control core whose watchdog fires is reset, and three
that fail reset the device; an erasure-code unit that fails stays out; an SRAM block that cannot be read fails its unit.
Model's choices in it: log entries 29, 30, 31, 32, 33, 34, 35, 36, 37, 38, 39. -/
def Obligations.Housekeeping : Prop :=
  ∀ (s : State),
    (∀ (k : Fin 128) (x : Option Int), s.housekeeps = false ∨ s.hk.next ≠ k.val → exec (.housekeepingVisit k x) s = .next s) ∧
    (∀ (k : Fin 128) (x : Option Int), s.housekeeps = true → s.hk.next = k.val → ∃ t, exec (.housekeepingVisit k x) s = .next t ∧
      t.hk.next = k.val + 1 ∧
      (k.val < 48 → x = none → (t.sensor k).failed = true ∧ (t.sensor k).temp = (s.sensor k).temp) ∧
      (∀ c : Int, k.val < 48 → x = some c →
        let cal := (Config.hkCal k).toNat
        let c1 : Int := bitsOf cal 15 0
        let c2 : Int := bitsOf cal 31 16
        let t1 := signed8 (bitsOf cal 39 32)
        let t2 := signed8 (bitsOf cal 47 40)
        let y := t.sensor k
        y.count = (c % 65536).toNat ∧ y.read = true ∧ ((s.sensor k).failed = true → y.failed = true) ∧
        (y.temp < -220 ∨ 600 < y.temp → y.failed = true) ∧
        (c1 < c2 → 2 * (y.temp * (c2 - c1) - 4 * (t1 * (c2 - c1) + (c - c1) * (t2 - t1))) ≤ c2 - c1 ∧
          -(c2 - c1) ≤ 2 * (y.temp * (c2 - c1) - 4 * (t1 * (c2 - c1) + (c - c1) * (t2 - t1))))) ∧
      (∀ v : Int, 48 ≤ k.val → k.val < 72 → x = some v → (s.card (k.val - 48)).powered = true →
        t.hk.cardTemps.lookD (k.val - 48) CardTemp.init = ⟨if v % 8192 < 4096 then v % 8192 else v % 8192 - 8192, true, 0⟩) ∧
      (∀ v : Int, 72 ≤ k.val → k.val < 80 → x = some v → (s.stack (k.val - 72)).st = 1 → (t.stack (k.val - 72)).temp = v) ∧
      (∀ v : Int, 80 ≤ k.val → k.val < 104 → x = some v →
        let r := (k.val - 80) / 2
        let current := k.val % 2 == 1
        let old := s.hk.rails.lookD r Rail.init
        let new := t.hk.rails.lookD r Rail.init
        (if current then new.current = (v % 65536).toNat ∧ new.mv = old.mv else new.mv = (v % 65536).toNat ∧ new.current = old.current) ∧
        (railBad r current (v % 65536).toNat = true → (if current then old.cBad else old.vBad) = true →
          new.alarm = true ∧ (old.alarm = false → t.hk.evRail = true))) ∧
      (∀ v : Int, 104 ≤ k.val → x = some v → v ≠ 0 → (t.card (k.val - 104)).present = true) ∧
      (104 ≤ k.val → x = some 0 → (t.card (k.val - 104)).present = false)) ∧
    (s.housekeeps = false ∨ s.hk.next ≠ 128 → exec .throttleEvaluation s = .next s) ∧
    (s.housekeeps = true → s.hk.next = 128 → ∃ t, exec .throttleEvaluation s = .next t ∧
      let cool := if t.hk.tj < 392 then min (s.hk.coolRounds + 1) 4 else 0
      let hot := if 440 ≤ t.hk.tj then min (s.hk.hotRounds + 1) 2 else 0
      t.hk.next = 0 ∧ (∀ j ∈ s.junctions, j.2 ≤ t.hk.tj) ∧ (s.junctions ≠ [] → ∃ j ∈ s.junctions, j.2 = t.hk.tj) ∧
      t.hk.warn = decide (380 ≤ t.hk.tj) ∧ t.hk.hotRounds = hot ∧
      t.hk.step = (if 2 ≤ hot then 8 else if 400 ≤ t.hk.tj then min (s.hk.step + 1) 8 else if 4 ≤ cool then s.hk.step - 1 else s.hk.step) ∧
      t.hk.trip = (s.hk.trip || decide (2 ≤ hot)) ∧
      (2 ≤ hot → s.hk.trip = false → ∃ l, t.tx = s.tx ++ l ∧ Tx.pin "THERMTRIP_N" 0 false ∈ l)) ∧
    (∀ c : Fin 4,
      ((s.ccore c).st ≠ 1 → exec (.ccoreWatchdog c) s = .next s) ∧
      ((s.ccore c).st = 1 → ∃ t, exec (.ccoreWatchdog c) s = .next t ∧ (t.ccore c).st = 2 ∧ (t.ccore c).irqs = [] ∧
        (t.ccore c).resets = min ((s.ccore c).resets + 1) 255 ∧ (t.ccore c).core.pc = BitVec.ofNat 32 s.cfg.fwActive.entry ∧
        (t.ccore c).core.priv = true ∧ t.hk.evCcore = true ∧ ∀ d, d ≠ c → t.ccore d = s.ccore d) ∧
      (∀ pass, (s.ccore c).st ≠ 2 → exec (.ccoreSelfTestEnd c pass) s = .next s) ∧
      ((s.ccore c).st = 2 → ((List.range 4).filter fun d => (s.ccore d).st == 3).length < 3 → exec (.ccoreSelfTestEnd c true) s =
        .next (s.modCcore c fun k => { k with st := 1 })) ∧
      ((s.ccore c).st = 2 → ((List.range 4).filter fun d => (s.ccore d).st == 3).length < 2 → exec (.ccoreSelfTestEnd c false) s =
        .next (s.modCcore c fun k => { k with st := 3 })) ∧
      ((s.ccore c).st = 2 → ((List.range 4).filter fun d => (s.ccore d).st == 3).length = 2 →
        ∃ t, exec (.ccoreSelfTestEnd c false) s = .next t ∧ WasReset s t ∧ Started s t 4)) ∧
    (∀ b : Fin 4,
      (s.awake = true → b.val ∉ s.ecuFailed → ∃ t, exec (.ecuFault b) s = .next t ∧ t.ecuFailed = s.ecuFailed ++ [b.val]) ∧
      (s.awake = false ∨ b.val ∈ s.ecuFailed → exec (.ecuFault b) s = .next s)) ∧
    (∀ owner u, exec (.sramScrub owner u true) s = .next s) ∧
    (∀ u, exec (.sramScrub .ctxCache u false) s = .next s ∧
      (u < 1024 → (s.crumb u).online = true → exec (.sramScrub .crumb u false) s = .next (s.crumbFails u)) ∧
      (u < 4 → (s.engine u).st = 1 → ∃ t, exec (.sramScrub .digest u false) s = .next t ∧ (t.engine u).st = 2) ∧
      (u < 4 → ∃ t, exec (.sramScrub .sieve u false) s = .next t ∧ (t.bank u).held = true ∧ (t.bank u).entries = (s.bank u).entries) ∧
      (u < 64 → s.halfOn u true = true → s.halfOn u false = false → exec (.sramScrub .rollerRing u false) s = .next (s.rollerFails u true)))

/-- 14 R482 to R486; 13 R450: the event recorder. A flush makes the records created durable, the oldest giving way where the area is
full, and answers EVENT_CLEAR; the end of a
suppression window records what it dropped; EVR_FETCH reads 128 records into the buffer; EVENT_CLEAR checks its token, and takes
a new nonce whether it passes or not.
Model's choices in it: log entry 40. -/
def Obligations.EventRecords : Prop :=
  ∀ (s : State),
    (s.awake = false → exec .eventRecordFlush s = .next s) ∧
    (s.awake = true → s.evr.clearWait = [] → exec .eventRecordFlush s =
      .next { s with evr := { s.evr with circ := (s.evr.queued ++ s.evr.circ).take 262144, queued := [], clearWait := [] } }) ∧
    (∀ tag n r c, s.awake = true → s.evr.clearWait = [(tag, n, r)] → s.cmd? tag = some c → Live s c →
      ∃ t, exec .eventRecordFlush s = .next t ∧ Answered s t c .ok 0 r 0 ∧ t.evr.clearWait = [] ∧
        ∀ e ∈ s.evr.queued, e ∈ t.evr.circ ∨ t.evr.circ.length = 262144) ∧
    (∀ code source, (s.evr.window code source = none → exec (.suppressionWindowEnd code source) s = .next s) ∧
      (∀ w, s.evr.window code source = some w → ∃ t, exec (.suppressionWindowEnd code source) s = .next t ∧
        t.evr.window code source = none ∧ (w.dropped = 0 → t.evr.ring = s.evr.ring) ∧
        (w.dropped ≠ 0 → t.evr.next = s.evr.next + 1 ∧
          (t.evr.ring.head?.map fun r => (r.number, r.code, r.source, r.data)) =
            some (s.evr.next, 0x0702, code % 65536, (padTo (leBytes 2 source ++ leBytes 4 w.dropped) 8).take 8)))) ∧
    (∀ port v, s.mmio port = true → (s.latch port 0 .bar0).write = none → ∃ t, exec (.evrFetch port v) s = .next t ∧ KeepsData s t ∧
      t.evr = (if s.evr.fetch.isSome then s.evr else { s.evr with fetch := some (v.toNat % 2 ^ 48, v.getLsbD 63) })) ∧
    (s.evr.fetch = none → exec .evrFetchDone s = .next s) ∧
    (∀ first perm, s.evr.fetch = some (first, perm) → ∃ t, exec .evrFetchDone s = .next t ∧ t.evr.fetch = none ∧ t.evr.done = true ∧
      t.evr.buf.length = 128 ∧ ∀ i < 128, t.evr.buf[i]? =
        some ((if perm then s.evr.perm else s.evr.circ).find? fun r => r.number == first + i)) ∧
    (∀ tag c, Turn s tag 0xFA c →
      (∀ k, s.clearCheck c = some k → ∃ t, exec (.eventClear tag) s = .next t ∧ Answered s t c .notPermitted 0 0 0 ∧
        t.evr.nonce = s.free ∧ (s.evr.circ ≠ [] → t.evr.circ ≠ [])) ∧
      (s.clearCheck c = none → ∃ t, exec (.eventClear tag) s = .next t ∧ t.evr.nonce = s.free ∧ t.tx = s.tx ∧
        t.evr.clearWait = s.evr.clearWait ++ [(tag, s.evr.next - 1 + 1, s.evr.next - 1)] ∧ t.evr.perm = s.evr.perm ∧
        (∀ r ∈ t.evr.circ ++ t.evr.queued ++ t.evr.ring, s.evr.next ≤ r.number)))

/-! ## Registers -/

/-- 00 R9, R13; 01 R24; 04 R123; 13 R449, R452, R453: register accesses. No address outside a BAR exists; a width or alignment that a
register does not take reads all ones and writes nothing; a read answers the register, and clears what is RC; an 8-byte
register may be read and written by halves, of which the lower latches; a device-wide setting takes a value in its ranges, in
Quiesce only; a halted device takes no write and reads zero outside its DEV_ block. The reads answer with Tx.registerData.
Model's choices in it: log entries 4, 10, 11, 12, 13, 14. -/
def Obligations.RegisterAccess : Prop :=
  ∀ (s : State) (port : Port) (fn : Nat) (bar : Bar) (off width : Nat) (v : Reg),
    let g := toMgmt fn bar
    let rd := exec (.registerRead port fn bar off width) s
    let rc := exec (.rcRegisterRead port fn bar off width) s
    let wt := exec (.registerWrite port fn bar off width v) s
    let answered (t : State) (x : Reg) : Prop := t.tx = s.tx ++ [.registerData port fn x]
    (inBar fn bar off = false → rd = .fault .outsideBar ∧ rc = .fault .outsideBar ∧ wt = .fault .outsideBar) ∧
    (inBar fn bar off = true →
      (rcAt fn bar off = true → rc = rd) ∧ (rcAt fn bar off = false → rc = .next s) ∧
      (s.haltReach port fn bar = false → s.reaches port fn bar = false → rd = .next s ∧ wt = .next s) ∧
      (s.haltReach port fn bar = true → (s.latch port fn bar).write = none →
        (widthOk g off width = false → ∃ t, rd = .next t ∧ answered t (BitVec.allOnes 64) ∧ KeepsData s t) ∧
        (widthOk g off width = true → 0x100000 ≤ off → ∃ t, rd = .next t ∧ answered t 0 ∧ KeepsData s t) ∧
        ∃ t, wt = .next t ∧ t.tx = s.tx ∧ t.tenants = s.tenants ∧ KeepsData s t ∧ (widthOk g off width = true → t.regs = s.regs)) ∧
      (s.haltReach port fn bar = false → s.reaches port fn bar = true → (s.latch port fn bar).write = none →
        (widthOk g off width = false →
          (∃ t, rd = .next t ∧ answered t (BitVec.allOnes 64) ∧ t.fns = s.fns ∧ t.tenants = s.tenants ∧ KeepsData s t) ∧
          ∃ t, wt = .next t ∧ t.tx = s.tx ∧ t.fns = s.fns ∧ t.tenants = s.tenants ∧ KeepsData s t) ∧
        (widthOk g off width = true → ∀ p base w, placeAt g off = some (p, base, w) →
          (w ≤ width → ∃ t, rd = .next t ∧ answered t (s.readPlace port fn p) ∧ KeepsData s t ∧
            (∀ d i, p = .mgmt d i → (∃ f ∈ d.fields, f.acc = .rc) → d.name ≠ .fnLateA → d.name ≠ .fnLateB →
              t.reg d.name i = s.reg d.name i &&& ~~~(d.maskOf fun a => a == .rc))) ∧
          (width < w → off = base → ∃ t, rd = .next t ∧ answered t (s.readPlace port fn p &&& 0xFFFFFFFF) ∧ KeepsData s t ∧
            (p.latches = true → t.latch port fn bar = ⟨some (base, s.readPlace port fn p >>> 32), none⟩)) ∧
          (width < w → off ≠ base → ∃ t, rd = .next t ∧ KeepsData s t ∧ t.latch port fn bar = ⟨none, none⟩ ∧
            (∀ x, (s.latch port fn bar).read = some (base, x) → answered t x) ∧
            ((s.latch port fn bar).read = none → answered t (s.readPlace port fn p >>> 32))) ∧
          (∀ d i, w ≤ width → p = .mgmt d i → d.name.deviceWide = true →
            let x := (if width = 4 then v &&& 0xFFFFFFFF else v) &&& d.maskOf fun _ => true
            (s.modes.mode ≠ .quiesce → ∃ t, wt = .next t ∧ t.tx = s.tx ∧ KeepsData s t ∧
              ∀ o, o ≠ (regDef .evrCnt).offset 0 → o ≠ (regDef .evrCnt).offset 1 → t.regs.look o = s.regs.look o) ∧
            (s.modes.mode = .quiesce → s.modes.overlay = [] → d.name ≠ .svBankCfg → d.valueOk i x = true →
              (d.name.byField = true → d.takeInRange (s.reg d.name i) x = x) →
              ∃ t, wt = .next t ∧ t.tx = s.tx ∧ t.reg d.name i = x ∧ t.versions = s.versions ∧ t.cmds = s.cmds)) ∧
          (∀ i, w ≤ width → p = .mgmt (regDef .devStatus) i → ∃ t, wt = .next t ∧ t.tx = s.tx ∧
            t.modes = { s.modes with
              qlimit := s.modes.qlimit && !(v.getLsbD 6), actFailed := s.modes.actFailed && !(v.getLsbD 7) }) ∧
          (∀ i, w ≤ width → p = .mgmt (regDef .fnShCtx) i → ∃ t, wt = .next t ∧ t.tx = s.tx ∧
            (t.tenant (i + 1)).active = (s.tenant (i + 1)).active ∧
            (t.tenant (i + 1)).shadow.ctx = (if width = 4 then v &&& 0xFFFFFFFF else v) &&& (regDef .fnShCtx).maskOf fun _ => true))) ∧
      (∀ p base lo, placeAt g off = some (p, base, 8) → placeAt g base = some (p, base, 8) → off = base + 4 → width = 4 →
        inBar fn bar base = true → widthOk g base 4 = true → widthOk g off 4 = true → widthOk g base 8 = true →
        s.reaches port fn bar = true → s.latch port fn bar = ⟨none, none⟩ →
        ∃ u, exec (.registerWrite port fn bar base 4 lo) s = .next u ∧ u.tx = s.tx ∧ u.regs = s.regs ∧
          exec (.registerWrite port fn bar off 4 v) u =
            exec (.registerWrite port fn bar base 8 ((lo &&& 0xFFFFFFFF) ||| ((v &&& 0xFFFFFFFF) <<< 32))) s))

/-! ## Sideband -/

/-- 15 R501, R502: the management endpoint answers while auxiliary power is on and, under I3C, once it has an address; otherwise
it does not. It answers MCTP control and PLDM types 0 and 2: its sensors are those of R502, sensor 58 shows the mode. The layout
of the messages is the model's own, after DSP0236, DSP0240 and DSP0248, and bytes that no source gives are
free.
Model's choices in it: log entry 42. -/
def Obligations.Sideband : Prop :=
  ∀ (s : State),
    let emits (s : State) (b : List Byte) : Host.Outcome State Fault Refusal := .next { s with tx := s.tx ++ [.sideband b], fresh := s.fresh + 1 }
    let up : Prop := s.modes.auxOn = true ∧ (s.mgmtSel = false ∨ s.dynAddr ≠ none)
    let all (i : Instr) : Prop := (∃ op e, i = .setEndpointId op e) ∨ i = .getEndpointId ∨ (∃ x, i = .getMctpVersionSupport x) ∨
      i = .getMessageTypeSupport ∨ i = .getTid ∨ (∃ x, i = .getPldmVersion x) ∨ i = .getPldmTypes ∨ (∃ x, i = .getPldmCommands x) ∨
      (∃ x, i = .getSensorReading x) ∨ (∃ x, i = .getStateSensorReadings x) ∨ i = .getPdrRepositoryInfo ∨ (∃ x, i = .getPdr x)
    (¬up → ∀ i, all i → exec i s = .next s) ∧
    (∀ a, (s.modes.auxOn = true ∧ s.mgmtSel = true → exec (.dynamicAddressAssignment a) s = .next { s with dynAddr := some a }) ∧
      (s.modes.auxOn = false ∨ s.mgmtSel = false → exec (.dynamicAddressAssignment a) s = .next s)) ∧
    (up →
      (∀ op e, (op.val < 2 ∧ e ≠ 0 ∧ e ≠ 0xFF → exec (.setEndpointId op e) s = emits { s with eid := e } [0, 1, 0, 0, e, 0]) ∧
        (¬(op.val < 2 ∧ e ≠ 0 ∧ e ≠ 0xFF) → exec (.setEndpointId op e) s = emits s [0, 1, 2])) ∧
      exec .getEndpointId s = emits s [0, 2, 0, s.eid, 0, 0] ∧
      (∀ x : Byte, (x = 0xFF ∨ x = 0 ∨ x = 1 → ∃ b : List Byte, b.length = 4 ∧
          exec (.getMctpVersionSupport x) s = emits s ([0, 4, 0, 1] ++ b)) ∧
        (¬(x = 0xFF ∨ x = 0 ∨ x = 1) → exec (.getMctpVersionSupport x) s = emits s [0, 4, 0x80])) ∧
      exec .getMessageTypeSupport s = emits s [0, 5, 0, 1, 1] ∧
      exec .getTid s = emits s [1, 0, 2, 0, Config.terminusId] ∧
      exec .getPldmTypes s = emits s ([1, 0, 4, 0] ++ leBytes 8 5) ∧
      (∀ x : Byte, (x = 0 ∨ x = 2 → (∃ b : List Byte, b.length = 8 ∧ exec (.getPldmVersion x) s = emits s ([1, 0, 3, 0, 0, 0, 0, 0, 5] ++ b)) ∧
          ∃ n, exec (.getPldmCommands x) s = emits s ([1, 0, 5, 0] ++ leBytes 32 n) ∧
            n = if x = 0 then 2 ^ 2 + 2 ^ 3 + 2 ^ 4 + 2 ^ 5 else 2 ^ 0x11 + 2 ^ 0x21 + 2 ^ 0x50 + 2 ^ 0x51) ∧
        (¬(x = 0 ∨ x = 2) → exec (.getPldmVersion x) s = emits s [1, 0, 3, 0x83] ∧ exec (.getPldmCommands x) s = emits s [1, 0, 5, 0x83])) ∧
      (∀ id, (1 ≤ id ∧ id ≤ 59 ∧ id ≠ 58 → ∀ v, s.sensorReading id = some v → ∃ p st : Byte,
          exec (.getSensorReading id) s = emits s ([1, 2, 0x11, 0, 5, 0, 0, st, p, st] ++ leInt 4 v) ∧
          (id = 1 → (110 ≤ v → st = 10) ∧ (100 ≤ v → v < 110 → st = 9) ∧ (95 ≤ v → v < 100 → st = 8) ∧ (v < 95 → st = 1))) ∧
        (1 ≤ id ∧ id ≤ 59 ∧ id ≠ 58 → s.sensorReading id = none → ∃ p b, exec (.getSensorReading id) s =
          emits s ([1, 2, 0x11, 0, 5, 2, 0, 0, p, 0] ++ b)) ∧
        (¬(1 ≤ id ∧ id ≤ 59 ∧ id ≠ 58) → exec (.getSensorReading id) s = emits s [1, 2, 0x11, 0x80]) ∧
        (id ≠ 58 → exec (.getStateSensorReadings id) s = emits s [1, 2, 0x21, 0x80])) ∧
      exec (.getStateSensorReadings 58) s = emits s [1, 2, 0x21, 0, 1, 0, BitVec.ofNat 8 s.modes.mode.num,
        BitVec.ofNat 8 s.modes.last.num, BitVec.ofNat 8 s.modes.mode.num] ∧
      (∃ x y : List Byte, x.length = 26 ∧ y.length = 9 ∧ exec .getPdrRepositoryInfo s = emits s ([1, 2, 0x50, 0, 0] ++ x ++ leBytes 4 59 ++ y)) ∧
      (∀ h, h ≤ 59 → exec (.getPdr h) s = emits s ([1, 2, 0x51, 0] ++ leBytes 4 (if max h 1 = 59 then 0 else max h 1 + 1) ++ leBytes 4 0 ++ [5] ++
        leBytes 2 (s.pdr (max h 1)).length ++ s.pdr (max h 1)) ∧ (s.pdr (max h 1)).take 4 = leBytes 4 (max h 1)) ∧
      ∀ h, 59 < h → exec (.getPdr h) s = emits s [1, 2, 0x51, 0x82])

/-! ## The whole machine -/

/-- 00 R9; 13 R438; 14 R480, R482: after reset every register of the management space reads as its table says, but for those
whose reset value is the part's own; no command, queue pair, stream, job, key, tenant or record is there, and the device is in
Starter. The state has the invariant.
Model's choices in it: log entries 1, 9, 91. -/
def Obligations.ResetState : Prop :=
  (∀ d ∈ regDefs, d.name ∉ [RegName.devId, .cfgSvn, .hkCal, .memFuse] → ∀ i < d.count,
    State.reset.readReg d i = d.resetAt i &&& d.maskOf fun a => a != .wo) ∧
  State.reset.modes.mode = .starter ∧ State.reset.pending = [] ∧ State.reset.cmds = [] ∧ State.reset.qps = [] ∧
  State.reset.ctxs = [] ∧ State.reset.jobs = [] ∧ State.reset.versions = [] ∧ State.reset.commits = [] ∧
  State.reset.evr.ring = [] ∧ State.reset.evr.circ = [] ∧ State.reset.evr.perm = [] ∧
  (∀ n, (State.reset.tenant n).state = .disabled ∧ (State.reset.tenant n).nss = [] ∧ (State.reset.tenant n).spaces = []) ∧
  (∀ port fn, (State.reset.fp port fn).generation = 0 ∧ (State.reset.fp port fn).aqCfg = 0) ∧
  (∀ c, State.reset.crumb c = Crumb.init) ∧ (∀ a, State.reset.mem.bytes.get a = 0) ∧ Sound State.reset

/-- Every command is answered by a next state, whatever the state, but for an access to a register address that does not exist
(01 R24; 04 R123), which is a fault; none is refused.
Model's choices in it: log entry 3. -/
def Obligations.EveryCommandRuns : Prop :=
  ∀ (i : Instr) (s : State),
    (AddressExists i → ∃ t, exec i s = .next t) ∧ (¬AddressExists i → exec i s = .fault .outsideBar)

/-- The invariant is kept by every step, from every state that has it; a step takes one command from the queue and adds none,
and nothing that was sent is taken back. -/
def Obligations.StepsKeepInvariant : Prop :=
  ∀ (s t : State), Sound s → step s = .next t → Sound t ∧ t.pending = s.pending.tail ∧ s.tx <+: t.tx

/-- A queue of commands whose register addresses exist runs to its end, and on, without a fault or a refusal, from every
state.
Model's choices in it: log entries 1, 3. -/
def Obligations.RunsAreSafe : Prop :=
  ∀ (n : Nat) (s : State), (∀ i ∈ s.pending, AddressExists i) → SafeRun n s
end

