-- ==== Sys2Proof/Laws/Maps.lean ====
section
/-! SUPPORT. The laws of sparse tables: what a read of a number gives after a write, and that writes of one number
fold into the last. -/
namespace Sys2Proof.Machine

variable {α : Type}

/-- A number reads as what was put there. -/
@[simp] theorem AMap.look_put_self (m : AMap α) (n : Nat) (a : α) : (m.put n a).look n = some a := by
  induction m with
  | nil => simp [AMap.put, AMap.look]
  | cons e m ih =>
    obtain ⟨k, v⟩ := e
    simp only [AMap.put]
    split
    · next h => simp [AMap.look, Nat.ne_of_lt h, ih]
    · split <;> simp [AMap.look]

/-- A put leaves the other numbers alone. -/
theorem AMap.look_put_of_ne (m : AMap α) {n i : Nat} (a : α) (h : i ≠ n) : (m.put n a).look i = m.look i := by
  induction m with
  | nil => simp [AMap.put, AMap.look, Ne.symm h]
  | cons e m ih =>
    obtain ⟨k, v⟩ := e
    simp only [AMap.put]
    split
    · simp only [AMap.look, ih]
    · split
      · next hk => subst hk; simp [AMap.look, Ne.symm h]
      · simp [AMap.look, Ne.symm h]

/-- Two puts of one number are the second. -/
@[simp] theorem AMap.put_put (m : AMap α) (n : Nat) (a b : α) : (m.put n a).put n b = m.put n b := by
  induction m with
  | nil => simp [AMap.put]
  | cons e m ih =>
    obtain ⟨k, v⟩ := e
    simp only [AMap.put]
    split
    · next h => simp [AMap.put, h, ih]
    · split <;> simp [AMap.put]

/-- A number reads as what was put there, whatever the default. -/
@[simp] theorem AMap.lookD_put_self (m : AMap α) (n : Nat) (a d : α) : (m.put n a).lookD n d = a := by
  simp [AMap.lookD]

/-- A put leaves the other numbers alone, whatever the default. -/
theorem AMap.lookD_put_of_ne (m : AMap α) {n i : Nat} (a d : α) (h : i ≠ n) : (m.put n a).lookD i d = m.lookD i d := by
  simp [AMap.lookD, AMap.look_put_of_ne m a h]

/-- A number reads as it was changed to. -/
@[simp] theorem AMap.lookD_upd_self (m : AMap α) (n : Nat) (d : α) (f : α → α) :
    (m.upd n d f).lookD n d = f (m.lookD n d) := by
  simp [AMap.upd]

/-- A change leaves the other numbers alone. -/
theorem AMap.lookD_upd_of_ne (m : AMap α) {n i : Nat} (d : α) (f : α → α) (h : i ≠ n) :
    (m.upd n d f).lookD i d = m.lookD i d := by
  simp [AMap.upd, AMap.lookD_put_of_ne m _ d h]

/-- Two changes of one number are their composition. -/
@[simp] theorem AMap.upd_upd (m : AMap α) (n : Nat) (d : α) (f g : α → α) :
    (m.upd n d f).upd n d g = m.upd n d fun a => g (f a) := by
  simp [AMap.upd]

/-- The element that a test finds, after a change of elements that keeps the test. -/
theorem find_adjWhere (l : List α) (p q : α → Bool) (f : α → α) (h : ∀ a, q (f a) = q a) :
    (adjWhere l p f).find? q = (l.find? q).map fun a => if p a then f a else a := by
  induction l with
  | nil => rfl
  | cons a l ih =>
    have hq : q (if p a then f a else a) = q a := by split <;> simp [h]
    simp only [adjWhere, List.map_cons, List.find?_cons] at ih ⊢
    rw [hq]
    cases q a
    · exact ih
    · rfl

/-- A change of elements leaves their number. -/
@[simp] theorem length_adjWhere (l : List α) (p : α → Bool) (f : α → α) : (adjWhere l p f).length = l.length := by
  simp [adjWhere]

end Sys2Proof.Machine
end

