-- ==== Sys2Proof/Laws/State.lean ====
section
/-! SUPPORT. One law for each field of the state under each of its updates, all true by definition. -/
namespace Sys2Proof.Machine

variable (s : State)

/-! ## emit -/

@[simp] theorem State.emit_pending (t : Tx) : (s.emit t).pending = s.pending := rfl
@[simp] theorem State.emit_modes (t : Tx) : (s.emit t).modes = s.modes := rfl
@[simp] theorem State.emit_boot (t : Tx) : (s.emit t).boot = s.boot := rfl
@[simp] theorem State.emit_cfg (t : Tx) : (s.emit t).cfg = s.cfg := rfl
@[simp] theorem State.emit_evr (t : Tx) : (s.emit t).evr = s.evr := rfl
@[simp] theorem State.emit_regs (t : Tx) : (s.emit t).regs = s.regs := rfl
@[simp] theorem State.emit_latches (t : Tx) : (s.emit t).latches = s.latches := rfl
@[simp] theorem State.emit_bifHigh (t : Tx) : (s.emit t).bifHigh = s.bifHigh := rfl
@[simp] theorem State.emit_mgmtSel (t : Tx) : (s.emit t).mgmtSel = s.mgmtSel := rfl
@[simp] theorem State.emit_hostA (t : Tx) : (s.emit t).hostA = s.hostA := rfl
@[simp] theorem State.emit_hostB (t : Tx) : (s.emit t).hostB = s.hostB := rfl
@[simp] theorem State.emit_fns (t : Tx) : (s.emit t).fns = s.fns := rfl
@[simp] theorem State.emit_tenants (t : Tx) : (s.emit t).tenants = s.tenants := rfl
@[simp] theorem State.emit_qps (t : Tx) : (s.emit t).qps = s.qps := rfl
@[simp] theorem State.emit_cmds (t : Tx) : (s.emit t).cmds = s.cmds := rfl
@[simp] theorem State.emit_nextTag (t : Tx) : (s.emit t).nextTag = s.nextTag := rfl
@[simp] theorem State.emit_held (t : Tx) : (s.emit t).held = s.held := rfl
@[simp] theorem State.emit_ctxs (t : Tx) : (s.emit t).ctxs = s.ctxs := rfl
@[simp] theorem State.emit_slotAllocs (t : Tx) : (s.emit t).slotAllocs = s.slotAllocs := rfl
@[simp] theorem State.emit_versions (t : Tx) : (s.emit t).versions = s.versions := rfl
@[simp] theorem State.emit_commits (t : Tx) : (s.emit t).commits = s.commits := rfl
@[simp] theorem State.emit_nextCommit (t : Tx) : (s.emit t).nextCommit = s.nextCommit := rfl
@[simp] theorem State.emit_records (t : Tx) : (s.emit t).records = s.records := rfl
@[simp] theorem State.emit_flash (t : Tx) : (s.emit t).flash = s.flash := rfl
@[simp] theorem State.emit_crumbs (t : Tx) : (s.emit t).crumbs = s.crumbs := rfl
@[simp] theorem State.emit_ctrls (t : Tx) : (s.emit t).ctrls = s.ctrls := rfl
@[simp] theorem State.emit_jobs (t : Tx) : (s.emit t).jobs = s.jobs := rfl
@[simp] theorem State.emit_bufs (t : Tx) : (s.emit t).bufs = s.bufs := rfl
@[simp] theorem State.emit_rollers (t : Tx) : (s.emit t).rollers = s.rollers := rfl
@[simp] theorem State.emit_rolls (t : Tx) : (s.emit t).rolls = s.rolls := rfl
@[simp] theorem State.emit_disp (t : Tx) : (s.emit t).disp = s.disp := rfl
@[simp] theorem State.emit_prf (t : Tx) : (s.emit t).prf = s.prf := rfl
@[simp] theorem State.emit_ecuFailed (t : Tx) : (s.emit t).ecuFailed = s.ecuFailed := rfl
@[simp] theorem State.emit_digests (t : Tx) : (s.emit t).digests = s.digests := rfl
@[simp] theorem State.emit_keys (t : Tx) : (s.emit t).keys = s.keys := rfl
@[simp] theorem State.emit_banks (t : Tx) : (s.emit t).banks = s.banks := rfl
@[simp] theorem State.emit_mem (t : Tx) : (s.emit t).mem = s.mem := rfl
@[simp] theorem State.emit_firon (t : Tx) : (s.emit t).firon = s.firon := rfl
@[simp] theorem State.emit_hk (t : Tx) : (s.emit t).hk = s.hk := rfl
@[simp] theorem State.emit_eid (t : Tx) : (s.emit t).eid = s.eid := rfl
@[simp] theorem State.emit_dynAddr (t : Tx) : (s.emit t).dynAddr = s.dynAddr := rfl
@[simp] theorem State.emit_tx (t : Tx) : (s.emit t).tx = s.tx ++ [t] := rfl
@[simp] theorem State.emit_fresh (t : Tx) : (s.emit t).fresh = s.fresh := rfl

/-! ## tick -/

@[simp] theorem State.tick_pending : (s.tick).pending = s.pending := rfl
@[simp] theorem State.tick_modes : (s.tick).modes = s.modes := rfl
@[simp] theorem State.tick_boot : (s.tick).boot = s.boot := rfl
@[simp] theorem State.tick_cfg : (s.tick).cfg = s.cfg := rfl
@[simp] theorem State.tick_evr : (s.tick).evr = s.evr := rfl
@[simp] theorem State.tick_regs : (s.tick).regs = s.regs := rfl
@[simp] theorem State.tick_latches : (s.tick).latches = s.latches := rfl
@[simp] theorem State.tick_bifHigh : (s.tick).bifHigh = s.bifHigh := rfl
@[simp] theorem State.tick_mgmtSel : (s.tick).mgmtSel = s.mgmtSel := rfl
@[simp] theorem State.tick_hostA : (s.tick).hostA = s.hostA := rfl
@[simp] theorem State.tick_hostB : (s.tick).hostB = s.hostB := rfl
@[simp] theorem State.tick_fns : (s.tick).fns = s.fns := rfl
@[simp] theorem State.tick_tenants : (s.tick).tenants = s.tenants := rfl
@[simp] theorem State.tick_qps : (s.tick).qps = s.qps := rfl
@[simp] theorem State.tick_cmds : (s.tick).cmds = s.cmds := rfl
@[simp] theorem State.tick_nextTag : (s.tick).nextTag = s.nextTag := rfl
@[simp] theorem State.tick_held : (s.tick).held = s.held := rfl
@[simp] theorem State.tick_ctxs : (s.tick).ctxs = s.ctxs := rfl
@[simp] theorem State.tick_slotAllocs : (s.tick).slotAllocs = s.slotAllocs := rfl
@[simp] theorem State.tick_versions : (s.tick).versions = s.versions := rfl
@[simp] theorem State.tick_commits : (s.tick).commits = s.commits := rfl
@[simp] theorem State.tick_nextCommit : (s.tick).nextCommit = s.nextCommit := rfl
@[simp] theorem State.tick_records : (s.tick).records = s.records := rfl
@[simp] theorem State.tick_flash : (s.tick).flash = s.flash := rfl
@[simp] theorem State.tick_crumbs : (s.tick).crumbs = s.crumbs := rfl
@[simp] theorem State.tick_ctrls : (s.tick).ctrls = s.ctrls := rfl
@[simp] theorem State.tick_jobs : (s.tick).jobs = s.jobs := rfl
@[simp] theorem State.tick_bufs : (s.tick).bufs = s.bufs := rfl
@[simp] theorem State.tick_rollers : (s.tick).rollers = s.rollers := rfl
@[simp] theorem State.tick_rolls : (s.tick).rolls = s.rolls := rfl
@[simp] theorem State.tick_disp : (s.tick).disp = s.disp := rfl
@[simp] theorem State.tick_prf : (s.tick).prf = s.prf := rfl
@[simp] theorem State.tick_ecuFailed : (s.tick).ecuFailed = s.ecuFailed := rfl
@[simp] theorem State.tick_digests : (s.tick).digests = s.digests := rfl
@[simp] theorem State.tick_keys : (s.tick).keys = s.keys := rfl
@[simp] theorem State.tick_banks : (s.tick).banks = s.banks := rfl
@[simp] theorem State.tick_mem : (s.tick).mem = s.mem := rfl
@[simp] theorem State.tick_firon : (s.tick).firon = s.firon := rfl
@[simp] theorem State.tick_hk : (s.tick).hk = s.hk := rfl
@[simp] theorem State.tick_eid : (s.tick).eid = s.eid := rfl
@[simp] theorem State.tick_dynAddr : (s.tick).dynAddr = s.dynAddr := rfl
@[simp] theorem State.tick_tx : (s.tick).tx = s.tx := rfl
@[simp] theorem State.tick_fresh : (s.tick).fresh = s.fresh + 1 := rfl

/-! ## setReg -/

@[simp] theorem State.setReg_pending (n : RegName) (i : Nat) (v : Reg) : (s.setReg n i v).pending = s.pending := rfl
@[simp] theorem State.setReg_modes (n : RegName) (i : Nat) (v : Reg) : (s.setReg n i v).modes = s.modes := rfl
@[simp] theorem State.setReg_boot (n : RegName) (i : Nat) (v : Reg) : (s.setReg n i v).boot = s.boot := rfl
@[simp] theorem State.setReg_cfg (n : RegName) (i : Nat) (v : Reg) : (s.setReg n i v).cfg = s.cfg := rfl
@[simp] theorem State.setReg_evr (n : RegName) (i : Nat) (v : Reg) : (s.setReg n i v).evr = s.evr := rfl
@[simp] theorem State.setReg_regs (n : RegName) (i : Nat) (v : Reg) : (s.setReg n i v).regs = s.regs.put ((regDef n).offset i) v := rfl
@[simp] theorem State.setReg_latches (n : RegName) (i : Nat) (v : Reg) : (s.setReg n i v).latches = s.latches := rfl
@[simp] theorem State.setReg_bifHigh (n : RegName) (i : Nat) (v : Reg) : (s.setReg n i v).bifHigh = s.bifHigh := rfl
@[simp] theorem State.setReg_mgmtSel (n : RegName) (i : Nat) (v : Reg) : (s.setReg n i v).mgmtSel = s.mgmtSel := rfl
@[simp] theorem State.setReg_hostA (n : RegName) (i : Nat) (v : Reg) : (s.setReg n i v).hostA = s.hostA := rfl
@[simp] theorem State.setReg_hostB (n : RegName) (i : Nat) (v : Reg) : (s.setReg n i v).hostB = s.hostB := rfl
@[simp] theorem State.setReg_fns (n : RegName) (i : Nat) (v : Reg) : (s.setReg n i v).fns = s.fns := rfl
@[simp] theorem State.setReg_tenants (n : RegName) (i : Nat) (v : Reg) : (s.setReg n i v).tenants = s.tenants := rfl
@[simp] theorem State.setReg_qps (n : RegName) (i : Nat) (v : Reg) : (s.setReg n i v).qps = s.qps := rfl
@[simp] theorem State.setReg_cmds (n : RegName) (i : Nat) (v : Reg) : (s.setReg n i v).cmds = s.cmds := rfl
@[simp] theorem State.setReg_nextTag (n : RegName) (i : Nat) (v : Reg) : (s.setReg n i v).nextTag = s.nextTag := rfl
@[simp] theorem State.setReg_held (n : RegName) (i : Nat) (v : Reg) : (s.setReg n i v).held = s.held := rfl
@[simp] theorem State.setReg_ctxs (n : RegName) (i : Nat) (v : Reg) : (s.setReg n i v).ctxs = s.ctxs := rfl
@[simp] theorem State.setReg_slotAllocs (n : RegName) (i : Nat) (v : Reg) : (s.setReg n i v).slotAllocs = s.slotAllocs := rfl
@[simp] theorem State.setReg_versions (n : RegName) (i : Nat) (v : Reg) : (s.setReg n i v).versions = s.versions := rfl
@[simp] theorem State.setReg_commits (n : RegName) (i : Nat) (v : Reg) : (s.setReg n i v).commits = s.commits := rfl
@[simp] theorem State.setReg_nextCommit (n : RegName) (i : Nat) (v : Reg) : (s.setReg n i v).nextCommit = s.nextCommit := rfl
@[simp] theorem State.setReg_records (n : RegName) (i : Nat) (v : Reg) : (s.setReg n i v).records = s.records := rfl
@[simp] theorem State.setReg_flash (n : RegName) (i : Nat) (v : Reg) : (s.setReg n i v).flash = s.flash := rfl
@[simp] theorem State.setReg_crumbs (n : RegName) (i : Nat) (v : Reg) : (s.setReg n i v).crumbs = s.crumbs := rfl
@[simp] theorem State.setReg_ctrls (n : RegName) (i : Nat) (v : Reg) : (s.setReg n i v).ctrls = s.ctrls := rfl
@[simp] theorem State.setReg_jobs (n : RegName) (i : Nat) (v : Reg) : (s.setReg n i v).jobs = s.jobs := rfl
@[simp] theorem State.setReg_bufs (n : RegName) (i : Nat) (v : Reg) : (s.setReg n i v).bufs = s.bufs := rfl
@[simp] theorem State.setReg_rollers (n : RegName) (i : Nat) (v : Reg) : (s.setReg n i v).rollers = s.rollers := rfl
@[simp] theorem State.setReg_rolls (n : RegName) (i : Nat) (v : Reg) : (s.setReg n i v).rolls = s.rolls := rfl
@[simp] theorem State.setReg_disp (n : RegName) (i : Nat) (v : Reg) : (s.setReg n i v).disp = s.disp := rfl
@[simp] theorem State.setReg_prf (n : RegName) (i : Nat) (v : Reg) : (s.setReg n i v).prf = s.prf := rfl
@[simp] theorem State.setReg_ecuFailed (n : RegName) (i : Nat) (v : Reg) : (s.setReg n i v).ecuFailed = s.ecuFailed := rfl
@[simp] theorem State.setReg_digests (n : RegName) (i : Nat) (v : Reg) : (s.setReg n i v).digests = s.digests := rfl
@[simp] theorem State.setReg_keys (n : RegName) (i : Nat) (v : Reg) : (s.setReg n i v).keys = s.keys := rfl
@[simp] theorem State.setReg_banks (n : RegName) (i : Nat) (v : Reg) : (s.setReg n i v).banks = s.banks := rfl
@[simp] theorem State.setReg_mem (n : RegName) (i : Nat) (v : Reg) : (s.setReg n i v).mem = s.mem := rfl
@[simp] theorem State.setReg_firon (n : RegName) (i : Nat) (v : Reg) : (s.setReg n i v).firon = s.firon := rfl
@[simp] theorem State.setReg_hk (n : RegName) (i : Nat) (v : Reg) : (s.setReg n i v).hk = s.hk := rfl
@[simp] theorem State.setReg_eid (n : RegName) (i : Nat) (v : Reg) : (s.setReg n i v).eid = s.eid := rfl
@[simp] theorem State.setReg_dynAddr (n : RegName) (i : Nat) (v : Reg) : (s.setReg n i v).dynAddr = s.dynAddr := rfl
@[simp] theorem State.setReg_tx (n : RegName) (i : Nat) (v : Reg) : (s.setReg n i v).tx = s.tx := rfl
@[simp] theorem State.setReg_fresh (n : RegName) (i : Nat) (v : Reg) : (s.setReg n i v).fresh = s.fresh := rfl

/-! ## modFp -/

@[simp] theorem State.modFp_pending (port : Port) (fn : Nat) (f : FnPort → FnPort) : (s.modFp port fn f).pending = s.pending := rfl
@[simp] theorem State.modFp_modes (port : Port) (fn : Nat) (f : FnPort → FnPort) : (s.modFp port fn f).modes = s.modes := rfl
@[simp] theorem State.modFp_boot (port : Port) (fn : Nat) (f : FnPort → FnPort) : (s.modFp port fn f).boot = s.boot := rfl
@[simp] theorem State.modFp_cfg (port : Port) (fn : Nat) (f : FnPort → FnPort) : (s.modFp port fn f).cfg = s.cfg := rfl
@[simp] theorem State.modFp_evr (port : Port) (fn : Nat) (f : FnPort → FnPort) : (s.modFp port fn f).evr = s.evr := rfl
@[simp] theorem State.modFp_regs (port : Port) (fn : Nat) (f : FnPort → FnPort) : (s.modFp port fn f).regs = s.regs := rfl
@[simp] theorem State.modFp_latches (port : Port) (fn : Nat) (f : FnPort → FnPort) : (s.modFp port fn f).latches = s.latches := rfl
@[simp] theorem State.modFp_bifHigh (port : Port) (fn : Nat) (f : FnPort → FnPort) : (s.modFp port fn f).bifHigh = s.bifHigh := rfl
@[simp] theorem State.modFp_mgmtSel (port : Port) (fn : Nat) (f : FnPort → FnPort) : (s.modFp port fn f).mgmtSel = s.mgmtSel := rfl
@[simp] theorem State.modFp_hostA (port : Port) (fn : Nat) (f : FnPort → FnPort) : (s.modFp port fn f).hostA = s.hostA := rfl
@[simp] theorem State.modFp_hostB (port : Port) (fn : Nat) (f : FnPort → FnPort) : (s.modFp port fn f).hostB = s.hostB := rfl
@[simp] theorem State.modFp_fns (port : Port) (fn : Nat) (f : FnPort → FnPort) : (s.modFp port fn f).fns = s.fns.upd (fpKey port fn) FnPort.init f := rfl
@[simp] theorem State.modFp_tenants (port : Port) (fn : Nat) (f : FnPort → FnPort) : (s.modFp port fn f).tenants = s.tenants := rfl
@[simp] theorem State.modFp_qps (port : Port) (fn : Nat) (f : FnPort → FnPort) : (s.modFp port fn f).qps = s.qps := rfl
@[simp] theorem State.modFp_cmds (port : Port) (fn : Nat) (f : FnPort → FnPort) : (s.modFp port fn f).cmds = s.cmds := rfl
@[simp] theorem State.modFp_nextTag (port : Port) (fn : Nat) (f : FnPort → FnPort) : (s.modFp port fn f).nextTag = s.nextTag := rfl
@[simp] theorem State.modFp_held (port : Port) (fn : Nat) (f : FnPort → FnPort) : (s.modFp port fn f).held = s.held := rfl
@[simp] theorem State.modFp_ctxs (port : Port) (fn : Nat) (f : FnPort → FnPort) : (s.modFp port fn f).ctxs = s.ctxs := rfl
@[simp] theorem State.modFp_slotAllocs (port : Port) (fn : Nat) (f : FnPort → FnPort) : (s.modFp port fn f).slotAllocs = s.slotAllocs := rfl
@[simp] theorem State.modFp_versions (port : Port) (fn : Nat) (f : FnPort → FnPort) : (s.modFp port fn f).versions = s.versions := rfl
@[simp] theorem State.modFp_commits (port : Port) (fn : Nat) (f : FnPort → FnPort) : (s.modFp port fn f).commits = s.commits := rfl
@[simp] theorem State.modFp_nextCommit (port : Port) (fn : Nat) (f : FnPort → FnPort) : (s.modFp port fn f).nextCommit = s.nextCommit := rfl
@[simp] theorem State.modFp_records (port : Port) (fn : Nat) (f : FnPort → FnPort) : (s.modFp port fn f).records = s.records := rfl
@[simp] theorem State.modFp_flash (port : Port) (fn : Nat) (f : FnPort → FnPort) : (s.modFp port fn f).flash = s.flash := rfl
@[simp] theorem State.modFp_crumbs (port : Port) (fn : Nat) (f : FnPort → FnPort) : (s.modFp port fn f).crumbs = s.crumbs := rfl
@[simp] theorem State.modFp_ctrls (port : Port) (fn : Nat) (f : FnPort → FnPort) : (s.modFp port fn f).ctrls = s.ctrls := rfl
@[simp] theorem State.modFp_jobs (port : Port) (fn : Nat) (f : FnPort → FnPort) : (s.modFp port fn f).jobs = s.jobs := rfl
@[simp] theorem State.modFp_bufs (port : Port) (fn : Nat) (f : FnPort → FnPort) : (s.modFp port fn f).bufs = s.bufs := rfl
@[simp] theorem State.modFp_rollers (port : Port) (fn : Nat) (f : FnPort → FnPort) : (s.modFp port fn f).rollers = s.rollers := rfl
@[simp] theorem State.modFp_rolls (port : Port) (fn : Nat) (f : FnPort → FnPort) : (s.modFp port fn f).rolls = s.rolls := rfl
@[simp] theorem State.modFp_disp (port : Port) (fn : Nat) (f : FnPort → FnPort) : (s.modFp port fn f).disp = s.disp := rfl
@[simp] theorem State.modFp_prf (port : Port) (fn : Nat) (f : FnPort → FnPort) : (s.modFp port fn f).prf = s.prf := rfl
@[simp] theorem State.modFp_ecuFailed (port : Port) (fn : Nat) (f : FnPort → FnPort) : (s.modFp port fn f).ecuFailed = s.ecuFailed := rfl
@[simp] theorem State.modFp_digests (port : Port) (fn : Nat) (f : FnPort → FnPort) : (s.modFp port fn f).digests = s.digests := rfl
@[simp] theorem State.modFp_keys (port : Port) (fn : Nat) (f : FnPort → FnPort) : (s.modFp port fn f).keys = s.keys := rfl
@[simp] theorem State.modFp_banks (port : Port) (fn : Nat) (f : FnPort → FnPort) : (s.modFp port fn f).banks = s.banks := rfl
@[simp] theorem State.modFp_mem (port : Port) (fn : Nat) (f : FnPort → FnPort) : (s.modFp port fn f).mem = s.mem := rfl
@[simp] theorem State.modFp_firon (port : Port) (fn : Nat) (f : FnPort → FnPort) : (s.modFp port fn f).firon = s.firon := rfl
@[simp] theorem State.modFp_hk (port : Port) (fn : Nat) (f : FnPort → FnPort) : (s.modFp port fn f).hk = s.hk := rfl
@[simp] theorem State.modFp_eid (port : Port) (fn : Nat) (f : FnPort → FnPort) : (s.modFp port fn f).eid = s.eid := rfl
@[simp] theorem State.modFp_dynAddr (port : Port) (fn : Nat) (f : FnPort → FnPort) : (s.modFp port fn f).dynAddr = s.dynAddr := rfl
@[simp] theorem State.modFp_tx (port : Port) (fn : Nat) (f : FnPort → FnPort) : (s.modFp port fn f).tx = s.tx := rfl
@[simp] theorem State.modFp_fresh (port : Port) (fn : Nat) (f : FnPort → FnPort) : (s.modFp port fn f).fresh = s.fresh := rfl

/-! ## modTenant -/

@[simp] theorem State.modTenant_pending (n : Nat) (f : Tenant → Tenant) : (s.modTenant n f).pending = s.pending := rfl
@[simp] theorem State.modTenant_modes (n : Nat) (f : Tenant → Tenant) : (s.modTenant n f).modes = s.modes := rfl
@[simp] theorem State.modTenant_boot (n : Nat) (f : Tenant → Tenant) : (s.modTenant n f).boot = s.boot := rfl
@[simp] theorem State.modTenant_cfg (n : Nat) (f : Tenant → Tenant) : (s.modTenant n f).cfg = s.cfg := rfl
@[simp] theorem State.modTenant_evr (n : Nat) (f : Tenant → Tenant) : (s.modTenant n f).evr = s.evr := rfl
@[simp] theorem State.modTenant_regs (n : Nat) (f : Tenant → Tenant) : (s.modTenant n f).regs = s.regs := rfl
@[simp] theorem State.modTenant_latches (n : Nat) (f : Tenant → Tenant) : (s.modTenant n f).latches = s.latches := rfl
@[simp] theorem State.modTenant_bifHigh (n : Nat) (f : Tenant → Tenant) : (s.modTenant n f).bifHigh = s.bifHigh := rfl
@[simp] theorem State.modTenant_mgmtSel (n : Nat) (f : Tenant → Tenant) : (s.modTenant n f).mgmtSel = s.mgmtSel := rfl
@[simp] theorem State.modTenant_hostA (n : Nat) (f : Tenant → Tenant) : (s.modTenant n f).hostA = s.hostA := rfl
@[simp] theorem State.modTenant_hostB (n : Nat) (f : Tenant → Tenant) : (s.modTenant n f).hostB = s.hostB := rfl
@[simp] theorem State.modTenant_fns (n : Nat) (f : Tenant → Tenant) : (s.modTenant n f).fns = s.fns := rfl
@[simp] theorem State.modTenant_tenants (n : Nat) (f : Tenant → Tenant) : (s.modTenant n f).tenants = s.tenants.upd n Tenant.init f := rfl
@[simp] theorem State.modTenant_qps (n : Nat) (f : Tenant → Tenant) : (s.modTenant n f).qps = s.qps := rfl
@[simp] theorem State.modTenant_cmds (n : Nat) (f : Tenant → Tenant) : (s.modTenant n f).cmds = s.cmds := rfl
@[simp] theorem State.modTenant_nextTag (n : Nat) (f : Tenant → Tenant) : (s.modTenant n f).nextTag = s.nextTag := rfl
@[simp] theorem State.modTenant_held (n : Nat) (f : Tenant → Tenant) : (s.modTenant n f).held = s.held := rfl
@[simp] theorem State.modTenant_ctxs (n : Nat) (f : Tenant → Tenant) : (s.modTenant n f).ctxs = s.ctxs := rfl
@[simp] theorem State.modTenant_slotAllocs (n : Nat) (f : Tenant → Tenant) : (s.modTenant n f).slotAllocs = s.slotAllocs := rfl
@[simp] theorem State.modTenant_versions (n : Nat) (f : Tenant → Tenant) : (s.modTenant n f).versions = s.versions := rfl
@[simp] theorem State.modTenant_commits (n : Nat) (f : Tenant → Tenant) : (s.modTenant n f).commits = s.commits := rfl
@[simp] theorem State.modTenant_nextCommit (n : Nat) (f : Tenant → Tenant) : (s.modTenant n f).nextCommit = s.nextCommit := rfl
@[simp] theorem State.modTenant_records (n : Nat) (f : Tenant → Tenant) : (s.modTenant n f).records = s.records := rfl
@[simp] theorem State.modTenant_flash (n : Nat) (f : Tenant → Tenant) : (s.modTenant n f).flash = s.flash := rfl
@[simp] theorem State.modTenant_crumbs (n : Nat) (f : Tenant → Tenant) : (s.modTenant n f).crumbs = s.crumbs := rfl
@[simp] theorem State.modTenant_ctrls (n : Nat) (f : Tenant → Tenant) : (s.modTenant n f).ctrls = s.ctrls := rfl
@[simp] theorem State.modTenant_jobs (n : Nat) (f : Tenant → Tenant) : (s.modTenant n f).jobs = s.jobs := rfl
@[simp] theorem State.modTenant_bufs (n : Nat) (f : Tenant → Tenant) : (s.modTenant n f).bufs = s.bufs := rfl
@[simp] theorem State.modTenant_rollers (n : Nat) (f : Tenant → Tenant) : (s.modTenant n f).rollers = s.rollers := rfl
@[simp] theorem State.modTenant_rolls (n : Nat) (f : Tenant → Tenant) : (s.modTenant n f).rolls = s.rolls := rfl
@[simp] theorem State.modTenant_disp (n : Nat) (f : Tenant → Tenant) : (s.modTenant n f).disp = s.disp := rfl
@[simp] theorem State.modTenant_prf (n : Nat) (f : Tenant → Tenant) : (s.modTenant n f).prf = s.prf := rfl
@[simp] theorem State.modTenant_ecuFailed (n : Nat) (f : Tenant → Tenant) : (s.modTenant n f).ecuFailed = s.ecuFailed := rfl
@[simp] theorem State.modTenant_digests (n : Nat) (f : Tenant → Tenant) : (s.modTenant n f).digests = s.digests := rfl
@[simp] theorem State.modTenant_keys (n : Nat) (f : Tenant → Tenant) : (s.modTenant n f).keys = s.keys := rfl
@[simp] theorem State.modTenant_banks (n : Nat) (f : Tenant → Tenant) : (s.modTenant n f).banks = s.banks := rfl
@[simp] theorem State.modTenant_mem (n : Nat) (f : Tenant → Tenant) : (s.modTenant n f).mem = s.mem := rfl
@[simp] theorem State.modTenant_firon (n : Nat) (f : Tenant → Tenant) : (s.modTenant n f).firon = s.firon := rfl
@[simp] theorem State.modTenant_hk (n : Nat) (f : Tenant → Tenant) : (s.modTenant n f).hk = s.hk := rfl
@[simp] theorem State.modTenant_eid (n : Nat) (f : Tenant → Tenant) : (s.modTenant n f).eid = s.eid := rfl
@[simp] theorem State.modTenant_dynAddr (n : Nat) (f : Tenant → Tenant) : (s.modTenant n f).dynAddr = s.dynAddr := rfl
@[simp] theorem State.modTenant_tx (n : Nat) (f : Tenant → Tenant) : (s.modTenant n f).tx = s.tx := rfl
@[simp] theorem State.modTenant_fresh (n : Nat) (f : Tenant → Tenant) : (s.modTenant n f).fresh = s.fresh := rfl

/-! ## modQp -/

@[simp] theorem State.modQp_pending (port : Port) (fn qid : Nat) (f : QueuePair → QueuePair) : (s.modQp port fn qid f).pending = s.pending := rfl
@[simp] theorem State.modQp_modes (port : Port) (fn qid : Nat) (f : QueuePair → QueuePair) : (s.modQp port fn qid f).modes = s.modes := rfl
@[simp] theorem State.modQp_boot (port : Port) (fn qid : Nat) (f : QueuePair → QueuePair) : (s.modQp port fn qid f).boot = s.boot := rfl
@[simp] theorem State.modQp_cfg (port : Port) (fn qid : Nat) (f : QueuePair → QueuePair) : (s.modQp port fn qid f).cfg = s.cfg := rfl
@[simp] theorem State.modQp_evr (port : Port) (fn qid : Nat) (f : QueuePair → QueuePair) : (s.modQp port fn qid f).evr = s.evr := rfl
@[simp] theorem State.modQp_regs (port : Port) (fn qid : Nat) (f : QueuePair → QueuePair) : (s.modQp port fn qid f).regs = s.regs := rfl
@[simp] theorem State.modQp_latches (port : Port) (fn qid : Nat) (f : QueuePair → QueuePair) : (s.modQp port fn qid f).latches = s.latches := rfl
@[simp] theorem State.modQp_bifHigh (port : Port) (fn qid : Nat) (f : QueuePair → QueuePair) : (s.modQp port fn qid f).bifHigh = s.bifHigh := rfl
@[simp] theorem State.modQp_mgmtSel (port : Port) (fn qid : Nat) (f : QueuePair → QueuePair) : (s.modQp port fn qid f).mgmtSel = s.mgmtSel := rfl
@[simp] theorem State.modQp_hostA (port : Port) (fn qid : Nat) (f : QueuePair → QueuePair) : (s.modQp port fn qid f).hostA = s.hostA := rfl
@[simp] theorem State.modQp_hostB (port : Port) (fn qid : Nat) (f : QueuePair → QueuePair) : (s.modQp port fn qid f).hostB = s.hostB := rfl
@[simp] theorem State.modQp_fns (port : Port) (fn qid : Nat) (f : QueuePair → QueuePair) : (s.modQp port fn qid f).fns = s.fns := rfl
@[simp] theorem State.modQp_tenants (port : Port) (fn qid : Nat) (f : QueuePair → QueuePair) : (s.modQp port fn qid f).tenants = s.tenants := rfl
@[simp] theorem State.modQp_qps (port : Port) (fn qid : Nat) (f : QueuePair → QueuePair) : (s.modQp port fn qid f).qps = adjWhere s.qps (fun q => q.fn == fn && q.port == port && q.qid == qid) f := rfl
@[simp] theorem State.modQp_cmds (port : Port) (fn qid : Nat) (f : QueuePair → QueuePair) : (s.modQp port fn qid f).cmds = s.cmds := rfl
@[simp] theorem State.modQp_nextTag (port : Port) (fn qid : Nat) (f : QueuePair → QueuePair) : (s.modQp port fn qid f).nextTag = s.nextTag := rfl
@[simp] theorem State.modQp_held (port : Port) (fn qid : Nat) (f : QueuePair → QueuePair) : (s.modQp port fn qid f).held = s.held := rfl
@[simp] theorem State.modQp_ctxs (port : Port) (fn qid : Nat) (f : QueuePair → QueuePair) : (s.modQp port fn qid f).ctxs = s.ctxs := rfl
@[simp] theorem State.modQp_slotAllocs (port : Port) (fn qid : Nat) (f : QueuePair → QueuePair) : (s.modQp port fn qid f).slotAllocs = s.slotAllocs := rfl
@[simp] theorem State.modQp_versions (port : Port) (fn qid : Nat) (f : QueuePair → QueuePair) : (s.modQp port fn qid f).versions = s.versions := rfl
@[simp] theorem State.modQp_commits (port : Port) (fn qid : Nat) (f : QueuePair → QueuePair) : (s.modQp port fn qid f).commits = s.commits := rfl
@[simp] theorem State.modQp_nextCommit (port : Port) (fn qid : Nat) (f : QueuePair → QueuePair) : (s.modQp port fn qid f).nextCommit = s.nextCommit := rfl
@[simp] theorem State.modQp_records (port : Port) (fn qid : Nat) (f : QueuePair → QueuePair) : (s.modQp port fn qid f).records = s.records := rfl
@[simp] theorem State.modQp_flash (port : Port) (fn qid : Nat) (f : QueuePair → QueuePair) : (s.modQp port fn qid f).flash = s.flash := rfl
@[simp] theorem State.modQp_crumbs (port : Port) (fn qid : Nat) (f : QueuePair → QueuePair) : (s.modQp port fn qid f).crumbs = s.crumbs := rfl
@[simp] theorem State.modQp_ctrls (port : Port) (fn qid : Nat) (f : QueuePair → QueuePair) : (s.modQp port fn qid f).ctrls = s.ctrls := rfl
@[simp] theorem State.modQp_jobs (port : Port) (fn qid : Nat) (f : QueuePair → QueuePair) : (s.modQp port fn qid f).jobs = s.jobs := rfl
@[simp] theorem State.modQp_bufs (port : Port) (fn qid : Nat) (f : QueuePair → QueuePair) : (s.modQp port fn qid f).bufs = s.bufs := rfl
@[simp] theorem State.modQp_rollers (port : Port) (fn qid : Nat) (f : QueuePair → QueuePair) : (s.modQp port fn qid f).rollers = s.rollers := rfl
@[simp] theorem State.modQp_rolls (port : Port) (fn qid : Nat) (f : QueuePair → QueuePair) : (s.modQp port fn qid f).rolls = s.rolls := rfl
@[simp] theorem State.modQp_disp (port : Port) (fn qid : Nat) (f : QueuePair → QueuePair) : (s.modQp port fn qid f).disp = s.disp := rfl
@[simp] theorem State.modQp_prf (port : Port) (fn qid : Nat) (f : QueuePair → QueuePair) : (s.modQp port fn qid f).prf = s.prf := rfl
@[simp] theorem State.modQp_ecuFailed (port : Port) (fn qid : Nat) (f : QueuePair → QueuePair) : (s.modQp port fn qid f).ecuFailed = s.ecuFailed := rfl
@[simp] theorem State.modQp_digests (port : Port) (fn qid : Nat) (f : QueuePair → QueuePair) : (s.modQp port fn qid f).digests = s.digests := rfl
@[simp] theorem State.modQp_keys (port : Port) (fn qid : Nat) (f : QueuePair → QueuePair) : (s.modQp port fn qid f).keys = s.keys := rfl
@[simp] theorem State.modQp_banks (port : Port) (fn qid : Nat) (f : QueuePair → QueuePair) : (s.modQp port fn qid f).banks = s.banks := rfl
@[simp] theorem State.modQp_mem (port : Port) (fn qid : Nat) (f : QueuePair → QueuePair) : (s.modQp port fn qid f).mem = s.mem := rfl
@[simp] theorem State.modQp_firon (port : Port) (fn qid : Nat) (f : QueuePair → QueuePair) : (s.modQp port fn qid f).firon = s.firon := rfl
@[simp] theorem State.modQp_hk (port : Port) (fn qid : Nat) (f : QueuePair → QueuePair) : (s.modQp port fn qid f).hk = s.hk := rfl
@[simp] theorem State.modQp_eid (port : Port) (fn qid : Nat) (f : QueuePair → QueuePair) : (s.modQp port fn qid f).eid = s.eid := rfl
@[simp] theorem State.modQp_dynAddr (port : Port) (fn qid : Nat) (f : QueuePair → QueuePair) : (s.modQp port fn qid f).dynAddr = s.dynAddr := rfl
@[simp] theorem State.modQp_tx (port : Port) (fn qid : Nat) (f : QueuePair → QueuePair) : (s.modQp port fn qid f).tx = s.tx := rfl
@[simp] theorem State.modQp_fresh (port : Port) (fn qid : Nat) (f : QueuePair → QueuePair) : (s.modQp port fn qid f).fresh = s.fresh := rfl

/-! ## modCtx -/

@[simp] theorem State.modCtx_pending (h : Nat) (f : Ctx → Ctx) : (s.modCtx h f).pending = s.pending := rfl
@[simp] theorem State.modCtx_modes (h : Nat) (f : Ctx → Ctx) : (s.modCtx h f).modes = s.modes := rfl
@[simp] theorem State.modCtx_boot (h : Nat) (f : Ctx → Ctx) : (s.modCtx h f).boot = s.boot := rfl
@[simp] theorem State.modCtx_cfg (h : Nat) (f : Ctx → Ctx) : (s.modCtx h f).cfg = s.cfg := rfl
@[simp] theorem State.modCtx_evr (h : Nat) (f : Ctx → Ctx) : (s.modCtx h f).evr = s.evr := rfl
@[simp] theorem State.modCtx_regs (h : Nat) (f : Ctx → Ctx) : (s.modCtx h f).regs = s.regs := rfl
@[simp] theorem State.modCtx_latches (h : Nat) (f : Ctx → Ctx) : (s.modCtx h f).latches = s.latches := rfl
@[simp] theorem State.modCtx_bifHigh (h : Nat) (f : Ctx → Ctx) : (s.modCtx h f).bifHigh = s.bifHigh := rfl
@[simp] theorem State.modCtx_mgmtSel (h : Nat) (f : Ctx → Ctx) : (s.modCtx h f).mgmtSel = s.mgmtSel := rfl
@[simp] theorem State.modCtx_hostA (h : Nat) (f : Ctx → Ctx) : (s.modCtx h f).hostA = s.hostA := rfl
@[simp] theorem State.modCtx_hostB (h : Nat) (f : Ctx → Ctx) : (s.modCtx h f).hostB = s.hostB := rfl
@[simp] theorem State.modCtx_fns (h : Nat) (f : Ctx → Ctx) : (s.modCtx h f).fns = s.fns := rfl
@[simp] theorem State.modCtx_tenants (h : Nat) (f : Ctx → Ctx) : (s.modCtx h f).tenants = s.tenants := rfl
@[simp] theorem State.modCtx_qps (h : Nat) (f : Ctx → Ctx) : (s.modCtx h f).qps = s.qps := rfl
@[simp] theorem State.modCtx_cmds (h : Nat) (f : Ctx → Ctx) : (s.modCtx h f).cmds = s.cmds := rfl
@[simp] theorem State.modCtx_nextTag (h : Nat) (f : Ctx → Ctx) : (s.modCtx h f).nextTag = s.nextTag := rfl
@[simp] theorem State.modCtx_held (h : Nat) (f : Ctx → Ctx) : (s.modCtx h f).held = s.held := rfl
@[simp] theorem State.modCtx_ctxs (h : Nat) (f : Ctx → Ctx) : (s.modCtx h f).ctxs = adjWhere s.ctxs (fun c => c.handle == h) f := rfl
@[simp] theorem State.modCtx_slotAllocs (h : Nat) (f : Ctx → Ctx) : (s.modCtx h f).slotAllocs = s.slotAllocs := rfl
@[simp] theorem State.modCtx_versions (h : Nat) (f : Ctx → Ctx) : (s.modCtx h f).versions = s.versions := rfl
@[simp] theorem State.modCtx_commits (h : Nat) (f : Ctx → Ctx) : (s.modCtx h f).commits = s.commits := rfl
@[simp] theorem State.modCtx_nextCommit (h : Nat) (f : Ctx → Ctx) : (s.modCtx h f).nextCommit = s.nextCommit := rfl
@[simp] theorem State.modCtx_records (h : Nat) (f : Ctx → Ctx) : (s.modCtx h f).records = s.records := rfl
@[simp] theorem State.modCtx_flash (h : Nat) (f : Ctx → Ctx) : (s.modCtx h f).flash = s.flash := rfl
@[simp] theorem State.modCtx_crumbs (h : Nat) (f : Ctx → Ctx) : (s.modCtx h f).crumbs = s.crumbs := rfl
@[simp] theorem State.modCtx_ctrls (h : Nat) (f : Ctx → Ctx) : (s.modCtx h f).ctrls = s.ctrls := rfl
@[simp] theorem State.modCtx_jobs (h : Nat) (f : Ctx → Ctx) : (s.modCtx h f).jobs = s.jobs := rfl
@[simp] theorem State.modCtx_bufs (h : Nat) (f : Ctx → Ctx) : (s.modCtx h f).bufs = s.bufs := rfl
@[simp] theorem State.modCtx_rollers (h : Nat) (f : Ctx → Ctx) : (s.modCtx h f).rollers = s.rollers := rfl
@[simp] theorem State.modCtx_rolls (h : Nat) (f : Ctx → Ctx) : (s.modCtx h f).rolls = s.rolls := rfl
@[simp] theorem State.modCtx_disp (h : Nat) (f : Ctx → Ctx) : (s.modCtx h f).disp = s.disp := rfl
@[simp] theorem State.modCtx_prf (h : Nat) (f : Ctx → Ctx) : (s.modCtx h f).prf = s.prf := rfl
@[simp] theorem State.modCtx_ecuFailed (h : Nat) (f : Ctx → Ctx) : (s.modCtx h f).ecuFailed = s.ecuFailed := rfl
@[simp] theorem State.modCtx_digests (h : Nat) (f : Ctx → Ctx) : (s.modCtx h f).digests = s.digests := rfl
@[simp] theorem State.modCtx_keys (h : Nat) (f : Ctx → Ctx) : (s.modCtx h f).keys = s.keys := rfl
@[simp] theorem State.modCtx_banks (h : Nat) (f : Ctx → Ctx) : (s.modCtx h f).banks = s.banks := rfl
@[simp] theorem State.modCtx_mem (h : Nat) (f : Ctx → Ctx) : (s.modCtx h f).mem = s.mem := rfl
@[simp] theorem State.modCtx_firon (h : Nat) (f : Ctx → Ctx) : (s.modCtx h f).firon = s.firon := rfl
@[simp] theorem State.modCtx_hk (h : Nat) (f : Ctx → Ctx) : (s.modCtx h f).hk = s.hk := rfl
@[simp] theorem State.modCtx_eid (h : Nat) (f : Ctx → Ctx) : (s.modCtx h f).eid = s.eid := rfl
@[simp] theorem State.modCtx_dynAddr (h : Nat) (f : Ctx → Ctx) : (s.modCtx h f).dynAddr = s.dynAddr := rfl
@[simp] theorem State.modCtx_tx (h : Nat) (f : Ctx → Ctx) : (s.modCtx h f).tx = s.tx := rfl
@[simp] theorem State.modCtx_fresh (h : Nat) (f : Ctx → Ctx) : (s.modCtx h f).fresh = s.fresh := rfl

/-! ## modCmd -/

@[simp] theorem State.modCmd_pending (tag : Nat) (f : Cmd → Cmd) : (s.modCmd tag f).pending = s.pending := rfl
@[simp] theorem State.modCmd_modes (tag : Nat) (f : Cmd → Cmd) : (s.modCmd tag f).modes = s.modes := rfl
@[simp] theorem State.modCmd_boot (tag : Nat) (f : Cmd → Cmd) : (s.modCmd tag f).boot = s.boot := rfl
@[simp] theorem State.modCmd_cfg (tag : Nat) (f : Cmd → Cmd) : (s.modCmd tag f).cfg = s.cfg := rfl
@[simp] theorem State.modCmd_evr (tag : Nat) (f : Cmd → Cmd) : (s.modCmd tag f).evr = s.evr := rfl
@[simp] theorem State.modCmd_regs (tag : Nat) (f : Cmd → Cmd) : (s.modCmd tag f).regs = s.regs := rfl
@[simp] theorem State.modCmd_latches (tag : Nat) (f : Cmd → Cmd) : (s.modCmd tag f).latches = s.latches := rfl
@[simp] theorem State.modCmd_bifHigh (tag : Nat) (f : Cmd → Cmd) : (s.modCmd tag f).bifHigh = s.bifHigh := rfl
@[simp] theorem State.modCmd_mgmtSel (tag : Nat) (f : Cmd → Cmd) : (s.modCmd tag f).mgmtSel = s.mgmtSel := rfl
@[simp] theorem State.modCmd_hostA (tag : Nat) (f : Cmd → Cmd) : (s.modCmd tag f).hostA = s.hostA := rfl
@[simp] theorem State.modCmd_hostB (tag : Nat) (f : Cmd → Cmd) : (s.modCmd tag f).hostB = s.hostB := rfl
@[simp] theorem State.modCmd_fns (tag : Nat) (f : Cmd → Cmd) : (s.modCmd tag f).fns = s.fns := rfl
@[simp] theorem State.modCmd_tenants (tag : Nat) (f : Cmd → Cmd) : (s.modCmd tag f).tenants = s.tenants := rfl
@[simp] theorem State.modCmd_qps (tag : Nat) (f : Cmd → Cmd) : (s.modCmd tag f).qps = s.qps := rfl
@[simp] theorem State.modCmd_cmds (tag : Nat) (f : Cmd → Cmd) : (s.modCmd tag f).cmds = adjWhere s.cmds (fun c => c.tag == tag) f := rfl
@[simp] theorem State.modCmd_nextTag (tag : Nat) (f : Cmd → Cmd) : (s.modCmd tag f).nextTag = s.nextTag := rfl
@[simp] theorem State.modCmd_held (tag : Nat) (f : Cmd → Cmd) : (s.modCmd tag f).held = s.held := rfl
@[simp] theorem State.modCmd_ctxs (tag : Nat) (f : Cmd → Cmd) : (s.modCmd tag f).ctxs = s.ctxs := rfl
@[simp] theorem State.modCmd_slotAllocs (tag : Nat) (f : Cmd → Cmd) : (s.modCmd tag f).slotAllocs = s.slotAllocs := rfl
@[simp] theorem State.modCmd_versions (tag : Nat) (f : Cmd → Cmd) : (s.modCmd tag f).versions = s.versions := rfl
@[simp] theorem State.modCmd_commits (tag : Nat) (f : Cmd → Cmd) : (s.modCmd tag f).commits = s.commits := rfl
@[simp] theorem State.modCmd_nextCommit (tag : Nat) (f : Cmd → Cmd) : (s.modCmd tag f).nextCommit = s.nextCommit := rfl
@[simp] theorem State.modCmd_records (tag : Nat) (f : Cmd → Cmd) : (s.modCmd tag f).records = s.records := rfl
@[simp] theorem State.modCmd_flash (tag : Nat) (f : Cmd → Cmd) : (s.modCmd tag f).flash = s.flash := rfl
@[simp] theorem State.modCmd_crumbs (tag : Nat) (f : Cmd → Cmd) : (s.modCmd tag f).crumbs = s.crumbs := rfl
@[simp] theorem State.modCmd_ctrls (tag : Nat) (f : Cmd → Cmd) : (s.modCmd tag f).ctrls = s.ctrls := rfl
@[simp] theorem State.modCmd_jobs (tag : Nat) (f : Cmd → Cmd) : (s.modCmd tag f).jobs = s.jobs := rfl
@[simp] theorem State.modCmd_bufs (tag : Nat) (f : Cmd → Cmd) : (s.modCmd tag f).bufs = s.bufs := rfl
@[simp] theorem State.modCmd_rollers (tag : Nat) (f : Cmd → Cmd) : (s.modCmd tag f).rollers = s.rollers := rfl
@[simp] theorem State.modCmd_rolls (tag : Nat) (f : Cmd → Cmd) : (s.modCmd tag f).rolls = s.rolls := rfl
@[simp] theorem State.modCmd_disp (tag : Nat) (f : Cmd → Cmd) : (s.modCmd tag f).disp = s.disp := rfl
@[simp] theorem State.modCmd_prf (tag : Nat) (f : Cmd → Cmd) : (s.modCmd tag f).prf = s.prf := rfl
@[simp] theorem State.modCmd_ecuFailed (tag : Nat) (f : Cmd → Cmd) : (s.modCmd tag f).ecuFailed = s.ecuFailed := rfl
@[simp] theorem State.modCmd_digests (tag : Nat) (f : Cmd → Cmd) : (s.modCmd tag f).digests = s.digests := rfl
@[simp] theorem State.modCmd_keys (tag : Nat) (f : Cmd → Cmd) : (s.modCmd tag f).keys = s.keys := rfl
@[simp] theorem State.modCmd_banks (tag : Nat) (f : Cmd → Cmd) : (s.modCmd tag f).banks = s.banks := rfl
@[simp] theorem State.modCmd_mem (tag : Nat) (f : Cmd → Cmd) : (s.modCmd tag f).mem = s.mem := rfl
@[simp] theorem State.modCmd_firon (tag : Nat) (f : Cmd → Cmd) : (s.modCmd tag f).firon = s.firon := rfl
@[simp] theorem State.modCmd_hk (tag : Nat) (f : Cmd → Cmd) : (s.modCmd tag f).hk = s.hk := rfl
@[simp] theorem State.modCmd_eid (tag : Nat) (f : Cmd → Cmd) : (s.modCmd tag f).eid = s.eid := rfl
@[simp] theorem State.modCmd_dynAddr (tag : Nat) (f : Cmd → Cmd) : (s.modCmd tag f).dynAddr = s.dynAddr := rfl
@[simp] theorem State.modCmd_tx (tag : Nat) (f : Cmd → Cmd) : (s.modCmd tag f).tx = s.tx := rfl
@[simp] theorem State.modCmd_fresh (tag : Nat) (f : Cmd → Cmd) : (s.modCmd tag f).fresh = s.fresh := rfl

/-! ## modDigests -/

@[simp] theorem State.modDigests_pending (f : Digests → Digests) : (s.modDigests f).pending = s.pending := rfl
@[simp] theorem State.modDigests_modes (f : Digests → Digests) : (s.modDigests f).modes = s.modes := rfl
@[simp] theorem State.modDigests_boot (f : Digests → Digests) : (s.modDigests f).boot = s.boot := rfl
@[simp] theorem State.modDigests_cfg (f : Digests → Digests) : (s.modDigests f).cfg = s.cfg := rfl
@[simp] theorem State.modDigests_evr (f : Digests → Digests) : (s.modDigests f).evr = s.evr := rfl
@[simp] theorem State.modDigests_regs (f : Digests → Digests) : (s.modDigests f).regs = s.regs := rfl
@[simp] theorem State.modDigests_latches (f : Digests → Digests) : (s.modDigests f).latches = s.latches := rfl
@[simp] theorem State.modDigests_bifHigh (f : Digests → Digests) : (s.modDigests f).bifHigh = s.bifHigh := rfl
@[simp] theorem State.modDigests_mgmtSel (f : Digests → Digests) : (s.modDigests f).mgmtSel = s.mgmtSel := rfl
@[simp] theorem State.modDigests_hostA (f : Digests → Digests) : (s.modDigests f).hostA = s.hostA := rfl
@[simp] theorem State.modDigests_hostB (f : Digests → Digests) : (s.modDigests f).hostB = s.hostB := rfl
@[simp] theorem State.modDigests_fns (f : Digests → Digests) : (s.modDigests f).fns = s.fns := rfl
@[simp] theorem State.modDigests_tenants (f : Digests → Digests) : (s.modDigests f).tenants = s.tenants := rfl
@[simp] theorem State.modDigests_qps (f : Digests → Digests) : (s.modDigests f).qps = s.qps := rfl
@[simp] theorem State.modDigests_cmds (f : Digests → Digests) : (s.modDigests f).cmds = s.cmds := rfl
@[simp] theorem State.modDigests_nextTag (f : Digests → Digests) : (s.modDigests f).nextTag = s.nextTag := rfl
@[simp] theorem State.modDigests_held (f : Digests → Digests) : (s.modDigests f).held = s.held := rfl
@[simp] theorem State.modDigests_ctxs (f : Digests → Digests) : (s.modDigests f).ctxs = s.ctxs := rfl
@[simp] theorem State.modDigests_slotAllocs (f : Digests → Digests) : (s.modDigests f).slotAllocs = s.slotAllocs := rfl
@[simp] theorem State.modDigests_versions (f : Digests → Digests) : (s.modDigests f).versions = s.versions := rfl
@[simp] theorem State.modDigests_commits (f : Digests → Digests) : (s.modDigests f).commits = s.commits := rfl
@[simp] theorem State.modDigests_nextCommit (f : Digests → Digests) : (s.modDigests f).nextCommit = s.nextCommit := rfl
@[simp] theorem State.modDigests_records (f : Digests → Digests) : (s.modDigests f).records = s.records := rfl
@[simp] theorem State.modDigests_flash (f : Digests → Digests) : (s.modDigests f).flash = s.flash := rfl
@[simp] theorem State.modDigests_crumbs (f : Digests → Digests) : (s.modDigests f).crumbs = s.crumbs := rfl
@[simp] theorem State.modDigests_ctrls (f : Digests → Digests) : (s.modDigests f).ctrls = s.ctrls := rfl
@[simp] theorem State.modDigests_jobs (f : Digests → Digests) : (s.modDigests f).jobs = s.jobs := rfl
@[simp] theorem State.modDigests_bufs (f : Digests → Digests) : (s.modDigests f).bufs = s.bufs := rfl
@[simp] theorem State.modDigests_rollers (f : Digests → Digests) : (s.modDigests f).rollers = s.rollers := rfl
@[simp] theorem State.modDigests_rolls (f : Digests → Digests) : (s.modDigests f).rolls = s.rolls := rfl
@[simp] theorem State.modDigests_disp (f : Digests → Digests) : (s.modDigests f).disp = s.disp := rfl
@[simp] theorem State.modDigests_prf (f : Digests → Digests) : (s.modDigests f).prf = s.prf := rfl
@[simp] theorem State.modDigests_ecuFailed (f : Digests → Digests) : (s.modDigests f).ecuFailed = s.ecuFailed := rfl
@[simp] theorem State.modDigests_digests (f : Digests → Digests) : (s.modDigests f).digests = f s.digests := rfl
@[simp] theorem State.modDigests_keys (f : Digests → Digests) : (s.modDigests f).keys = s.keys := rfl
@[simp] theorem State.modDigests_banks (f : Digests → Digests) : (s.modDigests f).banks = s.banks := rfl
@[simp] theorem State.modDigests_mem (f : Digests → Digests) : (s.modDigests f).mem = s.mem := rfl
@[simp] theorem State.modDigests_firon (f : Digests → Digests) : (s.modDigests f).firon = s.firon := rfl
@[simp] theorem State.modDigests_hk (f : Digests → Digests) : (s.modDigests f).hk = s.hk := rfl
@[simp] theorem State.modDigests_eid (f : Digests → Digests) : (s.modDigests f).eid = s.eid := rfl
@[simp] theorem State.modDigests_dynAddr (f : Digests → Digests) : (s.modDigests f).dynAddr = s.dynAddr := rfl
@[simp] theorem State.modDigests_tx (f : Digests → Digests) : (s.modDigests f).tx = s.tx := rfl
@[simp] theorem State.modDigests_fresh (f : Digests → Digests) : (s.modDigests f).fresh = s.fresh := rfl

/-! ## modFiron -/

@[simp] theorem State.modFiron_pending (f : Firon → Firon) : (s.modFiron f).pending = s.pending := rfl
@[simp] theorem State.modFiron_modes (f : Firon → Firon) : (s.modFiron f).modes = s.modes := rfl
@[simp] theorem State.modFiron_boot (f : Firon → Firon) : (s.modFiron f).boot = s.boot := rfl
@[simp] theorem State.modFiron_cfg (f : Firon → Firon) : (s.modFiron f).cfg = s.cfg := rfl
@[simp] theorem State.modFiron_evr (f : Firon → Firon) : (s.modFiron f).evr = s.evr := rfl
@[simp] theorem State.modFiron_regs (f : Firon → Firon) : (s.modFiron f).regs = s.regs := rfl
@[simp] theorem State.modFiron_latches (f : Firon → Firon) : (s.modFiron f).latches = s.latches := rfl
@[simp] theorem State.modFiron_bifHigh (f : Firon → Firon) : (s.modFiron f).bifHigh = s.bifHigh := rfl
@[simp] theorem State.modFiron_mgmtSel (f : Firon → Firon) : (s.modFiron f).mgmtSel = s.mgmtSel := rfl
@[simp] theorem State.modFiron_hostA (f : Firon → Firon) : (s.modFiron f).hostA = s.hostA := rfl
@[simp] theorem State.modFiron_hostB (f : Firon → Firon) : (s.modFiron f).hostB = s.hostB := rfl
@[simp] theorem State.modFiron_fns (f : Firon → Firon) : (s.modFiron f).fns = s.fns := rfl
@[simp] theorem State.modFiron_tenants (f : Firon → Firon) : (s.modFiron f).tenants = s.tenants := rfl
@[simp] theorem State.modFiron_qps (f : Firon → Firon) : (s.modFiron f).qps = s.qps := rfl
@[simp] theorem State.modFiron_cmds (f : Firon → Firon) : (s.modFiron f).cmds = s.cmds := rfl
@[simp] theorem State.modFiron_nextTag (f : Firon → Firon) : (s.modFiron f).nextTag = s.nextTag := rfl
@[simp] theorem State.modFiron_held (f : Firon → Firon) : (s.modFiron f).held = s.held := rfl
@[simp] theorem State.modFiron_ctxs (f : Firon → Firon) : (s.modFiron f).ctxs = s.ctxs := rfl
@[simp] theorem State.modFiron_slotAllocs (f : Firon → Firon) : (s.modFiron f).slotAllocs = s.slotAllocs := rfl
@[simp] theorem State.modFiron_versions (f : Firon → Firon) : (s.modFiron f).versions = s.versions := rfl
@[simp] theorem State.modFiron_commits (f : Firon → Firon) : (s.modFiron f).commits = s.commits := rfl
@[simp] theorem State.modFiron_nextCommit (f : Firon → Firon) : (s.modFiron f).nextCommit = s.nextCommit := rfl
@[simp] theorem State.modFiron_records (f : Firon → Firon) : (s.modFiron f).records = s.records := rfl
@[simp] theorem State.modFiron_flash (f : Firon → Firon) : (s.modFiron f).flash = s.flash := rfl
@[simp] theorem State.modFiron_crumbs (f : Firon → Firon) : (s.modFiron f).crumbs = s.crumbs := rfl
@[simp] theorem State.modFiron_ctrls (f : Firon → Firon) : (s.modFiron f).ctrls = s.ctrls := rfl
@[simp] theorem State.modFiron_jobs (f : Firon → Firon) : (s.modFiron f).jobs = s.jobs := rfl
@[simp] theorem State.modFiron_bufs (f : Firon → Firon) : (s.modFiron f).bufs = s.bufs := rfl
@[simp] theorem State.modFiron_rollers (f : Firon → Firon) : (s.modFiron f).rollers = s.rollers := rfl
@[simp] theorem State.modFiron_rolls (f : Firon → Firon) : (s.modFiron f).rolls = s.rolls := rfl
@[simp] theorem State.modFiron_disp (f : Firon → Firon) : (s.modFiron f).disp = s.disp := rfl
@[simp] theorem State.modFiron_prf (f : Firon → Firon) : (s.modFiron f).prf = s.prf := rfl
@[simp] theorem State.modFiron_ecuFailed (f : Firon → Firon) : (s.modFiron f).ecuFailed = s.ecuFailed := rfl
@[simp] theorem State.modFiron_digests (f : Firon → Firon) : (s.modFiron f).digests = s.digests := rfl
@[simp] theorem State.modFiron_keys (f : Firon → Firon) : (s.modFiron f).keys = s.keys := rfl
@[simp] theorem State.modFiron_banks (f : Firon → Firon) : (s.modFiron f).banks = s.banks := rfl
@[simp] theorem State.modFiron_mem (f : Firon → Firon) : (s.modFiron f).mem = s.mem := rfl
@[simp] theorem State.modFiron_firon (f : Firon → Firon) : (s.modFiron f).firon = f s.firon := rfl
@[simp] theorem State.modFiron_hk (f : Firon → Firon) : (s.modFiron f).hk = s.hk := rfl
@[simp] theorem State.modFiron_eid (f : Firon → Firon) : (s.modFiron f).eid = s.eid := rfl
@[simp] theorem State.modFiron_dynAddr (f : Firon → Firon) : (s.modFiron f).dynAddr = s.dynAddr := rfl
@[simp] theorem State.modFiron_tx (f : Firon → Firon) : (s.modFiron f).tx = s.tx := rfl
@[simp] theorem State.modFiron_fresh (f : Firon → Firon) : (s.modFiron f).fresh = s.fresh := rfl

/-! ## modFlash -/

@[simp] theorem State.modFlash_pending (f : Flash → Flash) : (s.modFlash f).pending = s.pending := rfl
@[simp] theorem State.modFlash_modes (f : Flash → Flash) : (s.modFlash f).modes = s.modes := rfl
@[simp] theorem State.modFlash_boot (f : Flash → Flash) : (s.modFlash f).boot = s.boot := rfl
@[simp] theorem State.modFlash_cfg (f : Flash → Flash) : (s.modFlash f).cfg = s.cfg := rfl
@[simp] theorem State.modFlash_evr (f : Flash → Flash) : (s.modFlash f).evr = s.evr := rfl
@[simp] theorem State.modFlash_regs (f : Flash → Flash) : (s.modFlash f).regs = s.regs := rfl
@[simp] theorem State.modFlash_latches (f : Flash → Flash) : (s.modFlash f).latches = s.latches := rfl
@[simp] theorem State.modFlash_bifHigh (f : Flash → Flash) : (s.modFlash f).bifHigh = s.bifHigh := rfl
@[simp] theorem State.modFlash_mgmtSel (f : Flash → Flash) : (s.modFlash f).mgmtSel = s.mgmtSel := rfl
@[simp] theorem State.modFlash_hostA (f : Flash → Flash) : (s.modFlash f).hostA = s.hostA := rfl
@[simp] theorem State.modFlash_hostB (f : Flash → Flash) : (s.modFlash f).hostB = s.hostB := rfl
@[simp] theorem State.modFlash_fns (f : Flash → Flash) : (s.modFlash f).fns = s.fns := rfl
@[simp] theorem State.modFlash_tenants (f : Flash → Flash) : (s.modFlash f).tenants = s.tenants := rfl
@[simp] theorem State.modFlash_qps (f : Flash → Flash) : (s.modFlash f).qps = s.qps := rfl
@[simp] theorem State.modFlash_cmds (f : Flash → Flash) : (s.modFlash f).cmds = s.cmds := rfl
@[simp] theorem State.modFlash_nextTag (f : Flash → Flash) : (s.modFlash f).nextTag = s.nextTag := rfl
@[simp] theorem State.modFlash_held (f : Flash → Flash) : (s.modFlash f).held = s.held := rfl
@[simp] theorem State.modFlash_ctxs (f : Flash → Flash) : (s.modFlash f).ctxs = s.ctxs := rfl
@[simp] theorem State.modFlash_slotAllocs (f : Flash → Flash) : (s.modFlash f).slotAllocs = s.slotAllocs := rfl
@[simp] theorem State.modFlash_versions (f : Flash → Flash) : (s.modFlash f).versions = s.versions := rfl
@[simp] theorem State.modFlash_commits (f : Flash → Flash) : (s.modFlash f).commits = s.commits := rfl
@[simp] theorem State.modFlash_nextCommit (f : Flash → Flash) : (s.modFlash f).nextCommit = s.nextCommit := rfl
@[simp] theorem State.modFlash_records (f : Flash → Flash) : (s.modFlash f).records = s.records := rfl
@[simp] theorem State.modFlash_flash (f : Flash → Flash) : (s.modFlash f).flash = f s.flash := rfl
@[simp] theorem State.modFlash_crumbs (f : Flash → Flash) : (s.modFlash f).crumbs = s.crumbs := rfl
@[simp] theorem State.modFlash_ctrls (f : Flash → Flash) : (s.modFlash f).ctrls = s.ctrls := rfl
@[simp] theorem State.modFlash_jobs (f : Flash → Flash) : (s.modFlash f).jobs = s.jobs := rfl
@[simp] theorem State.modFlash_bufs (f : Flash → Flash) : (s.modFlash f).bufs = s.bufs := rfl
@[simp] theorem State.modFlash_rollers (f : Flash → Flash) : (s.modFlash f).rollers = s.rollers := rfl
@[simp] theorem State.modFlash_rolls (f : Flash → Flash) : (s.modFlash f).rolls = s.rolls := rfl
@[simp] theorem State.modFlash_disp (f : Flash → Flash) : (s.modFlash f).disp = s.disp := rfl
@[simp] theorem State.modFlash_prf (f : Flash → Flash) : (s.modFlash f).prf = s.prf := rfl
@[simp] theorem State.modFlash_ecuFailed (f : Flash → Flash) : (s.modFlash f).ecuFailed = s.ecuFailed := rfl
@[simp] theorem State.modFlash_digests (f : Flash → Flash) : (s.modFlash f).digests = s.digests := rfl
@[simp] theorem State.modFlash_keys (f : Flash → Flash) : (s.modFlash f).keys = s.keys := rfl
@[simp] theorem State.modFlash_banks (f : Flash → Flash) : (s.modFlash f).banks = s.banks := rfl
@[simp] theorem State.modFlash_mem (f : Flash → Flash) : (s.modFlash f).mem = s.mem := rfl
@[simp] theorem State.modFlash_firon (f : Flash → Flash) : (s.modFlash f).firon = s.firon := rfl
@[simp] theorem State.modFlash_hk (f : Flash → Flash) : (s.modFlash f).hk = s.hk := rfl
@[simp] theorem State.modFlash_eid (f : Flash → Flash) : (s.modFlash f).eid = s.eid := rfl
@[simp] theorem State.modFlash_dynAddr (f : Flash → Flash) : (s.modFlash f).dynAddr = s.dynAddr := rfl
@[simp] theorem State.modFlash_tx (f : Flash → Flash) : (s.modFlash f).tx = s.tx := rfl
@[simp] theorem State.modFlash_fresh (f : Flash → Flash) : (s.modFlash f).fresh = s.fresh := rfl

/-! ## modHk -/

@[simp] theorem State.modHk_pending (f : Housekeeping → Housekeeping) : (s.modHk f).pending = s.pending := rfl
@[simp] theorem State.modHk_modes (f : Housekeeping → Housekeeping) : (s.modHk f).modes = s.modes := rfl
@[simp] theorem State.modHk_boot (f : Housekeeping → Housekeeping) : (s.modHk f).boot = s.boot := rfl
@[simp] theorem State.modHk_cfg (f : Housekeeping → Housekeeping) : (s.modHk f).cfg = s.cfg := rfl
@[simp] theorem State.modHk_evr (f : Housekeeping → Housekeeping) : (s.modHk f).evr = s.evr := rfl
@[simp] theorem State.modHk_regs (f : Housekeeping → Housekeeping) : (s.modHk f).regs = s.regs := rfl
@[simp] theorem State.modHk_latches (f : Housekeeping → Housekeeping) : (s.modHk f).latches = s.latches := rfl
@[simp] theorem State.modHk_bifHigh (f : Housekeeping → Housekeeping) : (s.modHk f).bifHigh = s.bifHigh := rfl
@[simp] theorem State.modHk_mgmtSel (f : Housekeeping → Housekeeping) : (s.modHk f).mgmtSel = s.mgmtSel := rfl
@[simp] theorem State.modHk_hostA (f : Housekeeping → Housekeeping) : (s.modHk f).hostA = s.hostA := rfl
@[simp] theorem State.modHk_hostB (f : Housekeeping → Housekeeping) : (s.modHk f).hostB = s.hostB := rfl
@[simp] theorem State.modHk_fns (f : Housekeeping → Housekeeping) : (s.modHk f).fns = s.fns := rfl
@[simp] theorem State.modHk_tenants (f : Housekeeping → Housekeeping) : (s.modHk f).tenants = s.tenants := rfl
@[simp] theorem State.modHk_qps (f : Housekeeping → Housekeeping) : (s.modHk f).qps = s.qps := rfl
@[simp] theorem State.modHk_cmds (f : Housekeeping → Housekeeping) : (s.modHk f).cmds = s.cmds := rfl
@[simp] theorem State.modHk_nextTag (f : Housekeeping → Housekeeping) : (s.modHk f).nextTag = s.nextTag := rfl
@[simp] theorem State.modHk_held (f : Housekeeping → Housekeeping) : (s.modHk f).held = s.held := rfl
@[simp] theorem State.modHk_ctxs (f : Housekeeping → Housekeeping) : (s.modHk f).ctxs = s.ctxs := rfl
@[simp] theorem State.modHk_slotAllocs (f : Housekeeping → Housekeeping) : (s.modHk f).slotAllocs = s.slotAllocs := rfl
@[simp] theorem State.modHk_versions (f : Housekeeping → Housekeeping) : (s.modHk f).versions = s.versions := rfl
@[simp] theorem State.modHk_commits (f : Housekeeping → Housekeeping) : (s.modHk f).commits = s.commits := rfl
@[simp] theorem State.modHk_nextCommit (f : Housekeeping → Housekeeping) : (s.modHk f).nextCommit = s.nextCommit := rfl
@[simp] theorem State.modHk_records (f : Housekeeping → Housekeeping) : (s.modHk f).records = s.records := rfl
@[simp] theorem State.modHk_flash (f : Housekeeping → Housekeeping) : (s.modHk f).flash = s.flash := rfl
@[simp] theorem State.modHk_crumbs (f : Housekeeping → Housekeeping) : (s.modHk f).crumbs = s.crumbs := rfl
@[simp] theorem State.modHk_ctrls (f : Housekeeping → Housekeeping) : (s.modHk f).ctrls = s.ctrls := rfl
@[simp] theorem State.modHk_jobs (f : Housekeeping → Housekeeping) : (s.modHk f).jobs = s.jobs := rfl
@[simp] theorem State.modHk_bufs (f : Housekeeping → Housekeeping) : (s.modHk f).bufs = s.bufs := rfl
@[simp] theorem State.modHk_rollers (f : Housekeeping → Housekeeping) : (s.modHk f).rollers = s.rollers := rfl
@[simp] theorem State.modHk_rolls (f : Housekeeping → Housekeeping) : (s.modHk f).rolls = s.rolls := rfl
@[simp] theorem State.modHk_disp (f : Housekeeping → Housekeeping) : (s.modHk f).disp = s.disp := rfl
@[simp] theorem State.modHk_prf (f : Housekeeping → Housekeeping) : (s.modHk f).prf = s.prf := rfl
@[simp] theorem State.modHk_ecuFailed (f : Housekeeping → Housekeeping) : (s.modHk f).ecuFailed = s.ecuFailed := rfl
@[simp] theorem State.modHk_digests (f : Housekeeping → Housekeeping) : (s.modHk f).digests = s.digests := rfl
@[simp] theorem State.modHk_keys (f : Housekeeping → Housekeeping) : (s.modHk f).keys = s.keys := rfl
@[simp] theorem State.modHk_banks (f : Housekeeping → Housekeeping) : (s.modHk f).banks = s.banks := rfl
@[simp] theorem State.modHk_mem (f : Housekeeping → Housekeeping) : (s.modHk f).mem = s.mem := rfl
@[simp] theorem State.modHk_firon (f : Housekeeping → Housekeeping) : (s.modHk f).firon = s.firon := rfl
@[simp] theorem State.modHk_hk (f : Housekeeping → Housekeeping) : (s.modHk f).hk = f s.hk := rfl
@[simp] theorem State.modHk_eid (f : Housekeeping → Housekeeping) : (s.modHk f).eid = s.eid := rfl
@[simp] theorem State.modHk_dynAddr (f : Housekeeping → Housekeeping) : (s.modHk f).dynAddr = s.dynAddr := rfl
@[simp] theorem State.modHk_tx (f : Housekeeping → Housekeeping) : (s.modHk f).tx = s.tx := rfl
@[simp] theorem State.modHk_fresh (f : Housekeeping → Housekeeping) : (s.modHk f).fresh = s.fresh := rfl

/-! ## modEvr -/

@[simp] theorem State.modEvr_pending (f : EvRecorder → EvRecorder) : (s.modEvr f).pending = s.pending := rfl
@[simp] theorem State.modEvr_modes (f : EvRecorder → EvRecorder) : (s.modEvr f).modes = s.modes := rfl
@[simp] theorem State.modEvr_boot (f : EvRecorder → EvRecorder) : (s.modEvr f).boot = s.boot := rfl
@[simp] theorem State.modEvr_cfg (f : EvRecorder → EvRecorder) : (s.modEvr f).cfg = s.cfg := rfl
@[simp] theorem State.modEvr_evr (f : EvRecorder → EvRecorder) : (s.modEvr f).evr = f s.evr := rfl
@[simp] theorem State.modEvr_regs (f : EvRecorder → EvRecorder) : (s.modEvr f).regs = s.regs := rfl
@[simp] theorem State.modEvr_latches (f : EvRecorder → EvRecorder) : (s.modEvr f).latches = s.latches := rfl
@[simp] theorem State.modEvr_bifHigh (f : EvRecorder → EvRecorder) : (s.modEvr f).bifHigh = s.bifHigh := rfl
@[simp] theorem State.modEvr_mgmtSel (f : EvRecorder → EvRecorder) : (s.modEvr f).mgmtSel = s.mgmtSel := rfl
@[simp] theorem State.modEvr_hostA (f : EvRecorder → EvRecorder) : (s.modEvr f).hostA = s.hostA := rfl
@[simp] theorem State.modEvr_hostB (f : EvRecorder → EvRecorder) : (s.modEvr f).hostB = s.hostB := rfl
@[simp] theorem State.modEvr_fns (f : EvRecorder → EvRecorder) : (s.modEvr f).fns = s.fns := rfl
@[simp] theorem State.modEvr_tenants (f : EvRecorder → EvRecorder) : (s.modEvr f).tenants = s.tenants := rfl
@[simp] theorem State.modEvr_qps (f : EvRecorder → EvRecorder) : (s.modEvr f).qps = s.qps := rfl
@[simp] theorem State.modEvr_cmds (f : EvRecorder → EvRecorder) : (s.modEvr f).cmds = s.cmds := rfl
@[simp] theorem State.modEvr_nextTag (f : EvRecorder → EvRecorder) : (s.modEvr f).nextTag = s.nextTag := rfl
@[simp] theorem State.modEvr_held (f : EvRecorder → EvRecorder) : (s.modEvr f).held = s.held := rfl
@[simp] theorem State.modEvr_ctxs (f : EvRecorder → EvRecorder) : (s.modEvr f).ctxs = s.ctxs := rfl
@[simp] theorem State.modEvr_slotAllocs (f : EvRecorder → EvRecorder) : (s.modEvr f).slotAllocs = s.slotAllocs := rfl
@[simp] theorem State.modEvr_versions (f : EvRecorder → EvRecorder) : (s.modEvr f).versions = s.versions := rfl
@[simp] theorem State.modEvr_commits (f : EvRecorder → EvRecorder) : (s.modEvr f).commits = s.commits := rfl
@[simp] theorem State.modEvr_nextCommit (f : EvRecorder → EvRecorder) : (s.modEvr f).nextCommit = s.nextCommit := rfl
@[simp] theorem State.modEvr_records (f : EvRecorder → EvRecorder) : (s.modEvr f).records = s.records := rfl
@[simp] theorem State.modEvr_flash (f : EvRecorder → EvRecorder) : (s.modEvr f).flash = s.flash := rfl
@[simp] theorem State.modEvr_crumbs (f : EvRecorder → EvRecorder) : (s.modEvr f).crumbs = s.crumbs := rfl
@[simp] theorem State.modEvr_ctrls (f : EvRecorder → EvRecorder) : (s.modEvr f).ctrls = s.ctrls := rfl
@[simp] theorem State.modEvr_jobs (f : EvRecorder → EvRecorder) : (s.modEvr f).jobs = s.jobs := rfl
@[simp] theorem State.modEvr_bufs (f : EvRecorder → EvRecorder) : (s.modEvr f).bufs = s.bufs := rfl
@[simp] theorem State.modEvr_rollers (f : EvRecorder → EvRecorder) : (s.modEvr f).rollers = s.rollers := rfl
@[simp] theorem State.modEvr_rolls (f : EvRecorder → EvRecorder) : (s.modEvr f).rolls = s.rolls := rfl
@[simp] theorem State.modEvr_disp (f : EvRecorder → EvRecorder) : (s.modEvr f).disp = s.disp := rfl
@[simp] theorem State.modEvr_prf (f : EvRecorder → EvRecorder) : (s.modEvr f).prf = s.prf := rfl
@[simp] theorem State.modEvr_ecuFailed (f : EvRecorder → EvRecorder) : (s.modEvr f).ecuFailed = s.ecuFailed := rfl
@[simp] theorem State.modEvr_digests (f : EvRecorder → EvRecorder) : (s.modEvr f).digests = s.digests := rfl
@[simp] theorem State.modEvr_keys (f : EvRecorder → EvRecorder) : (s.modEvr f).keys = s.keys := rfl
@[simp] theorem State.modEvr_banks (f : EvRecorder → EvRecorder) : (s.modEvr f).banks = s.banks := rfl
@[simp] theorem State.modEvr_mem (f : EvRecorder → EvRecorder) : (s.modEvr f).mem = s.mem := rfl
@[simp] theorem State.modEvr_firon (f : EvRecorder → EvRecorder) : (s.modEvr f).firon = s.firon := rfl
@[simp] theorem State.modEvr_hk (f : EvRecorder → EvRecorder) : (s.modEvr f).hk = s.hk := rfl
@[simp] theorem State.modEvr_eid (f : EvRecorder → EvRecorder) : (s.modEvr f).eid = s.eid := rfl
@[simp] theorem State.modEvr_dynAddr (f : EvRecorder → EvRecorder) : (s.modEvr f).dynAddr = s.dynAddr := rfl
@[simp] theorem State.modEvr_tx (f : EvRecorder → EvRecorder) : (s.modEvr f).tx = s.tx := rfl
@[simp] theorem State.modEvr_fresh (f : EvRecorder → EvRecorder) : (s.modEvr f).fresh = s.fresh := rfl

/-! ## modCrumb -/

@[simp] theorem State.modCrumb_pending (c : Nat) (f : Crumb → Crumb) : (s.modCrumb c f).pending = s.pending := rfl
@[simp] theorem State.modCrumb_modes (c : Nat) (f : Crumb → Crumb) : (s.modCrumb c f).modes = s.modes := rfl
@[simp] theorem State.modCrumb_boot (c : Nat) (f : Crumb → Crumb) : (s.modCrumb c f).boot = s.boot := rfl
@[simp] theorem State.modCrumb_cfg (c : Nat) (f : Crumb → Crumb) : (s.modCrumb c f).cfg = s.cfg := rfl
@[simp] theorem State.modCrumb_evr (c : Nat) (f : Crumb → Crumb) : (s.modCrumb c f).evr = s.evr := rfl
@[simp] theorem State.modCrumb_regs (c : Nat) (f : Crumb → Crumb) : (s.modCrumb c f).regs = s.regs := rfl
@[simp] theorem State.modCrumb_latches (c : Nat) (f : Crumb → Crumb) : (s.modCrumb c f).latches = s.latches := rfl
@[simp] theorem State.modCrumb_bifHigh (c : Nat) (f : Crumb → Crumb) : (s.modCrumb c f).bifHigh = s.bifHigh := rfl
@[simp] theorem State.modCrumb_mgmtSel (c : Nat) (f : Crumb → Crumb) : (s.modCrumb c f).mgmtSel = s.mgmtSel := rfl
@[simp] theorem State.modCrumb_hostA (c : Nat) (f : Crumb → Crumb) : (s.modCrumb c f).hostA = s.hostA := rfl
@[simp] theorem State.modCrumb_hostB (c : Nat) (f : Crumb → Crumb) : (s.modCrumb c f).hostB = s.hostB := rfl
@[simp] theorem State.modCrumb_fns (c : Nat) (f : Crumb → Crumb) : (s.modCrumb c f).fns = s.fns := rfl
@[simp] theorem State.modCrumb_tenants (c : Nat) (f : Crumb → Crumb) : (s.modCrumb c f).tenants = s.tenants := rfl
@[simp] theorem State.modCrumb_qps (c : Nat) (f : Crumb → Crumb) : (s.modCrumb c f).qps = s.qps := rfl
@[simp] theorem State.modCrumb_cmds (c : Nat) (f : Crumb → Crumb) : (s.modCrumb c f).cmds = s.cmds := rfl
@[simp] theorem State.modCrumb_nextTag (c : Nat) (f : Crumb → Crumb) : (s.modCrumb c f).nextTag = s.nextTag := rfl
@[simp] theorem State.modCrumb_held (c : Nat) (f : Crumb → Crumb) : (s.modCrumb c f).held = s.held := rfl
@[simp] theorem State.modCrumb_ctxs (c : Nat) (f : Crumb → Crumb) : (s.modCrumb c f).ctxs = s.ctxs := rfl
@[simp] theorem State.modCrumb_slotAllocs (c : Nat) (f : Crumb → Crumb) : (s.modCrumb c f).slotAllocs = s.slotAllocs := rfl
@[simp] theorem State.modCrumb_versions (c : Nat) (f : Crumb → Crumb) : (s.modCrumb c f).versions = s.versions := rfl
@[simp] theorem State.modCrumb_commits (c : Nat) (f : Crumb → Crumb) : (s.modCrumb c f).commits = s.commits := rfl
@[simp] theorem State.modCrumb_nextCommit (c : Nat) (f : Crumb → Crumb) : (s.modCrumb c f).nextCommit = s.nextCommit := rfl
@[simp] theorem State.modCrumb_records (c : Nat) (f : Crumb → Crumb) : (s.modCrumb c f).records = s.records := rfl
@[simp] theorem State.modCrumb_flash (c : Nat) (f : Crumb → Crumb) : (s.modCrumb c f).flash = s.flash := rfl
@[simp] theorem State.modCrumb_crumbs (c : Nat) (f : Crumb → Crumb) : (s.modCrumb c f).crumbs = s.crumbs.upd c Crumb.init f := rfl
@[simp] theorem State.modCrumb_ctrls (c : Nat) (f : Crumb → Crumb) : (s.modCrumb c f).ctrls = s.ctrls := rfl
@[simp] theorem State.modCrumb_jobs (c : Nat) (f : Crumb → Crumb) : (s.modCrumb c f).jobs = s.jobs := rfl
@[simp] theorem State.modCrumb_bufs (c : Nat) (f : Crumb → Crumb) : (s.modCrumb c f).bufs = s.bufs := rfl
@[simp] theorem State.modCrumb_rollers (c : Nat) (f : Crumb → Crumb) : (s.modCrumb c f).rollers = s.rollers := rfl
@[simp] theorem State.modCrumb_rolls (c : Nat) (f : Crumb → Crumb) : (s.modCrumb c f).rolls = s.rolls := rfl
@[simp] theorem State.modCrumb_disp (c : Nat) (f : Crumb → Crumb) : (s.modCrumb c f).disp = s.disp := rfl
@[simp] theorem State.modCrumb_prf (c : Nat) (f : Crumb → Crumb) : (s.modCrumb c f).prf = s.prf := rfl
@[simp] theorem State.modCrumb_ecuFailed (c : Nat) (f : Crumb → Crumb) : (s.modCrumb c f).ecuFailed = s.ecuFailed := rfl
@[simp] theorem State.modCrumb_digests (c : Nat) (f : Crumb → Crumb) : (s.modCrumb c f).digests = s.digests := rfl
@[simp] theorem State.modCrumb_keys (c : Nat) (f : Crumb → Crumb) : (s.modCrumb c f).keys = s.keys := rfl
@[simp] theorem State.modCrumb_banks (c : Nat) (f : Crumb → Crumb) : (s.modCrumb c f).banks = s.banks := rfl
@[simp] theorem State.modCrumb_mem (c : Nat) (f : Crumb → Crumb) : (s.modCrumb c f).mem = s.mem := rfl
@[simp] theorem State.modCrumb_firon (c : Nat) (f : Crumb → Crumb) : (s.modCrumb c f).firon = s.firon := rfl
@[simp] theorem State.modCrumb_hk (c : Nat) (f : Crumb → Crumb) : (s.modCrumb c f).hk = s.hk := rfl
@[simp] theorem State.modCrumb_eid (c : Nat) (f : Crumb → Crumb) : (s.modCrumb c f).eid = s.eid := rfl
@[simp] theorem State.modCrumb_dynAddr (c : Nat) (f : Crumb → Crumb) : (s.modCrumb c f).dynAddr = s.dynAddr := rfl
@[simp] theorem State.modCrumb_tx (c : Nat) (f : Crumb → Crumb) : (s.modCrumb c f).tx = s.tx := rfl
@[simp] theorem State.modCrumb_fresh (c : Nat) (f : Crumb → Crumb) : (s.modCrumb c f).fresh = s.fresh := rfl

/-! ## modCcore -/

@[simp] theorem State.modCcore_pending (c : Nat) (f : CtrlCore → CtrlCore) : (s.modCcore c f).pending = s.pending := rfl
@[simp] theorem State.modCcore_modes (c : Nat) (f : CtrlCore → CtrlCore) : (s.modCcore c f).modes = s.modes := rfl
@[simp] theorem State.modCcore_boot (c : Nat) (f : CtrlCore → CtrlCore) : (s.modCcore c f).boot = s.boot := rfl
@[simp] theorem State.modCcore_cfg (c : Nat) (f : CtrlCore → CtrlCore) : (s.modCcore c f).cfg = s.cfg := rfl
@[simp] theorem State.modCcore_evr (c : Nat) (f : CtrlCore → CtrlCore) : (s.modCcore c f).evr = s.evr := rfl
@[simp] theorem State.modCcore_regs (c : Nat) (f : CtrlCore → CtrlCore) : (s.modCcore c f).regs = s.regs := rfl
@[simp] theorem State.modCcore_latches (c : Nat) (f : CtrlCore → CtrlCore) : (s.modCcore c f).latches = s.latches := rfl
@[simp] theorem State.modCcore_bifHigh (c : Nat) (f : CtrlCore → CtrlCore) : (s.modCcore c f).bifHigh = s.bifHigh := rfl
@[simp] theorem State.modCcore_mgmtSel (c : Nat) (f : CtrlCore → CtrlCore) : (s.modCcore c f).mgmtSel = s.mgmtSel := rfl
@[simp] theorem State.modCcore_hostA (c : Nat) (f : CtrlCore → CtrlCore) : (s.modCcore c f).hostA = s.hostA := rfl
@[simp] theorem State.modCcore_hostB (c : Nat) (f : CtrlCore → CtrlCore) : (s.modCcore c f).hostB = s.hostB := rfl
@[simp] theorem State.modCcore_fns (c : Nat) (f : CtrlCore → CtrlCore) : (s.modCcore c f).fns = s.fns := rfl
@[simp] theorem State.modCcore_tenants (c : Nat) (f : CtrlCore → CtrlCore) : (s.modCcore c f).tenants = s.tenants := rfl
@[simp] theorem State.modCcore_qps (c : Nat) (f : CtrlCore → CtrlCore) : (s.modCcore c f).qps = s.qps := rfl
@[simp] theorem State.modCcore_cmds (c : Nat) (f : CtrlCore → CtrlCore) : (s.modCcore c f).cmds = s.cmds := rfl
@[simp] theorem State.modCcore_nextTag (c : Nat) (f : CtrlCore → CtrlCore) : (s.modCcore c f).nextTag = s.nextTag := rfl
@[simp] theorem State.modCcore_held (c : Nat) (f : CtrlCore → CtrlCore) : (s.modCcore c f).held = s.held := rfl
@[simp] theorem State.modCcore_ctxs (c : Nat) (f : CtrlCore → CtrlCore) : (s.modCcore c f).ctxs = s.ctxs := rfl
@[simp] theorem State.modCcore_slotAllocs (c : Nat) (f : CtrlCore → CtrlCore) : (s.modCcore c f).slotAllocs = s.slotAllocs := rfl
@[simp] theorem State.modCcore_versions (c : Nat) (f : CtrlCore → CtrlCore) : (s.modCcore c f).versions = s.versions := rfl
@[simp] theorem State.modCcore_commits (c : Nat) (f : CtrlCore → CtrlCore) : (s.modCcore c f).commits = s.commits := rfl
@[simp] theorem State.modCcore_nextCommit (c : Nat) (f : CtrlCore → CtrlCore) : (s.modCcore c f).nextCommit = s.nextCommit := rfl
@[simp] theorem State.modCcore_records (c : Nat) (f : CtrlCore → CtrlCore) : (s.modCcore c f).records = s.records := rfl
@[simp] theorem State.modCcore_flash (c : Nat) (f : CtrlCore → CtrlCore) : (s.modCcore c f).flash = s.flash := rfl
@[simp] theorem State.modCcore_crumbs (c : Nat) (f : CtrlCore → CtrlCore) : (s.modCcore c f).crumbs = s.crumbs := rfl
@[simp] theorem State.modCcore_ctrls (c : Nat) (f : CtrlCore → CtrlCore) : (s.modCcore c f).ctrls = s.ctrls.upd c CtrlCore.init f := rfl
@[simp] theorem State.modCcore_jobs (c : Nat) (f : CtrlCore → CtrlCore) : (s.modCcore c f).jobs = s.jobs := rfl
@[simp] theorem State.modCcore_bufs (c : Nat) (f : CtrlCore → CtrlCore) : (s.modCcore c f).bufs = s.bufs := rfl
@[simp] theorem State.modCcore_rollers (c : Nat) (f : CtrlCore → CtrlCore) : (s.modCcore c f).rollers = s.rollers := rfl
@[simp] theorem State.modCcore_rolls (c : Nat) (f : CtrlCore → CtrlCore) : (s.modCcore c f).rolls = s.rolls := rfl
@[simp] theorem State.modCcore_disp (c : Nat) (f : CtrlCore → CtrlCore) : (s.modCcore c f).disp = s.disp := rfl
@[simp] theorem State.modCcore_prf (c : Nat) (f : CtrlCore → CtrlCore) : (s.modCcore c f).prf = s.prf := rfl
@[simp] theorem State.modCcore_ecuFailed (c : Nat) (f : CtrlCore → CtrlCore) : (s.modCcore c f).ecuFailed = s.ecuFailed := rfl
@[simp] theorem State.modCcore_digests (c : Nat) (f : CtrlCore → CtrlCore) : (s.modCcore c f).digests = s.digests := rfl
@[simp] theorem State.modCcore_keys (c : Nat) (f : CtrlCore → CtrlCore) : (s.modCcore c f).keys = s.keys := rfl
@[simp] theorem State.modCcore_banks (c : Nat) (f : CtrlCore → CtrlCore) : (s.modCcore c f).banks = s.banks := rfl
@[simp] theorem State.modCcore_mem (c : Nat) (f : CtrlCore → CtrlCore) : (s.modCcore c f).mem = s.mem := rfl
@[simp] theorem State.modCcore_firon (c : Nat) (f : CtrlCore → CtrlCore) : (s.modCcore c f).firon = s.firon := rfl
@[simp] theorem State.modCcore_hk (c : Nat) (f : CtrlCore → CtrlCore) : (s.modCcore c f).hk = s.hk := rfl
@[simp] theorem State.modCcore_eid (c : Nat) (f : CtrlCore → CtrlCore) : (s.modCcore c f).eid = s.eid := rfl
@[simp] theorem State.modCcore_dynAddr (c : Nat) (f : CtrlCore → CtrlCore) : (s.modCcore c f).dynAddr = s.dynAddr := rfl
@[simp] theorem State.modCcore_tx (c : Nat) (f : CtrlCore → CtrlCore) : (s.modCcore c f).tx = s.tx := rfl
@[simp] theorem State.modCcore_fresh (c : Nat) (f : CtrlCore → CtrlCore) : (s.modCcore c f).fresh = s.fresh := rfl

/-! ## modJob -/

@[simp] theorem State.modJob_pending (slot : Nat) (f : Job → Job) : (s.modJob slot f).pending = s.pending := rfl
@[simp] theorem State.modJob_modes (slot : Nat) (f : Job → Job) : (s.modJob slot f).modes = s.modes := rfl
@[simp] theorem State.modJob_boot (slot : Nat) (f : Job → Job) : (s.modJob slot f).boot = s.boot := rfl
@[simp] theorem State.modJob_cfg (slot : Nat) (f : Job → Job) : (s.modJob slot f).cfg = s.cfg := rfl
@[simp] theorem State.modJob_evr (slot : Nat) (f : Job → Job) : (s.modJob slot f).evr = s.evr := rfl
@[simp] theorem State.modJob_regs (slot : Nat) (f : Job → Job) : (s.modJob slot f).regs = s.regs := rfl
@[simp] theorem State.modJob_latches (slot : Nat) (f : Job → Job) : (s.modJob slot f).latches = s.latches := rfl
@[simp] theorem State.modJob_bifHigh (slot : Nat) (f : Job → Job) : (s.modJob slot f).bifHigh = s.bifHigh := rfl
@[simp] theorem State.modJob_mgmtSel (slot : Nat) (f : Job → Job) : (s.modJob slot f).mgmtSel = s.mgmtSel := rfl
@[simp] theorem State.modJob_hostA (slot : Nat) (f : Job → Job) : (s.modJob slot f).hostA = s.hostA := rfl
@[simp] theorem State.modJob_hostB (slot : Nat) (f : Job → Job) : (s.modJob slot f).hostB = s.hostB := rfl
@[simp] theorem State.modJob_fns (slot : Nat) (f : Job → Job) : (s.modJob slot f).fns = s.fns := rfl
@[simp] theorem State.modJob_tenants (slot : Nat) (f : Job → Job) : (s.modJob slot f).tenants = s.tenants := rfl
@[simp] theorem State.modJob_qps (slot : Nat) (f : Job → Job) : (s.modJob slot f).qps = s.qps := rfl
@[simp] theorem State.modJob_cmds (slot : Nat) (f : Job → Job) : (s.modJob slot f).cmds = s.cmds := rfl
@[simp] theorem State.modJob_nextTag (slot : Nat) (f : Job → Job) : (s.modJob slot f).nextTag = s.nextTag := rfl
@[simp] theorem State.modJob_held (slot : Nat) (f : Job → Job) : (s.modJob slot f).held = s.held := rfl
@[simp] theorem State.modJob_ctxs (slot : Nat) (f : Job → Job) : (s.modJob slot f).ctxs = s.ctxs := rfl
@[simp] theorem State.modJob_slotAllocs (slot : Nat) (f : Job → Job) : (s.modJob slot f).slotAllocs = s.slotAllocs := rfl
@[simp] theorem State.modJob_versions (slot : Nat) (f : Job → Job) : (s.modJob slot f).versions = s.versions := rfl
@[simp] theorem State.modJob_commits (slot : Nat) (f : Job → Job) : (s.modJob slot f).commits = s.commits := rfl
@[simp] theorem State.modJob_nextCommit (slot : Nat) (f : Job → Job) : (s.modJob slot f).nextCommit = s.nextCommit := rfl
@[simp] theorem State.modJob_records (slot : Nat) (f : Job → Job) : (s.modJob slot f).records = s.records := rfl
@[simp] theorem State.modJob_flash (slot : Nat) (f : Job → Job) : (s.modJob slot f).flash = s.flash := rfl
@[simp] theorem State.modJob_crumbs (slot : Nat) (f : Job → Job) : (s.modJob slot f).crumbs = s.crumbs := rfl
@[simp] theorem State.modJob_ctrls (slot : Nat) (f : Job → Job) : (s.modJob slot f).ctrls = s.ctrls := rfl
@[simp] theorem State.modJob_jobs (slot : Nat) (f : Job → Job) : (s.modJob slot f).jobs = adjWhere s.jobs (fun j => j.slot == slot) f := rfl
@[simp] theorem State.modJob_bufs (slot : Nat) (f : Job → Job) : (s.modJob slot f).bufs = s.bufs := rfl
@[simp] theorem State.modJob_rollers (slot : Nat) (f : Job → Job) : (s.modJob slot f).rollers = s.rollers := rfl
@[simp] theorem State.modJob_rolls (slot : Nat) (f : Job → Job) : (s.modJob slot f).rolls = s.rolls := rfl
@[simp] theorem State.modJob_disp (slot : Nat) (f : Job → Job) : (s.modJob slot f).disp = s.disp := rfl
@[simp] theorem State.modJob_prf (slot : Nat) (f : Job → Job) : (s.modJob slot f).prf = s.prf := rfl
@[simp] theorem State.modJob_ecuFailed (slot : Nat) (f : Job → Job) : (s.modJob slot f).ecuFailed = s.ecuFailed := rfl
@[simp] theorem State.modJob_digests (slot : Nat) (f : Job → Job) : (s.modJob slot f).digests = s.digests := rfl
@[simp] theorem State.modJob_keys (slot : Nat) (f : Job → Job) : (s.modJob slot f).keys = s.keys := rfl
@[simp] theorem State.modJob_banks (slot : Nat) (f : Job → Job) : (s.modJob slot f).banks = s.banks := rfl
@[simp] theorem State.modJob_mem (slot : Nat) (f : Job → Job) : (s.modJob slot f).mem = s.mem := rfl
@[simp] theorem State.modJob_firon (slot : Nat) (f : Job → Job) : (s.modJob slot f).firon = s.firon := rfl
@[simp] theorem State.modJob_hk (slot : Nat) (f : Job → Job) : (s.modJob slot f).hk = s.hk := rfl
@[simp] theorem State.modJob_eid (slot : Nat) (f : Job → Job) : (s.modJob slot f).eid = s.eid := rfl
@[simp] theorem State.modJob_dynAddr (slot : Nat) (f : Job → Job) : (s.modJob slot f).dynAddr = s.dynAddr := rfl
@[simp] theorem State.modJob_tx (slot : Nat) (f : Job → Job) : (s.modJob slot f).tx = s.tx := rfl
@[simp] theorem State.modJob_fresh (slot : Nat) (f : Job → Job) : (s.modJob slot f).fresh = s.fresh := rfl

/-! ## modKeys -/

@[simp] theorem State.modKeys_pending (f : KeyStore → KeyStore) : (s.modKeys f).pending = s.pending := rfl
@[simp] theorem State.modKeys_modes (f : KeyStore → KeyStore) : (s.modKeys f).modes = s.modes := rfl
@[simp] theorem State.modKeys_boot (f : KeyStore → KeyStore) : (s.modKeys f).boot = s.boot := rfl
@[simp] theorem State.modKeys_cfg (f : KeyStore → KeyStore) : (s.modKeys f).cfg = s.cfg := rfl
@[simp] theorem State.modKeys_evr (f : KeyStore → KeyStore) : (s.modKeys f).evr = s.evr := rfl
@[simp] theorem State.modKeys_regs (f : KeyStore → KeyStore) : (s.modKeys f).regs = s.regs := rfl
@[simp] theorem State.modKeys_latches (f : KeyStore → KeyStore) : (s.modKeys f).latches = s.latches := rfl
@[simp] theorem State.modKeys_bifHigh (f : KeyStore → KeyStore) : (s.modKeys f).bifHigh = s.bifHigh := rfl
@[simp] theorem State.modKeys_mgmtSel (f : KeyStore → KeyStore) : (s.modKeys f).mgmtSel = s.mgmtSel := rfl
@[simp] theorem State.modKeys_hostA (f : KeyStore → KeyStore) : (s.modKeys f).hostA = s.hostA := rfl
@[simp] theorem State.modKeys_hostB (f : KeyStore → KeyStore) : (s.modKeys f).hostB = s.hostB := rfl
@[simp] theorem State.modKeys_fns (f : KeyStore → KeyStore) : (s.modKeys f).fns = s.fns := rfl
@[simp] theorem State.modKeys_tenants (f : KeyStore → KeyStore) : (s.modKeys f).tenants = s.tenants := rfl
@[simp] theorem State.modKeys_qps (f : KeyStore → KeyStore) : (s.modKeys f).qps = s.qps := rfl
@[simp] theorem State.modKeys_cmds (f : KeyStore → KeyStore) : (s.modKeys f).cmds = s.cmds := rfl
@[simp] theorem State.modKeys_nextTag (f : KeyStore → KeyStore) : (s.modKeys f).nextTag = s.nextTag := rfl
@[simp] theorem State.modKeys_held (f : KeyStore → KeyStore) : (s.modKeys f).held = s.held := rfl
@[simp] theorem State.modKeys_ctxs (f : KeyStore → KeyStore) : (s.modKeys f).ctxs = s.ctxs := rfl
@[simp] theorem State.modKeys_slotAllocs (f : KeyStore → KeyStore) : (s.modKeys f).slotAllocs = s.slotAllocs := rfl
@[simp] theorem State.modKeys_versions (f : KeyStore → KeyStore) : (s.modKeys f).versions = s.versions := rfl
@[simp] theorem State.modKeys_commits (f : KeyStore → KeyStore) : (s.modKeys f).commits = s.commits := rfl
@[simp] theorem State.modKeys_nextCommit (f : KeyStore → KeyStore) : (s.modKeys f).nextCommit = s.nextCommit := rfl
@[simp] theorem State.modKeys_records (f : KeyStore → KeyStore) : (s.modKeys f).records = s.records := rfl
@[simp] theorem State.modKeys_flash (f : KeyStore → KeyStore) : (s.modKeys f).flash = s.flash := rfl
@[simp] theorem State.modKeys_crumbs (f : KeyStore → KeyStore) : (s.modKeys f).crumbs = s.crumbs := rfl
@[simp] theorem State.modKeys_ctrls (f : KeyStore → KeyStore) : (s.modKeys f).ctrls = s.ctrls := rfl
@[simp] theorem State.modKeys_jobs (f : KeyStore → KeyStore) : (s.modKeys f).jobs = s.jobs := rfl
@[simp] theorem State.modKeys_bufs (f : KeyStore → KeyStore) : (s.modKeys f).bufs = s.bufs := rfl
@[simp] theorem State.modKeys_rollers (f : KeyStore → KeyStore) : (s.modKeys f).rollers = s.rollers := rfl
@[simp] theorem State.modKeys_rolls (f : KeyStore → KeyStore) : (s.modKeys f).rolls = s.rolls := rfl
@[simp] theorem State.modKeys_disp (f : KeyStore → KeyStore) : (s.modKeys f).disp = s.disp := rfl
@[simp] theorem State.modKeys_prf (f : KeyStore → KeyStore) : (s.modKeys f).prf = s.prf := rfl
@[simp] theorem State.modKeys_ecuFailed (f : KeyStore → KeyStore) : (s.modKeys f).ecuFailed = s.ecuFailed := rfl
@[simp] theorem State.modKeys_digests (f : KeyStore → KeyStore) : (s.modKeys f).digests = s.digests := rfl
@[simp] theorem State.modKeys_keys (f : KeyStore → KeyStore) : (s.modKeys f).keys = f s.keys := rfl
@[simp] theorem State.modKeys_banks (f : KeyStore → KeyStore) : (s.modKeys f).banks = s.banks := rfl
@[simp] theorem State.modKeys_mem (f : KeyStore → KeyStore) : (s.modKeys f).mem = s.mem := rfl
@[simp] theorem State.modKeys_firon (f : KeyStore → KeyStore) : (s.modKeys f).firon = s.firon := rfl
@[simp] theorem State.modKeys_hk (f : KeyStore → KeyStore) : (s.modKeys f).hk = s.hk := rfl
@[simp] theorem State.modKeys_eid (f : KeyStore → KeyStore) : (s.modKeys f).eid = s.eid := rfl
@[simp] theorem State.modKeys_dynAddr (f : KeyStore → KeyStore) : (s.modKeys f).dynAddr = s.dynAddr := rfl
@[simp] theorem State.modKeys_tx (f : KeyStore → KeyStore) : (s.modKeys f).tx = s.tx := rfl
@[simp] theorem State.modKeys_fresh (f : KeyStore → KeyStore) : (s.modKeys f).fresh = s.fresh := rfl

/-! ## modMem -/

@[simp] theorem State.modMem_pending (f : PkgMem → PkgMem) : (s.modMem f).pending = s.pending := rfl
@[simp] theorem State.modMem_modes (f : PkgMem → PkgMem) : (s.modMem f).modes = s.modes := rfl
@[simp] theorem State.modMem_boot (f : PkgMem → PkgMem) : (s.modMem f).boot = s.boot := rfl
@[simp] theorem State.modMem_cfg (f : PkgMem → PkgMem) : (s.modMem f).cfg = s.cfg := rfl
@[simp] theorem State.modMem_evr (f : PkgMem → PkgMem) : (s.modMem f).evr = s.evr := rfl
@[simp] theorem State.modMem_regs (f : PkgMem → PkgMem) : (s.modMem f).regs = s.regs := rfl
@[simp] theorem State.modMem_latches (f : PkgMem → PkgMem) : (s.modMem f).latches = s.latches := rfl
@[simp] theorem State.modMem_bifHigh (f : PkgMem → PkgMem) : (s.modMem f).bifHigh = s.bifHigh := rfl
@[simp] theorem State.modMem_mgmtSel (f : PkgMem → PkgMem) : (s.modMem f).mgmtSel = s.mgmtSel := rfl
@[simp] theorem State.modMem_hostA (f : PkgMem → PkgMem) : (s.modMem f).hostA = s.hostA := rfl
@[simp] theorem State.modMem_hostB (f : PkgMem → PkgMem) : (s.modMem f).hostB = s.hostB := rfl
@[simp] theorem State.modMem_fns (f : PkgMem → PkgMem) : (s.modMem f).fns = s.fns := rfl
@[simp] theorem State.modMem_tenants (f : PkgMem → PkgMem) : (s.modMem f).tenants = s.tenants := rfl
@[simp] theorem State.modMem_qps (f : PkgMem → PkgMem) : (s.modMem f).qps = s.qps := rfl
@[simp] theorem State.modMem_cmds (f : PkgMem → PkgMem) : (s.modMem f).cmds = s.cmds := rfl
@[simp] theorem State.modMem_nextTag (f : PkgMem → PkgMem) : (s.modMem f).nextTag = s.nextTag := rfl
@[simp] theorem State.modMem_held (f : PkgMem → PkgMem) : (s.modMem f).held = s.held := rfl
@[simp] theorem State.modMem_ctxs (f : PkgMem → PkgMem) : (s.modMem f).ctxs = s.ctxs := rfl
@[simp] theorem State.modMem_slotAllocs (f : PkgMem → PkgMem) : (s.modMem f).slotAllocs = s.slotAllocs := rfl
@[simp] theorem State.modMem_versions (f : PkgMem → PkgMem) : (s.modMem f).versions = s.versions := rfl
@[simp] theorem State.modMem_commits (f : PkgMem → PkgMem) : (s.modMem f).commits = s.commits := rfl
@[simp] theorem State.modMem_nextCommit (f : PkgMem → PkgMem) : (s.modMem f).nextCommit = s.nextCommit := rfl
@[simp] theorem State.modMem_records (f : PkgMem → PkgMem) : (s.modMem f).records = s.records := rfl
@[simp] theorem State.modMem_flash (f : PkgMem → PkgMem) : (s.modMem f).flash = s.flash := rfl
@[simp] theorem State.modMem_crumbs (f : PkgMem → PkgMem) : (s.modMem f).crumbs = s.crumbs := rfl
@[simp] theorem State.modMem_ctrls (f : PkgMem → PkgMem) : (s.modMem f).ctrls = s.ctrls := rfl
@[simp] theorem State.modMem_jobs (f : PkgMem → PkgMem) : (s.modMem f).jobs = s.jobs := rfl
@[simp] theorem State.modMem_bufs (f : PkgMem → PkgMem) : (s.modMem f).bufs = s.bufs := rfl
@[simp] theorem State.modMem_rollers (f : PkgMem → PkgMem) : (s.modMem f).rollers = s.rollers := rfl
@[simp] theorem State.modMem_rolls (f : PkgMem → PkgMem) : (s.modMem f).rolls = s.rolls := rfl
@[simp] theorem State.modMem_disp (f : PkgMem → PkgMem) : (s.modMem f).disp = s.disp := rfl
@[simp] theorem State.modMem_prf (f : PkgMem → PkgMem) : (s.modMem f).prf = s.prf := rfl
@[simp] theorem State.modMem_ecuFailed (f : PkgMem → PkgMem) : (s.modMem f).ecuFailed = s.ecuFailed := rfl
@[simp] theorem State.modMem_digests (f : PkgMem → PkgMem) : (s.modMem f).digests = s.digests := rfl
@[simp] theorem State.modMem_keys (f : PkgMem → PkgMem) : (s.modMem f).keys = s.keys := rfl
@[simp] theorem State.modMem_banks (f : PkgMem → PkgMem) : (s.modMem f).banks = s.banks := rfl
@[simp] theorem State.modMem_mem (f : PkgMem → PkgMem) : (s.modMem f).mem = f s.mem := rfl
@[simp] theorem State.modMem_firon (f : PkgMem → PkgMem) : (s.modMem f).firon = s.firon := rfl
@[simp] theorem State.modMem_hk (f : PkgMem → PkgMem) : (s.modMem f).hk = s.hk := rfl
@[simp] theorem State.modMem_eid (f : PkgMem → PkgMem) : (s.modMem f).eid = s.eid := rfl
@[simp] theorem State.modMem_dynAddr (f : PkgMem → PkgMem) : (s.modMem f).dynAddr = s.dynAddr := rfl
@[simp] theorem State.modMem_tx (f : PkgMem → PkgMem) : (s.modMem f).tx = s.tx := rfl
@[simp] theorem State.modMem_fresh (f : PkgMem → PkgMem) : (s.modMem f).fresh = s.fresh := rfl

/-! ## modModes -/

@[simp] theorem State.modModes_pending (f : Modes → Modes) : (s.modModes f).pending = s.pending := rfl
@[simp] theorem State.modModes_modes (f : Modes → Modes) : (s.modModes f).modes = f s.modes := rfl
@[simp] theorem State.modModes_boot (f : Modes → Modes) : (s.modModes f).boot = s.boot := rfl
@[simp] theorem State.modModes_cfg (f : Modes → Modes) : (s.modModes f).cfg = s.cfg := rfl
@[simp] theorem State.modModes_evr (f : Modes → Modes) : (s.modModes f).evr = s.evr := rfl
@[simp] theorem State.modModes_regs (f : Modes → Modes) : (s.modModes f).regs = s.regs := rfl
@[simp] theorem State.modModes_latches (f : Modes → Modes) : (s.modModes f).latches = s.latches := rfl
@[simp] theorem State.modModes_bifHigh (f : Modes → Modes) : (s.modModes f).bifHigh = s.bifHigh := rfl
@[simp] theorem State.modModes_mgmtSel (f : Modes → Modes) : (s.modModes f).mgmtSel = s.mgmtSel := rfl
@[simp] theorem State.modModes_hostA (f : Modes → Modes) : (s.modModes f).hostA = s.hostA := rfl
@[simp] theorem State.modModes_hostB (f : Modes → Modes) : (s.modModes f).hostB = s.hostB := rfl
@[simp] theorem State.modModes_fns (f : Modes → Modes) : (s.modModes f).fns = s.fns := rfl
@[simp] theorem State.modModes_tenants (f : Modes → Modes) : (s.modModes f).tenants = s.tenants := rfl
@[simp] theorem State.modModes_qps (f : Modes → Modes) : (s.modModes f).qps = s.qps := rfl
@[simp] theorem State.modModes_cmds (f : Modes → Modes) : (s.modModes f).cmds = s.cmds := rfl
@[simp] theorem State.modModes_nextTag (f : Modes → Modes) : (s.modModes f).nextTag = s.nextTag := rfl
@[simp] theorem State.modModes_held (f : Modes → Modes) : (s.modModes f).held = s.held := rfl
@[simp] theorem State.modModes_ctxs (f : Modes → Modes) : (s.modModes f).ctxs = s.ctxs := rfl
@[simp] theorem State.modModes_slotAllocs (f : Modes → Modes) : (s.modModes f).slotAllocs = s.slotAllocs := rfl
@[simp] theorem State.modModes_versions (f : Modes → Modes) : (s.modModes f).versions = s.versions := rfl
@[simp] theorem State.modModes_commits (f : Modes → Modes) : (s.modModes f).commits = s.commits := rfl
@[simp] theorem State.modModes_nextCommit (f : Modes → Modes) : (s.modModes f).nextCommit = s.nextCommit := rfl
@[simp] theorem State.modModes_records (f : Modes → Modes) : (s.modModes f).records = s.records := rfl
@[simp] theorem State.modModes_flash (f : Modes → Modes) : (s.modModes f).flash = s.flash := rfl
@[simp] theorem State.modModes_crumbs (f : Modes → Modes) : (s.modModes f).crumbs = s.crumbs := rfl
@[simp] theorem State.modModes_ctrls (f : Modes → Modes) : (s.modModes f).ctrls = s.ctrls := rfl
@[simp] theorem State.modModes_jobs (f : Modes → Modes) : (s.modModes f).jobs = s.jobs := rfl
@[simp] theorem State.modModes_bufs (f : Modes → Modes) : (s.modModes f).bufs = s.bufs := rfl
@[simp] theorem State.modModes_rollers (f : Modes → Modes) : (s.modModes f).rollers = s.rollers := rfl
@[simp] theorem State.modModes_rolls (f : Modes → Modes) : (s.modModes f).rolls = s.rolls := rfl
@[simp] theorem State.modModes_disp (f : Modes → Modes) : (s.modModes f).disp = s.disp := rfl
@[simp] theorem State.modModes_prf (f : Modes → Modes) : (s.modModes f).prf = s.prf := rfl
@[simp] theorem State.modModes_ecuFailed (f : Modes → Modes) : (s.modModes f).ecuFailed = s.ecuFailed := rfl
@[simp] theorem State.modModes_digests (f : Modes → Modes) : (s.modModes f).digests = s.digests := rfl
@[simp] theorem State.modModes_keys (f : Modes → Modes) : (s.modModes f).keys = s.keys := rfl
@[simp] theorem State.modModes_banks (f : Modes → Modes) : (s.modModes f).banks = s.banks := rfl
@[simp] theorem State.modModes_mem (f : Modes → Modes) : (s.modModes f).mem = s.mem := rfl
@[simp] theorem State.modModes_firon (f : Modes → Modes) : (s.modModes f).firon = s.firon := rfl
@[simp] theorem State.modModes_hk (f : Modes → Modes) : (s.modModes f).hk = s.hk := rfl
@[simp] theorem State.modModes_eid (f : Modes → Modes) : (s.modModes f).eid = s.eid := rfl
@[simp] theorem State.modModes_dynAddr (f : Modes → Modes) : (s.modModes f).dynAddr = s.dynAddr := rfl
@[simp] theorem State.modModes_tx (f : Modes → Modes) : (s.modModes f).tx = s.tx := rfl
@[simp] theorem State.modModes_fresh (f : Modes → Modes) : (s.modModes f).fresh = s.fresh := rfl

/-! ## modRoller -/

@[simp] theorem State.modRoller_pending (p : Nat) (f : RollerPair → RollerPair) : (s.modRoller p f).pending = s.pending := rfl
@[simp] theorem State.modRoller_modes (p : Nat) (f : RollerPair → RollerPair) : (s.modRoller p f).modes = s.modes := rfl
@[simp] theorem State.modRoller_boot (p : Nat) (f : RollerPair → RollerPair) : (s.modRoller p f).boot = s.boot := rfl
@[simp] theorem State.modRoller_cfg (p : Nat) (f : RollerPair → RollerPair) : (s.modRoller p f).cfg = s.cfg := rfl
@[simp] theorem State.modRoller_evr (p : Nat) (f : RollerPair → RollerPair) : (s.modRoller p f).evr = s.evr := rfl
@[simp] theorem State.modRoller_regs (p : Nat) (f : RollerPair → RollerPair) : (s.modRoller p f).regs = s.regs := rfl
@[simp] theorem State.modRoller_latches (p : Nat) (f : RollerPair → RollerPair) : (s.modRoller p f).latches = s.latches := rfl
@[simp] theorem State.modRoller_bifHigh (p : Nat) (f : RollerPair → RollerPair) : (s.modRoller p f).bifHigh = s.bifHigh := rfl
@[simp] theorem State.modRoller_mgmtSel (p : Nat) (f : RollerPair → RollerPair) : (s.modRoller p f).mgmtSel = s.mgmtSel := rfl
@[simp] theorem State.modRoller_hostA (p : Nat) (f : RollerPair → RollerPair) : (s.modRoller p f).hostA = s.hostA := rfl
@[simp] theorem State.modRoller_hostB (p : Nat) (f : RollerPair → RollerPair) : (s.modRoller p f).hostB = s.hostB := rfl
@[simp] theorem State.modRoller_fns (p : Nat) (f : RollerPair → RollerPair) : (s.modRoller p f).fns = s.fns := rfl
@[simp] theorem State.modRoller_tenants (p : Nat) (f : RollerPair → RollerPair) : (s.modRoller p f).tenants = s.tenants := rfl
@[simp] theorem State.modRoller_qps (p : Nat) (f : RollerPair → RollerPair) : (s.modRoller p f).qps = s.qps := rfl
@[simp] theorem State.modRoller_cmds (p : Nat) (f : RollerPair → RollerPair) : (s.modRoller p f).cmds = s.cmds := rfl
@[simp] theorem State.modRoller_nextTag (p : Nat) (f : RollerPair → RollerPair) : (s.modRoller p f).nextTag = s.nextTag := rfl
@[simp] theorem State.modRoller_held (p : Nat) (f : RollerPair → RollerPair) : (s.modRoller p f).held = s.held := rfl
@[simp] theorem State.modRoller_ctxs (p : Nat) (f : RollerPair → RollerPair) : (s.modRoller p f).ctxs = s.ctxs := rfl
@[simp] theorem State.modRoller_slotAllocs (p : Nat) (f : RollerPair → RollerPair) : (s.modRoller p f).slotAllocs = s.slotAllocs := rfl
@[simp] theorem State.modRoller_versions (p : Nat) (f : RollerPair → RollerPair) : (s.modRoller p f).versions = s.versions := rfl
@[simp] theorem State.modRoller_commits (p : Nat) (f : RollerPair → RollerPair) : (s.modRoller p f).commits = s.commits := rfl
@[simp] theorem State.modRoller_nextCommit (p : Nat) (f : RollerPair → RollerPair) : (s.modRoller p f).nextCommit = s.nextCommit := rfl
@[simp] theorem State.modRoller_records (p : Nat) (f : RollerPair → RollerPair) : (s.modRoller p f).records = s.records := rfl
@[simp] theorem State.modRoller_flash (p : Nat) (f : RollerPair → RollerPair) : (s.modRoller p f).flash = s.flash := rfl
@[simp] theorem State.modRoller_crumbs (p : Nat) (f : RollerPair → RollerPair) : (s.modRoller p f).crumbs = s.crumbs := rfl
@[simp] theorem State.modRoller_ctrls (p : Nat) (f : RollerPair → RollerPair) : (s.modRoller p f).ctrls = s.ctrls := rfl
@[simp] theorem State.modRoller_jobs (p : Nat) (f : RollerPair → RollerPair) : (s.modRoller p f).jobs = s.jobs := rfl
@[simp] theorem State.modRoller_bufs (p : Nat) (f : RollerPair → RollerPair) : (s.modRoller p f).bufs = s.bufs := rfl
@[simp] theorem State.modRoller_rollers (p : Nat) (f : RollerPair → RollerPair) : (s.modRoller p f).rollers = s.rollers.upd p RollerPair.init f := rfl
@[simp] theorem State.modRoller_rolls (p : Nat) (f : RollerPair → RollerPair) : (s.modRoller p f).rolls = s.rolls := rfl
@[simp] theorem State.modRoller_disp (p : Nat) (f : RollerPair → RollerPair) : (s.modRoller p f).disp = s.disp := rfl
@[simp] theorem State.modRoller_prf (p : Nat) (f : RollerPair → RollerPair) : (s.modRoller p f).prf = s.prf := rfl
@[simp] theorem State.modRoller_ecuFailed (p : Nat) (f : RollerPair → RollerPair) : (s.modRoller p f).ecuFailed = s.ecuFailed := rfl
@[simp] theorem State.modRoller_digests (p : Nat) (f : RollerPair → RollerPair) : (s.modRoller p f).digests = s.digests := rfl
@[simp] theorem State.modRoller_keys (p : Nat) (f : RollerPair → RollerPair) : (s.modRoller p f).keys = s.keys := rfl
@[simp] theorem State.modRoller_banks (p : Nat) (f : RollerPair → RollerPair) : (s.modRoller p f).banks = s.banks := rfl
@[simp] theorem State.modRoller_mem (p : Nat) (f : RollerPair → RollerPair) : (s.modRoller p f).mem = s.mem := rfl
@[simp] theorem State.modRoller_firon (p : Nat) (f : RollerPair → RollerPair) : (s.modRoller p f).firon = s.firon := rfl
@[simp] theorem State.modRoller_hk (p : Nat) (f : RollerPair → RollerPair) : (s.modRoller p f).hk = s.hk := rfl
@[simp] theorem State.modRoller_eid (p : Nat) (f : RollerPair → RollerPair) : (s.modRoller p f).eid = s.eid := rfl
@[simp] theorem State.modRoller_dynAddr (p : Nat) (f : RollerPair → RollerPair) : (s.modRoller p f).dynAddr = s.dynAddr := rfl
@[simp] theorem State.modRoller_tx (p : Nat) (f : RollerPair → RollerPair) : (s.modRoller p f).tx = s.tx := rfl
@[simp] theorem State.modRoller_fresh (p : Nat) (f : RollerPair → RollerPair) : (s.modRoller p f).fresh = s.fresh := rfl

/-! ## modBank -/

@[simp] theorem State.modBank_pending (b : Nat) (f : Bank → Bank) : (s.modBank b f).pending = s.pending := rfl
@[simp] theorem State.modBank_modes (b : Nat) (f : Bank → Bank) : (s.modBank b f).modes = s.modes := rfl
@[simp] theorem State.modBank_boot (b : Nat) (f : Bank → Bank) : (s.modBank b f).boot = s.boot := rfl
@[simp] theorem State.modBank_cfg (b : Nat) (f : Bank → Bank) : (s.modBank b f).cfg = s.cfg := rfl
@[simp] theorem State.modBank_evr (b : Nat) (f : Bank → Bank) : (s.modBank b f).evr = s.evr := rfl
@[simp] theorem State.modBank_regs (b : Nat) (f : Bank → Bank) : (s.modBank b f).regs = s.regs := rfl
@[simp] theorem State.modBank_latches (b : Nat) (f : Bank → Bank) : (s.modBank b f).latches = s.latches := rfl
@[simp] theorem State.modBank_bifHigh (b : Nat) (f : Bank → Bank) : (s.modBank b f).bifHigh = s.bifHigh := rfl
@[simp] theorem State.modBank_mgmtSel (b : Nat) (f : Bank → Bank) : (s.modBank b f).mgmtSel = s.mgmtSel := rfl
@[simp] theorem State.modBank_hostA (b : Nat) (f : Bank → Bank) : (s.modBank b f).hostA = s.hostA := rfl
@[simp] theorem State.modBank_hostB (b : Nat) (f : Bank → Bank) : (s.modBank b f).hostB = s.hostB := rfl
@[simp] theorem State.modBank_fns (b : Nat) (f : Bank → Bank) : (s.modBank b f).fns = s.fns := rfl
@[simp] theorem State.modBank_tenants (b : Nat) (f : Bank → Bank) : (s.modBank b f).tenants = s.tenants := rfl
@[simp] theorem State.modBank_qps (b : Nat) (f : Bank → Bank) : (s.modBank b f).qps = s.qps := rfl
@[simp] theorem State.modBank_cmds (b : Nat) (f : Bank → Bank) : (s.modBank b f).cmds = s.cmds := rfl
@[simp] theorem State.modBank_nextTag (b : Nat) (f : Bank → Bank) : (s.modBank b f).nextTag = s.nextTag := rfl
@[simp] theorem State.modBank_held (b : Nat) (f : Bank → Bank) : (s.modBank b f).held = s.held := rfl
@[simp] theorem State.modBank_ctxs (b : Nat) (f : Bank → Bank) : (s.modBank b f).ctxs = s.ctxs := rfl
@[simp] theorem State.modBank_slotAllocs (b : Nat) (f : Bank → Bank) : (s.modBank b f).slotAllocs = s.slotAllocs := rfl
@[simp] theorem State.modBank_versions (b : Nat) (f : Bank → Bank) : (s.modBank b f).versions = s.versions := rfl
@[simp] theorem State.modBank_commits (b : Nat) (f : Bank → Bank) : (s.modBank b f).commits = s.commits := rfl
@[simp] theorem State.modBank_nextCommit (b : Nat) (f : Bank → Bank) : (s.modBank b f).nextCommit = s.nextCommit := rfl
@[simp] theorem State.modBank_records (b : Nat) (f : Bank → Bank) : (s.modBank b f).records = s.records := rfl
@[simp] theorem State.modBank_flash (b : Nat) (f : Bank → Bank) : (s.modBank b f).flash = s.flash := rfl
@[simp] theorem State.modBank_crumbs (b : Nat) (f : Bank → Bank) : (s.modBank b f).crumbs = s.crumbs := rfl
@[simp] theorem State.modBank_ctrls (b : Nat) (f : Bank → Bank) : (s.modBank b f).ctrls = s.ctrls := rfl
@[simp] theorem State.modBank_jobs (b : Nat) (f : Bank → Bank) : (s.modBank b f).jobs = s.jobs := rfl
@[simp] theorem State.modBank_bufs (b : Nat) (f : Bank → Bank) : (s.modBank b f).bufs = s.bufs := rfl
@[simp] theorem State.modBank_rollers (b : Nat) (f : Bank → Bank) : (s.modBank b f).rollers = s.rollers := rfl
@[simp] theorem State.modBank_rolls (b : Nat) (f : Bank → Bank) : (s.modBank b f).rolls = s.rolls := rfl
@[simp] theorem State.modBank_disp (b : Nat) (f : Bank → Bank) : (s.modBank b f).disp = s.disp := rfl
@[simp] theorem State.modBank_prf (b : Nat) (f : Bank → Bank) : (s.modBank b f).prf = s.prf := rfl
@[simp] theorem State.modBank_ecuFailed (b : Nat) (f : Bank → Bank) : (s.modBank b f).ecuFailed = s.ecuFailed := rfl
@[simp] theorem State.modBank_digests (b : Nat) (f : Bank → Bank) : (s.modBank b f).digests = s.digests := rfl
@[simp] theorem State.modBank_keys (b : Nat) (f : Bank → Bank) : (s.modBank b f).keys = s.keys := rfl
@[simp] theorem State.modBank_banks (b : Nat) (f : Bank → Bank) : (s.modBank b f).banks = s.banks.upd b (Bank.init b) f := rfl
@[simp] theorem State.modBank_mem (b : Nat) (f : Bank → Bank) : (s.modBank b f).mem = s.mem := rfl
@[simp] theorem State.modBank_firon (b : Nat) (f : Bank → Bank) : (s.modBank b f).firon = s.firon := rfl
@[simp] theorem State.modBank_hk (b : Nat) (f : Bank → Bank) : (s.modBank b f).hk = s.hk := rfl
@[simp] theorem State.modBank_eid (b : Nat) (f : Bank → Bank) : (s.modBank b f).eid = s.eid := rfl
@[simp] theorem State.modBank_dynAddr (b : Nat) (f : Bank → Bank) : (s.modBank b f).dynAddr = s.dynAddr := rfl
@[simp] theorem State.modBank_tx (b : Nat) (f : Bank → Bank) : (s.modBank b f).tx = s.tx := rfl
@[simp] theorem State.modBank_fresh (b : Nat) (f : Bank → Bank) : (s.modBank b f).fresh = s.fresh := rfl

/-! ## modBoot -/

@[simp] theorem State.modBoot_pending (f : Boot → Boot) : (s.modBoot f).pending = s.pending := rfl
@[simp] theorem State.modBoot_modes (f : Boot → Boot) : (s.modBoot f).modes = s.modes := rfl
@[simp] theorem State.modBoot_boot (f : Boot → Boot) : (s.modBoot f).boot = f s.boot := rfl
@[simp] theorem State.modBoot_cfg (f : Boot → Boot) : (s.modBoot f).cfg = s.cfg := rfl
@[simp] theorem State.modBoot_evr (f : Boot → Boot) : (s.modBoot f).evr = s.evr := rfl
@[simp] theorem State.modBoot_regs (f : Boot → Boot) : (s.modBoot f).regs = s.regs := rfl
@[simp] theorem State.modBoot_latches (f : Boot → Boot) : (s.modBoot f).latches = s.latches := rfl
@[simp] theorem State.modBoot_bifHigh (f : Boot → Boot) : (s.modBoot f).bifHigh = s.bifHigh := rfl
@[simp] theorem State.modBoot_mgmtSel (f : Boot → Boot) : (s.modBoot f).mgmtSel = s.mgmtSel := rfl
@[simp] theorem State.modBoot_hostA (f : Boot → Boot) : (s.modBoot f).hostA = s.hostA := rfl
@[simp] theorem State.modBoot_hostB (f : Boot → Boot) : (s.modBoot f).hostB = s.hostB := rfl
@[simp] theorem State.modBoot_fns (f : Boot → Boot) : (s.modBoot f).fns = s.fns := rfl
@[simp] theorem State.modBoot_tenants (f : Boot → Boot) : (s.modBoot f).tenants = s.tenants := rfl
@[simp] theorem State.modBoot_qps (f : Boot → Boot) : (s.modBoot f).qps = s.qps := rfl
@[simp] theorem State.modBoot_cmds (f : Boot → Boot) : (s.modBoot f).cmds = s.cmds := rfl
@[simp] theorem State.modBoot_nextTag (f : Boot → Boot) : (s.modBoot f).nextTag = s.nextTag := rfl
@[simp] theorem State.modBoot_held (f : Boot → Boot) : (s.modBoot f).held = s.held := rfl
@[simp] theorem State.modBoot_ctxs (f : Boot → Boot) : (s.modBoot f).ctxs = s.ctxs := rfl
@[simp] theorem State.modBoot_slotAllocs (f : Boot → Boot) : (s.modBoot f).slotAllocs = s.slotAllocs := rfl
@[simp] theorem State.modBoot_versions (f : Boot → Boot) : (s.modBoot f).versions = s.versions := rfl
@[simp] theorem State.modBoot_commits (f : Boot → Boot) : (s.modBoot f).commits = s.commits := rfl
@[simp] theorem State.modBoot_nextCommit (f : Boot → Boot) : (s.modBoot f).nextCommit = s.nextCommit := rfl
@[simp] theorem State.modBoot_records (f : Boot → Boot) : (s.modBoot f).records = s.records := rfl
@[simp] theorem State.modBoot_flash (f : Boot → Boot) : (s.modBoot f).flash = s.flash := rfl
@[simp] theorem State.modBoot_crumbs (f : Boot → Boot) : (s.modBoot f).crumbs = s.crumbs := rfl
@[simp] theorem State.modBoot_ctrls (f : Boot → Boot) : (s.modBoot f).ctrls = s.ctrls := rfl
@[simp] theorem State.modBoot_jobs (f : Boot → Boot) : (s.modBoot f).jobs = s.jobs := rfl
@[simp] theorem State.modBoot_bufs (f : Boot → Boot) : (s.modBoot f).bufs = s.bufs := rfl
@[simp] theorem State.modBoot_rollers (f : Boot → Boot) : (s.modBoot f).rollers = s.rollers := rfl
@[simp] theorem State.modBoot_rolls (f : Boot → Boot) : (s.modBoot f).rolls = s.rolls := rfl
@[simp] theorem State.modBoot_disp (f : Boot → Boot) : (s.modBoot f).disp = s.disp := rfl
@[simp] theorem State.modBoot_prf (f : Boot → Boot) : (s.modBoot f).prf = s.prf := rfl
@[simp] theorem State.modBoot_ecuFailed (f : Boot → Boot) : (s.modBoot f).ecuFailed = s.ecuFailed := rfl
@[simp] theorem State.modBoot_digests (f : Boot → Boot) : (s.modBoot f).digests = s.digests := rfl
@[simp] theorem State.modBoot_keys (f : Boot → Boot) : (s.modBoot f).keys = s.keys := rfl
@[simp] theorem State.modBoot_banks (f : Boot → Boot) : (s.modBoot f).banks = s.banks := rfl
@[simp] theorem State.modBoot_mem (f : Boot → Boot) : (s.modBoot f).mem = s.mem := rfl
@[simp] theorem State.modBoot_firon (f : Boot → Boot) : (s.modBoot f).firon = s.firon := rfl
@[simp] theorem State.modBoot_hk (f : Boot → Boot) : (s.modBoot f).hk = s.hk := rfl
@[simp] theorem State.modBoot_eid (f : Boot → Boot) : (s.modBoot f).eid = s.eid := rfl
@[simp] theorem State.modBoot_dynAddr (f : Boot → Boot) : (s.modBoot f).dynAddr = s.dynAddr := rfl
@[simp] theorem State.modBoot_tx (f : Boot → Boot) : (s.modBoot f).tx = s.tx := rfl
@[simp] theorem State.modBoot_fresh (f : Boot → Boot) : (s.modBoot f).fresh = s.fresh := rfl

/-! ## modCfg -/

@[simp] theorem State.modCfg_pending (f : Cfg → Cfg) : (s.modCfg f).pending = s.pending := rfl
@[simp] theorem State.modCfg_modes (f : Cfg → Cfg) : (s.modCfg f).modes = s.modes := rfl
@[simp] theorem State.modCfg_boot (f : Cfg → Cfg) : (s.modCfg f).boot = s.boot := rfl
@[simp] theorem State.modCfg_cfg (f : Cfg → Cfg) : (s.modCfg f).cfg = f s.cfg := rfl
@[simp] theorem State.modCfg_evr (f : Cfg → Cfg) : (s.modCfg f).evr = s.evr := rfl
@[simp] theorem State.modCfg_regs (f : Cfg → Cfg) : (s.modCfg f).regs = s.regs := rfl
@[simp] theorem State.modCfg_latches (f : Cfg → Cfg) : (s.modCfg f).latches = s.latches := rfl
@[simp] theorem State.modCfg_bifHigh (f : Cfg → Cfg) : (s.modCfg f).bifHigh = s.bifHigh := rfl
@[simp] theorem State.modCfg_mgmtSel (f : Cfg → Cfg) : (s.modCfg f).mgmtSel = s.mgmtSel := rfl
@[simp] theorem State.modCfg_hostA (f : Cfg → Cfg) : (s.modCfg f).hostA = s.hostA := rfl
@[simp] theorem State.modCfg_hostB (f : Cfg → Cfg) : (s.modCfg f).hostB = s.hostB := rfl
@[simp] theorem State.modCfg_fns (f : Cfg → Cfg) : (s.modCfg f).fns = s.fns := rfl
@[simp] theorem State.modCfg_tenants (f : Cfg → Cfg) : (s.modCfg f).tenants = s.tenants := rfl
@[simp] theorem State.modCfg_qps (f : Cfg → Cfg) : (s.modCfg f).qps = s.qps := rfl
@[simp] theorem State.modCfg_cmds (f : Cfg → Cfg) : (s.modCfg f).cmds = s.cmds := rfl
@[simp] theorem State.modCfg_nextTag (f : Cfg → Cfg) : (s.modCfg f).nextTag = s.nextTag := rfl
@[simp] theorem State.modCfg_held (f : Cfg → Cfg) : (s.modCfg f).held = s.held := rfl
@[simp] theorem State.modCfg_ctxs (f : Cfg → Cfg) : (s.modCfg f).ctxs = s.ctxs := rfl
@[simp] theorem State.modCfg_slotAllocs (f : Cfg → Cfg) : (s.modCfg f).slotAllocs = s.slotAllocs := rfl
@[simp] theorem State.modCfg_versions (f : Cfg → Cfg) : (s.modCfg f).versions = s.versions := rfl
@[simp] theorem State.modCfg_commits (f : Cfg → Cfg) : (s.modCfg f).commits = s.commits := rfl
@[simp] theorem State.modCfg_nextCommit (f : Cfg → Cfg) : (s.modCfg f).nextCommit = s.nextCommit := rfl
@[simp] theorem State.modCfg_records (f : Cfg → Cfg) : (s.modCfg f).records = s.records := rfl
@[simp] theorem State.modCfg_flash (f : Cfg → Cfg) : (s.modCfg f).flash = s.flash := rfl
@[simp] theorem State.modCfg_crumbs (f : Cfg → Cfg) : (s.modCfg f).crumbs = s.crumbs := rfl
@[simp] theorem State.modCfg_ctrls (f : Cfg → Cfg) : (s.modCfg f).ctrls = s.ctrls := rfl
@[simp] theorem State.modCfg_jobs (f : Cfg → Cfg) : (s.modCfg f).jobs = s.jobs := rfl
@[simp] theorem State.modCfg_bufs (f : Cfg → Cfg) : (s.modCfg f).bufs = s.bufs := rfl
@[simp] theorem State.modCfg_rollers (f : Cfg → Cfg) : (s.modCfg f).rollers = s.rollers := rfl
@[simp] theorem State.modCfg_rolls (f : Cfg → Cfg) : (s.modCfg f).rolls = s.rolls := rfl
@[simp] theorem State.modCfg_disp (f : Cfg → Cfg) : (s.modCfg f).disp = s.disp := rfl
@[simp] theorem State.modCfg_prf (f : Cfg → Cfg) : (s.modCfg f).prf = s.prf := rfl
@[simp] theorem State.modCfg_ecuFailed (f : Cfg → Cfg) : (s.modCfg f).ecuFailed = s.ecuFailed := rfl
@[simp] theorem State.modCfg_digests (f : Cfg → Cfg) : (s.modCfg f).digests = s.digests := rfl
@[simp] theorem State.modCfg_keys (f : Cfg → Cfg) : (s.modCfg f).keys = s.keys := rfl
@[simp] theorem State.modCfg_banks (f : Cfg → Cfg) : (s.modCfg f).banks = s.banks := rfl
@[simp] theorem State.modCfg_mem (f : Cfg → Cfg) : (s.modCfg f).mem = s.mem := rfl
@[simp] theorem State.modCfg_firon (f : Cfg → Cfg) : (s.modCfg f).firon = s.firon := rfl
@[simp] theorem State.modCfg_hk (f : Cfg → Cfg) : (s.modCfg f).hk = s.hk := rfl
@[simp] theorem State.modCfg_eid (f : Cfg → Cfg) : (s.modCfg f).eid = s.eid := rfl
@[simp] theorem State.modCfg_dynAddr (f : Cfg → Cfg) : (s.modCfg f).dynAddr = s.dynAddr := rfl
@[simp] theorem State.modCfg_tx (f : Cfg → Cfg) : (s.modCfg f).tx = s.tx := rfl
@[simp] theorem State.modCfg_fresh (f : Cfg → Cfg) : (s.modCfg f).fresh = s.fresh := rfl

/-! ## modCommit -/

@[simp] theorem State.modCommit_pending (id : Nat) (f : Commit → Commit) : (s.modCommit id f).pending = s.pending := rfl
@[simp] theorem State.modCommit_modes (id : Nat) (f : Commit → Commit) : (s.modCommit id f).modes = s.modes := rfl
@[simp] theorem State.modCommit_boot (id : Nat) (f : Commit → Commit) : (s.modCommit id f).boot = s.boot := rfl
@[simp] theorem State.modCommit_cfg (id : Nat) (f : Commit → Commit) : (s.modCommit id f).cfg = s.cfg := rfl
@[simp] theorem State.modCommit_evr (id : Nat) (f : Commit → Commit) : (s.modCommit id f).evr = s.evr := rfl
@[simp] theorem State.modCommit_regs (id : Nat) (f : Commit → Commit) : (s.modCommit id f).regs = s.regs := rfl
@[simp] theorem State.modCommit_latches (id : Nat) (f : Commit → Commit) : (s.modCommit id f).latches = s.latches := rfl
@[simp] theorem State.modCommit_bifHigh (id : Nat) (f : Commit → Commit) : (s.modCommit id f).bifHigh = s.bifHigh := rfl
@[simp] theorem State.modCommit_mgmtSel (id : Nat) (f : Commit → Commit) : (s.modCommit id f).mgmtSel = s.mgmtSel := rfl
@[simp] theorem State.modCommit_hostA (id : Nat) (f : Commit → Commit) : (s.modCommit id f).hostA = s.hostA := rfl
@[simp] theorem State.modCommit_hostB (id : Nat) (f : Commit → Commit) : (s.modCommit id f).hostB = s.hostB := rfl
@[simp] theorem State.modCommit_fns (id : Nat) (f : Commit → Commit) : (s.modCommit id f).fns = s.fns := rfl
@[simp] theorem State.modCommit_tenants (id : Nat) (f : Commit → Commit) : (s.modCommit id f).tenants = s.tenants := rfl
@[simp] theorem State.modCommit_qps (id : Nat) (f : Commit → Commit) : (s.modCommit id f).qps = s.qps := rfl
@[simp] theorem State.modCommit_cmds (id : Nat) (f : Commit → Commit) : (s.modCommit id f).cmds = s.cmds := rfl
@[simp] theorem State.modCommit_nextTag (id : Nat) (f : Commit → Commit) : (s.modCommit id f).nextTag = s.nextTag := rfl
@[simp] theorem State.modCommit_held (id : Nat) (f : Commit → Commit) : (s.modCommit id f).held = s.held := rfl
@[simp] theorem State.modCommit_ctxs (id : Nat) (f : Commit → Commit) : (s.modCommit id f).ctxs = s.ctxs := rfl
@[simp] theorem State.modCommit_slotAllocs (id : Nat) (f : Commit → Commit) : (s.modCommit id f).slotAllocs = s.slotAllocs := rfl
@[simp] theorem State.modCommit_versions (id : Nat) (f : Commit → Commit) : (s.modCommit id f).versions = s.versions := rfl
@[simp] theorem State.modCommit_commits (id : Nat) (f : Commit → Commit) : (s.modCommit id f).commits = adjWhere s.commits (fun c => c.id == id) f := rfl
@[simp] theorem State.modCommit_nextCommit (id : Nat) (f : Commit → Commit) : (s.modCommit id f).nextCommit = s.nextCommit := rfl
@[simp] theorem State.modCommit_records (id : Nat) (f : Commit → Commit) : (s.modCommit id f).records = s.records := rfl
@[simp] theorem State.modCommit_flash (id : Nat) (f : Commit → Commit) : (s.modCommit id f).flash = s.flash := rfl
@[simp] theorem State.modCommit_crumbs (id : Nat) (f : Commit → Commit) : (s.modCommit id f).crumbs = s.crumbs := rfl
@[simp] theorem State.modCommit_ctrls (id : Nat) (f : Commit → Commit) : (s.modCommit id f).ctrls = s.ctrls := rfl
@[simp] theorem State.modCommit_jobs (id : Nat) (f : Commit → Commit) : (s.modCommit id f).jobs = s.jobs := rfl
@[simp] theorem State.modCommit_bufs (id : Nat) (f : Commit → Commit) : (s.modCommit id f).bufs = s.bufs := rfl
@[simp] theorem State.modCommit_rollers (id : Nat) (f : Commit → Commit) : (s.modCommit id f).rollers = s.rollers := rfl
@[simp] theorem State.modCommit_rolls (id : Nat) (f : Commit → Commit) : (s.modCommit id f).rolls = s.rolls := rfl
@[simp] theorem State.modCommit_disp (id : Nat) (f : Commit → Commit) : (s.modCommit id f).disp = s.disp := rfl
@[simp] theorem State.modCommit_prf (id : Nat) (f : Commit → Commit) : (s.modCommit id f).prf = s.prf := rfl
@[simp] theorem State.modCommit_ecuFailed (id : Nat) (f : Commit → Commit) : (s.modCommit id f).ecuFailed = s.ecuFailed := rfl
@[simp] theorem State.modCommit_digests (id : Nat) (f : Commit → Commit) : (s.modCommit id f).digests = s.digests := rfl
@[simp] theorem State.modCommit_keys (id : Nat) (f : Commit → Commit) : (s.modCommit id f).keys = s.keys := rfl
@[simp] theorem State.modCommit_banks (id : Nat) (f : Commit → Commit) : (s.modCommit id f).banks = s.banks := rfl
@[simp] theorem State.modCommit_mem (id : Nat) (f : Commit → Commit) : (s.modCommit id f).mem = s.mem := rfl
@[simp] theorem State.modCommit_firon (id : Nat) (f : Commit → Commit) : (s.modCommit id f).firon = s.firon := rfl
@[simp] theorem State.modCommit_hk (id : Nat) (f : Commit → Commit) : (s.modCommit id f).hk = s.hk := rfl
@[simp] theorem State.modCommit_eid (id : Nat) (f : Commit → Commit) : (s.modCommit id f).eid = s.eid := rfl
@[simp] theorem State.modCommit_dynAddr (id : Nat) (f : Commit → Commit) : (s.modCommit id f).dynAddr = s.dynAddr := rfl
@[simp] theorem State.modCommit_tx (id : Nat) (f : Commit → Commit) : (s.modCommit id f).tx = s.tx := rfl
@[simp] theorem State.modCommit_fresh (id : Nat) (f : Commit → Commit) : (s.modCommit id f).fresh = s.fresh := rfl

/-! ## modHp -/

@[simp] theorem State.modHp_pending (port : Port) (f : HostPort → HostPort) : (s.modHp port f).pending = s.pending := by cases port <;> rfl
@[simp] theorem State.modHp_modes (port : Port) (f : HostPort → HostPort) : (s.modHp port f).modes = s.modes := by cases port <;> rfl
@[simp] theorem State.modHp_boot (port : Port) (f : HostPort → HostPort) : (s.modHp port f).boot = s.boot := by cases port <;> rfl
@[simp] theorem State.modHp_cfg (port : Port) (f : HostPort → HostPort) : (s.modHp port f).cfg = s.cfg := by cases port <;> rfl
@[simp] theorem State.modHp_evr (port : Port) (f : HostPort → HostPort) : (s.modHp port f).evr = s.evr := by cases port <;> rfl
@[simp] theorem State.modHp_regs (port : Port) (f : HostPort → HostPort) : (s.modHp port f).regs = s.regs := by cases port <;> rfl
@[simp] theorem State.modHp_latches (port : Port) (f : HostPort → HostPort) : (s.modHp port f).latches = s.latches := by cases port <;> rfl
@[simp] theorem State.modHp_bifHigh (port : Port) (f : HostPort → HostPort) : (s.modHp port f).bifHigh = s.bifHigh := by cases port <;> rfl
@[simp] theorem State.modHp_mgmtSel (port : Port) (f : HostPort → HostPort) : (s.modHp port f).mgmtSel = s.mgmtSel := by cases port <;> rfl
@[simp] theorem State.modHp_fns (port : Port) (f : HostPort → HostPort) : (s.modHp port f).fns = s.fns := by cases port <;> rfl
@[simp] theorem State.modHp_tenants (port : Port) (f : HostPort → HostPort) : (s.modHp port f).tenants = s.tenants := by cases port <;> rfl
@[simp] theorem State.modHp_qps (port : Port) (f : HostPort → HostPort) : (s.modHp port f).qps = s.qps := by cases port <;> rfl
@[simp] theorem State.modHp_cmds (port : Port) (f : HostPort → HostPort) : (s.modHp port f).cmds = s.cmds := by cases port <;> rfl
@[simp] theorem State.modHp_nextTag (port : Port) (f : HostPort → HostPort) : (s.modHp port f).nextTag = s.nextTag := by cases port <;> rfl
@[simp] theorem State.modHp_held (port : Port) (f : HostPort → HostPort) : (s.modHp port f).held = s.held := by cases port <;> rfl
@[simp] theorem State.modHp_ctxs (port : Port) (f : HostPort → HostPort) : (s.modHp port f).ctxs = s.ctxs := by cases port <;> rfl
@[simp] theorem State.modHp_slotAllocs (port : Port) (f : HostPort → HostPort) : (s.modHp port f).slotAllocs = s.slotAllocs := by cases port <;> rfl
@[simp] theorem State.modHp_versions (port : Port) (f : HostPort → HostPort) : (s.modHp port f).versions = s.versions := by cases port <;> rfl
@[simp] theorem State.modHp_commits (port : Port) (f : HostPort → HostPort) : (s.modHp port f).commits = s.commits := by cases port <;> rfl
@[simp] theorem State.modHp_nextCommit (port : Port) (f : HostPort → HostPort) : (s.modHp port f).nextCommit = s.nextCommit := by cases port <;> rfl
@[simp] theorem State.modHp_records (port : Port) (f : HostPort → HostPort) : (s.modHp port f).records = s.records := by cases port <;> rfl
@[simp] theorem State.modHp_flash (port : Port) (f : HostPort → HostPort) : (s.modHp port f).flash = s.flash := by cases port <;> rfl
@[simp] theorem State.modHp_crumbs (port : Port) (f : HostPort → HostPort) : (s.modHp port f).crumbs = s.crumbs := by cases port <;> rfl
@[simp] theorem State.modHp_ctrls (port : Port) (f : HostPort → HostPort) : (s.modHp port f).ctrls = s.ctrls := by cases port <;> rfl
@[simp] theorem State.modHp_jobs (port : Port) (f : HostPort → HostPort) : (s.modHp port f).jobs = s.jobs := by cases port <;> rfl
@[simp] theorem State.modHp_bufs (port : Port) (f : HostPort → HostPort) : (s.modHp port f).bufs = s.bufs := by cases port <;> rfl
@[simp] theorem State.modHp_rollers (port : Port) (f : HostPort → HostPort) : (s.modHp port f).rollers = s.rollers := by cases port <;> rfl
@[simp] theorem State.modHp_rolls (port : Port) (f : HostPort → HostPort) : (s.modHp port f).rolls = s.rolls := by cases port <;> rfl
@[simp] theorem State.modHp_disp (port : Port) (f : HostPort → HostPort) : (s.modHp port f).disp = s.disp := by cases port <;> rfl
@[simp] theorem State.modHp_prf (port : Port) (f : HostPort → HostPort) : (s.modHp port f).prf = s.prf := by cases port <;> rfl
@[simp] theorem State.modHp_ecuFailed (port : Port) (f : HostPort → HostPort) : (s.modHp port f).ecuFailed = s.ecuFailed := by cases port <;> rfl
@[simp] theorem State.modHp_digests (port : Port) (f : HostPort → HostPort) : (s.modHp port f).digests = s.digests := by cases port <;> rfl
@[simp] theorem State.modHp_keys (port : Port) (f : HostPort → HostPort) : (s.modHp port f).keys = s.keys := by cases port <;> rfl
@[simp] theorem State.modHp_banks (port : Port) (f : HostPort → HostPort) : (s.modHp port f).banks = s.banks := by cases port <;> rfl
@[simp] theorem State.modHp_mem (port : Port) (f : HostPort → HostPort) : (s.modHp port f).mem = s.mem := by cases port <;> rfl
@[simp] theorem State.modHp_firon (port : Port) (f : HostPort → HostPort) : (s.modHp port f).firon = s.firon := by cases port <;> rfl
@[simp] theorem State.modHp_hk (port : Port) (f : HostPort → HostPort) : (s.modHp port f).hk = s.hk := by cases port <;> rfl
@[simp] theorem State.modHp_eid (port : Port) (f : HostPort → HostPort) : (s.modHp port f).eid = s.eid := by cases port <;> rfl
@[simp] theorem State.modHp_dynAddr (port : Port) (f : HostPort → HostPort) : (s.modHp port f).dynAddr = s.dynAddr := by cases port <;> rfl
@[simp] theorem State.modHp_tx (port : Port) (f : HostPort → HostPort) : (s.modHp port f).tx = s.tx := by cases port <;> rfl
@[simp] theorem State.modHp_fresh (port : Port) (f : HostPort → HostPort) : (s.modHp port f).fresh = s.fresh := by cases port <;> rfl

/-! ## modCore -/

@[simp] theorem State.modCore_pending (k : CoreSel) (f : Core → Core) : (s.modCore k f).pending = s.pending := by cases k <;> rfl
@[simp] theorem State.modCore_modes (k : CoreSel) (f : Core → Core) : (s.modCore k f).modes = s.modes := by cases k <;> rfl
@[simp] theorem State.modCore_boot (k : CoreSel) (f : Core → Core) : (s.modCore k f).boot = s.boot := by cases k <;> rfl
@[simp] theorem State.modCore_cfg (k : CoreSel) (f : Core → Core) : (s.modCore k f).cfg = s.cfg := by cases k <;> rfl
@[simp] theorem State.modCore_evr (k : CoreSel) (f : Core → Core) : (s.modCore k f).evr = s.evr := by cases k <;> rfl
@[simp] theorem State.modCore_regs (k : CoreSel) (f : Core → Core) : (s.modCore k f).regs = s.regs := by cases k <;> rfl
@[simp] theorem State.modCore_latches (k : CoreSel) (f : Core → Core) : (s.modCore k f).latches = s.latches := by cases k <;> rfl
@[simp] theorem State.modCore_bifHigh (k : CoreSel) (f : Core → Core) : (s.modCore k f).bifHigh = s.bifHigh := by cases k <;> rfl
@[simp] theorem State.modCore_mgmtSel (k : CoreSel) (f : Core → Core) : (s.modCore k f).mgmtSel = s.mgmtSel := by cases k <;> rfl
@[simp] theorem State.modCore_hostA (k : CoreSel) (f : Core → Core) : (s.modCore k f).hostA = s.hostA := by cases k <;> rfl
@[simp] theorem State.modCore_hostB (k : CoreSel) (f : Core → Core) : (s.modCore k f).hostB = s.hostB := by cases k <;> rfl
@[simp] theorem State.modCore_fns (k : CoreSel) (f : Core → Core) : (s.modCore k f).fns = s.fns := by cases k <;> rfl
@[simp] theorem State.modCore_tenants (k : CoreSel) (f : Core → Core) : (s.modCore k f).tenants = s.tenants := by cases k <;> rfl
@[simp] theorem State.modCore_qps (k : CoreSel) (f : Core → Core) : (s.modCore k f).qps = s.qps := by cases k <;> rfl
@[simp] theorem State.modCore_cmds (k : CoreSel) (f : Core → Core) : (s.modCore k f).cmds = s.cmds := by cases k <;> rfl
@[simp] theorem State.modCore_nextTag (k : CoreSel) (f : Core → Core) : (s.modCore k f).nextTag = s.nextTag := by cases k <;> rfl
@[simp] theorem State.modCore_held (k : CoreSel) (f : Core → Core) : (s.modCore k f).held = s.held := by cases k <;> rfl
@[simp] theorem State.modCore_ctxs (k : CoreSel) (f : Core → Core) : (s.modCore k f).ctxs = s.ctxs := by cases k <;> rfl
@[simp] theorem State.modCore_slotAllocs (k : CoreSel) (f : Core → Core) : (s.modCore k f).slotAllocs = s.slotAllocs := by cases k <;> rfl
@[simp] theorem State.modCore_versions (k : CoreSel) (f : Core → Core) : (s.modCore k f).versions = s.versions := by cases k <;> rfl
@[simp] theorem State.modCore_commits (k : CoreSel) (f : Core → Core) : (s.modCore k f).commits = s.commits := by cases k <;> rfl
@[simp] theorem State.modCore_nextCommit (k : CoreSel) (f : Core → Core) : (s.modCore k f).nextCommit = s.nextCommit := by cases k <;> rfl
@[simp] theorem State.modCore_records (k : CoreSel) (f : Core → Core) : (s.modCore k f).records = s.records := by cases k <;> rfl
@[simp] theorem State.modCore_flash (k : CoreSel) (f : Core → Core) : (s.modCore k f).flash = s.flash := by cases k <;> rfl
@[simp] theorem State.modCore_jobs (k : CoreSel) (f : Core → Core) : (s.modCore k f).jobs = s.jobs := by cases k <;> rfl
@[simp] theorem State.modCore_bufs (k : CoreSel) (f : Core → Core) : (s.modCore k f).bufs = s.bufs := by cases k <;> rfl
@[simp] theorem State.modCore_rollers (k : CoreSel) (f : Core → Core) : (s.modCore k f).rollers = s.rollers := by cases k <;> rfl
@[simp] theorem State.modCore_rolls (k : CoreSel) (f : Core → Core) : (s.modCore k f).rolls = s.rolls := by cases k <;> rfl
@[simp] theorem State.modCore_disp (k : CoreSel) (f : Core → Core) : (s.modCore k f).disp = s.disp := by cases k <;> rfl
@[simp] theorem State.modCore_prf (k : CoreSel) (f : Core → Core) : (s.modCore k f).prf = s.prf := by cases k <;> rfl
@[simp] theorem State.modCore_ecuFailed (k : CoreSel) (f : Core → Core) : (s.modCore k f).ecuFailed = s.ecuFailed := by cases k <;> rfl
@[simp] theorem State.modCore_digests (k : CoreSel) (f : Core → Core) : (s.modCore k f).digests = s.digests := by cases k <;> rfl
@[simp] theorem State.modCore_keys (k : CoreSel) (f : Core → Core) : (s.modCore k f).keys = s.keys := by cases k <;> rfl
@[simp] theorem State.modCore_banks (k : CoreSel) (f : Core → Core) : (s.modCore k f).banks = s.banks := by cases k <;> rfl
@[simp] theorem State.modCore_mem (k : CoreSel) (f : Core → Core) : (s.modCore k f).mem = s.mem := by cases k <;> rfl
@[simp] theorem State.modCore_firon (k : CoreSel) (f : Core → Core) : (s.modCore k f).firon = s.firon := by cases k <;> rfl
@[simp] theorem State.modCore_hk (k : CoreSel) (f : Core → Core) : (s.modCore k f).hk = s.hk := by cases k <;> rfl
@[simp] theorem State.modCore_eid (k : CoreSel) (f : Core → Core) : (s.modCore k f).eid = s.eid := by cases k <;> rfl
@[simp] theorem State.modCore_dynAddr (k : CoreSel) (f : Core → Core) : (s.modCore k f).dynAddr = s.dynAddr := by cases k <;> rfl
@[simp] theorem State.modCore_tx (k : CoreSel) (f : Core → Core) : (s.modCore k f).tx = s.tx := by cases k <;> rfl
@[simp] theorem State.modCore_fresh (k : CoreSel) (f : Core → Core) : (s.modCore k f).fresh = s.fresh := by cases k <;> rfl

/-! ## modPrf -/

@[simp] theorem State.modPrf_pending (f : Proofer → Proofer) : (s.modPrf f).pending = s.pending := rfl
@[simp] theorem State.modPrf_modes (f : Proofer → Proofer) : (s.modPrf f).modes = s.modes := rfl
@[simp] theorem State.modPrf_boot (f : Proofer → Proofer) : (s.modPrf f).boot = s.boot := rfl
@[simp] theorem State.modPrf_cfg (f : Proofer → Proofer) : (s.modPrf f).cfg = s.cfg := rfl
@[simp] theorem State.modPrf_evr (f : Proofer → Proofer) : (s.modPrf f).evr = s.evr := rfl
@[simp] theorem State.modPrf_regs (f : Proofer → Proofer) : (s.modPrf f).regs = s.regs := rfl
@[simp] theorem State.modPrf_latches (f : Proofer → Proofer) : (s.modPrf f).latches = s.latches := rfl
@[simp] theorem State.modPrf_bifHigh (f : Proofer → Proofer) : (s.modPrf f).bifHigh = s.bifHigh := rfl
@[simp] theorem State.modPrf_mgmtSel (f : Proofer → Proofer) : (s.modPrf f).mgmtSel = s.mgmtSel := rfl
@[simp] theorem State.modPrf_hostA (f : Proofer → Proofer) : (s.modPrf f).hostA = s.hostA := rfl
@[simp] theorem State.modPrf_hostB (f : Proofer → Proofer) : (s.modPrf f).hostB = s.hostB := rfl
@[simp] theorem State.modPrf_fns (f : Proofer → Proofer) : (s.modPrf f).fns = s.fns := rfl
@[simp] theorem State.modPrf_tenants (f : Proofer → Proofer) : (s.modPrf f).tenants = s.tenants := rfl
@[simp] theorem State.modPrf_qps (f : Proofer → Proofer) : (s.modPrf f).qps = s.qps := rfl
@[simp] theorem State.modPrf_cmds (f : Proofer → Proofer) : (s.modPrf f).cmds = s.cmds := rfl
@[simp] theorem State.modPrf_nextTag (f : Proofer → Proofer) : (s.modPrf f).nextTag = s.nextTag := rfl
@[simp] theorem State.modPrf_held (f : Proofer → Proofer) : (s.modPrf f).held = s.held := rfl
@[simp] theorem State.modPrf_ctxs (f : Proofer → Proofer) : (s.modPrf f).ctxs = s.ctxs := rfl
@[simp] theorem State.modPrf_slotAllocs (f : Proofer → Proofer) : (s.modPrf f).slotAllocs = s.slotAllocs := rfl
@[simp] theorem State.modPrf_versions (f : Proofer → Proofer) : (s.modPrf f).versions = s.versions := rfl
@[simp] theorem State.modPrf_commits (f : Proofer → Proofer) : (s.modPrf f).commits = s.commits := rfl
@[simp] theorem State.modPrf_nextCommit (f : Proofer → Proofer) : (s.modPrf f).nextCommit = s.nextCommit := rfl
@[simp] theorem State.modPrf_records (f : Proofer → Proofer) : (s.modPrf f).records = s.records := rfl
@[simp] theorem State.modPrf_flash (f : Proofer → Proofer) : (s.modPrf f).flash = s.flash := rfl
@[simp] theorem State.modPrf_crumbs (f : Proofer → Proofer) : (s.modPrf f).crumbs = s.crumbs := rfl
@[simp] theorem State.modPrf_ctrls (f : Proofer → Proofer) : (s.modPrf f).ctrls = s.ctrls := rfl
@[simp] theorem State.modPrf_jobs (f : Proofer → Proofer) : (s.modPrf f).jobs = s.jobs := rfl
@[simp] theorem State.modPrf_bufs (f : Proofer → Proofer) : (s.modPrf f).bufs = s.bufs := rfl
@[simp] theorem State.modPrf_rollers (f : Proofer → Proofer) : (s.modPrf f).rollers = s.rollers := rfl
@[simp] theorem State.modPrf_rolls (f : Proofer → Proofer) : (s.modPrf f).rolls = s.rolls := rfl
@[simp] theorem State.modPrf_disp (f : Proofer → Proofer) : (s.modPrf f).disp = s.disp := rfl
@[simp] theorem State.modPrf_prf (f : Proofer → Proofer) : (s.modPrf f).prf = f s.prf := rfl
@[simp] theorem State.modPrf_ecuFailed (f : Proofer → Proofer) : (s.modPrf f).ecuFailed = s.ecuFailed := rfl
@[simp] theorem State.modPrf_digests (f : Proofer → Proofer) : (s.modPrf f).digests = s.digests := rfl
@[simp] theorem State.modPrf_keys (f : Proofer → Proofer) : (s.modPrf f).keys = s.keys := rfl
@[simp] theorem State.modPrf_banks (f : Proofer → Proofer) : (s.modPrf f).banks = s.banks := rfl
@[simp] theorem State.modPrf_mem (f : Proofer → Proofer) : (s.modPrf f).mem = s.mem := rfl
@[simp] theorem State.modPrf_firon (f : Proofer → Proofer) : (s.modPrf f).firon = s.firon := rfl
@[simp] theorem State.modPrf_hk (f : Proofer → Proofer) : (s.modPrf f).hk = s.hk := rfl
@[simp] theorem State.modPrf_eid (f : Proofer → Proofer) : (s.modPrf f).eid = s.eid := rfl
@[simp] theorem State.modPrf_dynAddr (f : Proofer → Proofer) : (s.modPrf f).dynAddr = s.dynAddr := rfl
@[simp] theorem State.modPrf_tx (f : Proofer → Proofer) : (s.modPrf f).tx = s.tx := rfl
@[simp] theorem State.modPrf_fresh (f : Proofer → Proofer) : (s.modPrf f).fresh = s.fresh := rfl

/-! ## modLoaf -/

@[simp] theorem State.modLoaf_pending (n : Nat) (f : Loaf → Loaf) : (s.modLoaf n f).pending = s.pending := rfl
@[simp] theorem State.modLoaf_modes (n : Nat) (f : Loaf → Loaf) : (s.modLoaf n f).modes = s.modes := rfl
@[simp] theorem State.modLoaf_boot (n : Nat) (f : Loaf → Loaf) : (s.modLoaf n f).boot = s.boot := rfl
@[simp] theorem State.modLoaf_cfg (n : Nat) (f : Loaf → Loaf) : (s.modLoaf n f).cfg = s.cfg := rfl
@[simp] theorem State.modLoaf_evr (n : Nat) (f : Loaf → Loaf) : (s.modLoaf n f).evr = s.evr := rfl
@[simp] theorem State.modLoaf_regs (n : Nat) (f : Loaf → Loaf) : (s.modLoaf n f).regs = s.regs := rfl
@[simp] theorem State.modLoaf_latches (n : Nat) (f : Loaf → Loaf) : (s.modLoaf n f).latches = s.latches := rfl
@[simp] theorem State.modLoaf_bifHigh (n : Nat) (f : Loaf → Loaf) : (s.modLoaf n f).bifHigh = s.bifHigh := rfl
@[simp] theorem State.modLoaf_mgmtSel (n : Nat) (f : Loaf → Loaf) : (s.modLoaf n f).mgmtSel = s.mgmtSel := rfl
@[simp] theorem State.modLoaf_hostA (n : Nat) (f : Loaf → Loaf) : (s.modLoaf n f).hostA = s.hostA := rfl
@[simp] theorem State.modLoaf_hostB (n : Nat) (f : Loaf → Loaf) : (s.modLoaf n f).hostB = s.hostB := rfl
@[simp] theorem State.modLoaf_fns (n : Nat) (f : Loaf → Loaf) : (s.modLoaf n f).fns = s.fns := rfl
@[simp] theorem State.modLoaf_tenants (n : Nat) (f : Loaf → Loaf) : (s.modLoaf n f).tenants = s.tenants := rfl
@[simp] theorem State.modLoaf_qps (n : Nat) (f : Loaf → Loaf) : (s.modLoaf n f).qps = s.qps := rfl
@[simp] theorem State.modLoaf_cmds (n : Nat) (f : Loaf → Loaf) : (s.modLoaf n f).cmds = s.cmds := rfl
@[simp] theorem State.modLoaf_nextTag (n : Nat) (f : Loaf → Loaf) : (s.modLoaf n f).nextTag = s.nextTag := rfl
@[simp] theorem State.modLoaf_held (n : Nat) (f : Loaf → Loaf) : (s.modLoaf n f).held = s.held := rfl
@[simp] theorem State.modLoaf_ctxs (n : Nat) (f : Loaf → Loaf) : (s.modLoaf n f).ctxs = s.ctxs := rfl
@[simp] theorem State.modLoaf_slotAllocs (n : Nat) (f : Loaf → Loaf) : (s.modLoaf n f).slotAllocs = s.slotAllocs := rfl
@[simp] theorem State.modLoaf_versions (n : Nat) (f : Loaf → Loaf) : (s.modLoaf n f).versions = s.versions := rfl
@[simp] theorem State.modLoaf_commits (n : Nat) (f : Loaf → Loaf) : (s.modLoaf n f).commits = s.commits := rfl
@[simp] theorem State.modLoaf_nextCommit (n : Nat) (f : Loaf → Loaf) : (s.modLoaf n f).nextCommit = s.nextCommit := rfl
@[simp] theorem State.modLoaf_records (n : Nat) (f : Loaf → Loaf) : (s.modLoaf n f).records = s.records := rfl
@[simp] theorem State.modLoaf_flash (n : Nat) (f : Loaf → Loaf) : (s.modLoaf n f).flash = s.flash := rfl
@[simp] theorem State.modLoaf_crumbs (n : Nat) (f : Loaf → Loaf) : (s.modLoaf n f).crumbs = s.crumbs := rfl
@[simp] theorem State.modLoaf_ctrls (n : Nat) (f : Loaf → Loaf) : (s.modLoaf n f).ctrls = s.ctrls := rfl
@[simp] theorem State.modLoaf_jobs (n : Nat) (f : Loaf → Loaf) : (s.modLoaf n f).jobs = s.jobs := rfl
@[simp] theorem State.modLoaf_bufs (n : Nat) (f : Loaf → Loaf) : (s.modLoaf n f).bufs = s.bufs := rfl
@[simp] theorem State.modLoaf_rollers (n : Nat) (f : Loaf → Loaf) : (s.modLoaf n f).rollers = s.rollers := rfl
@[simp] theorem State.modLoaf_rolls (n : Nat) (f : Loaf → Loaf) : (s.modLoaf n f).rolls = s.rolls := rfl
@[simp] theorem State.modLoaf_disp (n : Nat) (f : Loaf → Loaf) : (s.modLoaf n f).disp = s.disp := rfl
@[simp] theorem State.modLoaf_ecuFailed (n : Nat) (f : Loaf → Loaf) : (s.modLoaf n f).ecuFailed = s.ecuFailed := rfl
@[simp] theorem State.modLoaf_digests (n : Nat) (f : Loaf → Loaf) : (s.modLoaf n f).digests = s.digests := rfl
@[simp] theorem State.modLoaf_keys (n : Nat) (f : Loaf → Loaf) : (s.modLoaf n f).keys = s.keys := rfl
@[simp] theorem State.modLoaf_banks (n : Nat) (f : Loaf → Loaf) : (s.modLoaf n f).banks = s.banks := rfl
@[simp] theorem State.modLoaf_mem (n : Nat) (f : Loaf → Loaf) : (s.modLoaf n f).mem = s.mem := rfl
@[simp] theorem State.modLoaf_firon (n : Nat) (f : Loaf → Loaf) : (s.modLoaf n f).firon = s.firon := rfl
@[simp] theorem State.modLoaf_hk (n : Nat) (f : Loaf → Loaf) : (s.modLoaf n f).hk = s.hk := rfl
@[simp] theorem State.modLoaf_eid (n : Nat) (f : Loaf → Loaf) : (s.modLoaf n f).eid = s.eid := rfl
@[simp] theorem State.modLoaf_dynAddr (n : Nat) (f : Loaf → Loaf) : (s.modLoaf n f).dynAddr = s.dynAddr := rfl
@[simp] theorem State.modLoaf_tx (n : Nat) (f : Loaf → Loaf) : (s.modLoaf n f).tx = s.tx := rfl
@[simp] theorem State.modLoaf_fresh (n : Nat) (f : Loaf → Loaf) : (s.modLoaf n f).fresh = s.fresh := rfl

/-! ## modVersion -/

@[simp] theorem State.modVersion_pending (tenant space oid version : Nat) (f : Version → Version) : (s.modVersion tenant space oid version f).pending = s.pending := rfl
@[simp] theorem State.modVersion_modes (tenant space oid version : Nat) (f : Version → Version) : (s.modVersion tenant space oid version f).modes = s.modes := rfl
@[simp] theorem State.modVersion_boot (tenant space oid version : Nat) (f : Version → Version) : (s.modVersion tenant space oid version f).boot = s.boot := rfl
@[simp] theorem State.modVersion_cfg (tenant space oid version : Nat) (f : Version → Version) : (s.modVersion tenant space oid version f).cfg = s.cfg := rfl
@[simp] theorem State.modVersion_evr (tenant space oid version : Nat) (f : Version → Version) : (s.modVersion tenant space oid version f).evr = s.evr := rfl
@[simp] theorem State.modVersion_regs (tenant space oid version : Nat) (f : Version → Version) : (s.modVersion tenant space oid version f).regs = s.regs := rfl
@[simp] theorem State.modVersion_latches (tenant space oid version : Nat) (f : Version → Version) : (s.modVersion tenant space oid version f).latches = s.latches := rfl
@[simp] theorem State.modVersion_bifHigh (tenant space oid version : Nat) (f : Version → Version) : (s.modVersion tenant space oid version f).bifHigh = s.bifHigh := rfl
@[simp] theorem State.modVersion_mgmtSel (tenant space oid version : Nat) (f : Version → Version) : (s.modVersion tenant space oid version f).mgmtSel = s.mgmtSel := rfl
@[simp] theorem State.modVersion_hostA (tenant space oid version : Nat) (f : Version → Version) : (s.modVersion tenant space oid version f).hostA = s.hostA := rfl
@[simp] theorem State.modVersion_hostB (tenant space oid version : Nat) (f : Version → Version) : (s.modVersion tenant space oid version f).hostB = s.hostB := rfl
@[simp] theorem State.modVersion_fns (tenant space oid version : Nat) (f : Version → Version) : (s.modVersion tenant space oid version f).fns = s.fns := rfl
@[simp] theorem State.modVersion_tenants (tenant space oid version : Nat) (f : Version → Version) : (s.modVersion tenant space oid version f).tenants = s.tenants := rfl
@[simp] theorem State.modVersion_qps (tenant space oid version : Nat) (f : Version → Version) : (s.modVersion tenant space oid version f).qps = s.qps := rfl
@[simp] theorem State.modVersion_cmds (tenant space oid version : Nat) (f : Version → Version) : (s.modVersion tenant space oid version f).cmds = s.cmds := rfl
@[simp] theorem State.modVersion_nextTag (tenant space oid version : Nat) (f : Version → Version) : (s.modVersion tenant space oid version f).nextTag = s.nextTag := rfl
@[simp] theorem State.modVersion_held (tenant space oid version : Nat) (f : Version → Version) : (s.modVersion tenant space oid version f).held = s.held := rfl
@[simp] theorem State.modVersion_ctxs (tenant space oid version : Nat) (f : Version → Version) : (s.modVersion tenant space oid version f).ctxs = s.ctxs := rfl
@[simp] theorem State.modVersion_slotAllocs (tenant space oid version : Nat) (f : Version → Version) : (s.modVersion tenant space oid version f).slotAllocs = s.slotAllocs := rfl
@[simp] theorem State.modVersion_nextCommit (tenant space oid version : Nat) (f : Version → Version) : (s.modVersion tenant space oid version f).nextCommit = s.nextCommit := rfl
@[simp] theorem State.modVersion_records (tenant space oid version : Nat) (f : Version → Version) : (s.modVersion tenant space oid version f).records = s.records := rfl
@[simp] theorem State.modVersion_flash (tenant space oid version : Nat) (f : Version → Version) : (s.modVersion tenant space oid version f).flash = s.flash := rfl
@[simp] theorem State.modVersion_crumbs (tenant space oid version : Nat) (f : Version → Version) : (s.modVersion tenant space oid version f).crumbs = s.crumbs := rfl
@[simp] theorem State.modVersion_ctrls (tenant space oid version : Nat) (f : Version → Version) : (s.modVersion tenant space oid version f).ctrls = s.ctrls := rfl
@[simp] theorem State.modVersion_jobs (tenant space oid version : Nat) (f : Version → Version) : (s.modVersion tenant space oid version f).jobs = s.jobs := rfl
@[simp] theorem State.modVersion_bufs (tenant space oid version : Nat) (f : Version → Version) : (s.modVersion tenant space oid version f).bufs = s.bufs := rfl
@[simp] theorem State.modVersion_rollers (tenant space oid version : Nat) (f : Version → Version) : (s.modVersion tenant space oid version f).rollers = s.rollers := rfl
@[simp] theorem State.modVersion_rolls (tenant space oid version : Nat) (f : Version → Version) : (s.modVersion tenant space oid version f).rolls = s.rolls := rfl
@[simp] theorem State.modVersion_disp (tenant space oid version : Nat) (f : Version → Version) : (s.modVersion tenant space oid version f).disp = s.disp := rfl
@[simp] theorem State.modVersion_prf (tenant space oid version : Nat) (f : Version → Version) : (s.modVersion tenant space oid version f).prf = s.prf := rfl
@[simp] theorem State.modVersion_ecuFailed (tenant space oid version : Nat) (f : Version → Version) : (s.modVersion tenant space oid version f).ecuFailed = s.ecuFailed := rfl
@[simp] theorem State.modVersion_digests (tenant space oid version : Nat) (f : Version → Version) : (s.modVersion tenant space oid version f).digests = s.digests := rfl
@[simp] theorem State.modVersion_keys (tenant space oid version : Nat) (f : Version → Version) : (s.modVersion tenant space oid version f).keys = s.keys := rfl
@[simp] theorem State.modVersion_banks (tenant space oid version : Nat) (f : Version → Version) : (s.modVersion tenant space oid version f).banks = s.banks := rfl
@[simp] theorem State.modVersion_mem (tenant space oid version : Nat) (f : Version → Version) : (s.modVersion tenant space oid version f).mem = s.mem := rfl
@[simp] theorem State.modVersion_firon (tenant space oid version : Nat) (f : Version → Version) : (s.modVersion tenant space oid version f).firon = s.firon := rfl
@[simp] theorem State.modVersion_hk (tenant space oid version : Nat) (f : Version → Version) : (s.modVersion tenant space oid version f).hk = s.hk := rfl
@[simp] theorem State.modVersion_eid (tenant space oid version : Nat) (f : Version → Version) : (s.modVersion tenant space oid version f).eid = s.eid := rfl
@[simp] theorem State.modVersion_dynAddr (tenant space oid version : Nat) (f : Version → Version) : (s.modVersion tenant space oid version f).dynAddr = s.dynAddr := rfl
@[simp] theorem State.modVersion_tx (tenant space oid version : Nat) (f : Version → Version) : (s.modVersion tenant space oid version f).tx = s.tx := rfl
@[simp] theorem State.modVersion_fresh (tenant space oid version : Nat) (f : Version → Version) : (s.modVersion tenant space oid version f).fresh = s.fresh := rfl

end Sys2Proof.Machine
end

