-- ==== Sys2Proof/Laws/Cores.lean ====
section
/-! SUPPORT. Cores: reading one after a change, and how an instruction that runs ends (06 R201, R237, R245). -/
namespace Sys2Proof.Machine

/-- A core after it has been changed. -/
@[simp] theorem State.core_modCore (s : State) (k : CoreSel) (f : Core → Core) : (s.modCore k f).core k = f (s.core k) := by
  cases k <;> simp [State.core, State.modCore, State.crumb, State.ccore]

/-- A change of one core leaves the others alone. -/
theorem State.core_modCore_of_ne (s : State) {k l : CoreSel} (f : Core → Core) (h : l ≠ k) :
    (s.modCore k f).core l = s.core l := by
  cases k with
  | crumb c =>
    cases l with
    | crumb d =>
      have hv : d.val ≠ c.val := fun e => h (congrArg CoreSel.crumb (Fin.ext e))
      simp [State.core, State.modCore, State.crumb, AMap.lookD_upd_of_ne _ _ _ hv]
    | ctrl d => simp [State.core, State.modCore, State.ccore]
  | ctrl c =>
    cases l with
    | crumb d => simp [State.core, State.modCore, State.crumb]
    | ctrl d =>
      have hv : d.val ≠ c.val := fun e => h (congrArg CoreSel.ctrl (Fin.ext e))
      simp [State.core, State.modCore, State.ccore, AMap.lookD_upd_of_ne _ _ _ hv]

/-- Two changes of one core are their composition. -/
@[simp] theorem State.modCore_modCore (s : State) (k : CoreSel) (f g : Core → Core) :
    (s.modCore k f).modCore k g = s.modCore k fun c => g (f c) := by
  cases k <;> simp [State.modCore, State.modCrumb, State.modCcore]

/-- An instruction that may run, may be fetched and raises nothing retires (R237). -/
theorem State.retire_ok {s t : State} {k : CoreSel} {len : Nat} {f : State → Except Exn State} (hr : s.runnable k = true)
    (hf : s.fetchOk k len = .ok ()) (h : f s = .ok t) :
    s.retire k len f = .next (t.retired k 1 ((s.core k).pc + BitVec.ofNat 32 len)) := by
  simp [State.retire, hr, hf, h]

/-- An instruction that may run and be fetched and whose effect raises an exception takes it. -/
theorem State.retire_error {s : State} {k : CoreSel} {len : Nat} {f : State → Except Exn State} {e : Exn}
    (hr : s.runnable k = true) (hf : s.fetchOk k len = .ok ()) (h : f s = .error e) :
    s.retire k len f = .next (s.raise k e) := by
  simp [State.retire, hr, hf, h]

/-- A fetch that raises an exception keeps the instruction from running. -/
theorem State.retire_fetch {s : State} {k : CoreSel} {len : Nat} {f : State → Except Exn State} {e : Exn}
    (hr : s.runnable k = true) (hf : s.fetchOk k len = .error e) : s.retire k len f = .next (s.raise k e) := by
  simp [State.retire, hr, hf]

/-- A core that may not run an instruction leaves everything as it is. -/
theorem State.retire_idle {s : State} {k : CoreSel} {len : Nat} {f : State → Except Exn State}
    (hr : s.runnable k = false) : s.retire k len f = .next s := by
  simp [State.retire, hr]

/-- An instruction always answers a next state. -/
theorem State.retire_next (s : State) (k : CoreSel) (len : Nat) (f : State → Except Exn State) :
    ∃ t, s.retire k len f = .next t := by
  simp only [State.retire]
  repeat' split
  all_goals exact ⟨_, rfl⟩

/-- The retirement of an instruction whose effect is on the core's registers alone. -/
theorem State.retired_modCore (s : State) (k : CoreSel) (f : Core → Core) (n : Nat) (target : Word) :
    (s.modCore k f).retired k n target =
      match k with
      | .crumb c => s.modCrumb c fun x => { x with
          core := { f x.core with pc := target, icount := (f x.core).icount + BitVec.ofNat 32 n } }
      | .ctrl c => s.modCcore c fun x => CtrlCore.takeIrq { x with
          core := { f x.core with pc := target, icount := (f x.core).icount + BitVec.ofNat 32 n } } := by
  cases k <;> simp [State.retired, State.modCore, State.modCrumb, State.modCcore]

end Sys2Proof.Machine
end

