-- ==== Sys2Proof/Laws/Memory.lean ====
section
/-! SUPPORT. Byte memories: the canonical form, which every operation keeps, and read after write (11; the form is the
model's own). -/
namespace Sys2Proof.Machine

/-- Every listed address lies above the bound. -/
theorem Memory.wfFrom_weaken {m : Memory} {lo : Nat} (h : Memory.wfFrom (some lo) m = true) {i : Nat} (hi : i ≤ lo) :
    Memory.wfFrom (some i) m = true := by
  cases m with
  | nil => rfl
  | cons e m =>
    obtain ⟨k, b⟩ := e
    simp only [Memory.wfFrom, Bool.and_eq_true, decide_eq_true_eq] at h ⊢
    exact ⟨⟨by omega, h.1.2⟩, h.2⟩

/-- The form above a bound gives the form. -/
theorem Memory.wfFrom_none {m : Memory} {lo : Option Nat} (h : Memory.wfFrom lo m = true) : Memory.wfFrom none m = true := by
  cases m with
  | nil => rfl
  | cons e m =>
    obtain ⟨k, b⟩ := e
    simp only [Memory.wfFrom, Bool.and_eq_true] at h ⊢
    exact ⟨⟨trivial, h.1.2⟩, h.2⟩

/-- Above the bound: what the canonical form asks of a lower bound. -/
def aboveBound (lo : Option Nat) (a : Nat) : Prop := ∀ l, lo = some l → l < a

/-- Writing a byte above the bound keeps the form. -/
theorem Memory.wfFrom_put {m : Memory} {lo : Option Nat} (h : Memory.wfFrom lo m = true) {a : Nat} (b : Byte)
    (ha : aboveBound lo a) : Memory.wfFrom lo (m.put a b) = true := by
  induction m generalizing lo with
  | nil =>
    simp only [Memory.put]
    split
    · rfl
    · next hb => cases lo <;> simp_all [Memory.wfFrom, aboveBound]
  | cons e m ih =>
    obtain ⟨k, c⟩ := e
    simp only [Memory.wfFrom, Bool.and_eq_true] at h
    simp only [Memory.put]
    split
    · next hk =>
      simp only [Memory.wfFrom, Bool.and_eq_true]
      exact ⟨h.1, ih h.2 fun l hl => by cases hl; exact hk⟩
    · split
      · next hk =>
        subst hk
        split
        · cases lo with
          | none => exact Memory.wfFrom_none h.2
          | some l =>
            have hl : l < k := by simpa using h.1.1
            exact Memory.wfFrom_weaken h.2 (Nat.le_of_lt hl)
        · next hb => simp only [Memory.wfFrom, Bool.and_eq_true]; exact ⟨⟨h.1.1, by simpa using hb⟩, h.2⟩
      · next hk hne =>
        split
        · simp only [Memory.wfFrom, Bool.and_eq_true]; exact h
        · next hb =>
          simp only [Memory.wfFrom, Bool.and_eq_true, decide_eq_true_eq]
          refine ⟨⟨?_, by simpa using hb⟩, ⟨by omega, h.1.2⟩, h.2⟩
          cases lo with
          | none => rfl
          | some l => simpa using ha l rfl

/-- Writing a byte keeps the canonical form. -/
theorem Memory.wf_put {m : Memory} (h : m.wf = true) (a : Nat) (b : Byte) : (m.put a b).wf = true :=
  Memory.wfFrom_put h b fun _ hl => by cases hl

/-- Writing bytes keeps the canonical form. -/
theorem Memory.wf_write {m : Memory} (h : m.wf = true) (a : Nat) (d : List Byte) : (m.write a d).wf = true := by
  induction d generalizing m a with
  | nil => exact h
  | cons b d ih => exact ih (Memory.wf_put h a b) (a + 1)

/-- Taking entries out keeps the form. -/
theorem Memory.wfFrom_filter {m : Memory} {lo : Option Nat} (h : Memory.wfFrom lo m = true) (p : Nat × Byte → Bool) :
    Memory.wfFrom lo (List.filter p m) = true := by
  induction m generalizing lo with
  | nil => rfl
  | cons e m ih =>
    obtain ⟨k, c⟩ := e
    simp only [Memory.wfFrom, Bool.and_eq_true] at h
    simp only [List.filter_cons]
    split
    · simp only [Memory.wfFrom, Bool.and_eq_true]; exact ⟨h.1, ih h.2⟩
    · cases lo with
      | none => exact Memory.wfFrom_none (ih h.2)
      | some l =>
        have hl : l < k := by simpa using h.1.1
        exact Memory.wfFrom_weaken (ih h.2) (Nat.le_of_lt hl)

/-- Zeroing a range keeps the canonical form. -/
theorem Memory.wf_clear {m : Memory} (h : m.wf = true) (lo hi : Nat) : (m.clear lo hi).wf = true :=
  Memory.wfFrom_filter h _

/-- An address below or at a bound that the listed addresses lie above reads as zero. -/
theorem Memory.get_of_le {m : Memory} {l : Nat} (h : Memory.wfFrom (some l) m = true) {a : Nat} (ha : a ≤ l) :
    m.get a = 0 := by
  induction m generalizing l with
  | nil => rfl
  | cons e m ih =>
    obtain ⟨k, c⟩ := e
    simp only [Memory.wfFrom, Bool.and_eq_true, decide_eq_true_eq] at h
    simp only [Memory.get]
    rw [if_neg (by omega)]
    exact ih h.2 (by omega)

/-- A byte written is read back. -/
theorem Memory.get_put_self {m : Memory} {lo : Option Nat} (h : Memory.wfFrom lo m = true) (a : Nat) (b : Byte) :
    (m.put a b).get a = b := by
  induction m generalizing lo with
  | nil => simp only [Memory.put]; split <;> simp_all [Memory.get]
  | cons e m ih =>
    obtain ⟨k, c⟩ := e
    simp only [Memory.wfFrom, Bool.and_eq_true] at h
    simp only [Memory.put]
    split
    · next hk => simp [Memory.get, Nat.ne_of_lt hk, ih h.2]
    · split
      · next hk =>
        subst hk
        split
        · next hb => rw [Memory.get_of_le h.2 (Nat.le_refl _), hb]
        · simp [Memory.get]
      · next hk hne =>
        split
        · next hb =>
          simp only [Memory.get, if_neg hne]
          rw [Memory.get_of_le h.2 (by omega), hb]
        · simp [Memory.get]

/-- A byte written leaves the other addresses alone. -/
theorem Memory.get_put_of_ne (m : Memory) {a i : Nat} (b : Byte) (hi : i ≠ a) : (m.put a b).get i = m.get i := by
  induction m with
  | nil => simp only [Memory.put]; split <;> simp [Memory.get, Ne.symm hi]
  | cons e m ih =>
    obtain ⟨k, c⟩ := e
    simp only [Memory.put]
    split
    · simp [Memory.get, ih]
    · split
      · next hk => subst hk; split <;> simp [Memory.get, Ne.symm hi]
      · split <;> simp [Memory.get, Ne.symm hi]

/-- Bytes written leave the addresses outside them alone. -/
theorem Memory.get_write_of_outside (m : Memory) (d : List Byte) {a i : Nat} (hi : i < a ∨ a + d.length ≤ i) :
    (m.write a d).get i = m.get i := by
  induction d generalizing m a with
  | nil => rfl
  | cons b d ih =>
    simp only [List.length_cons] at hi
    simp only [Memory.write]
    rw [ih _ (by omega), Memory.get_put_of_ne m b (by omega)]

/-- Bytes written are read back. -/
theorem Memory.get_write_inside {m : Memory} (h : m.wf = true) (d : List Byte) (a i : Nat) (hi : i < d.length) :
    (m.write a d).get (a + i) = d.getD i 0 := by
  induction d generalizing m a i with
  | nil => simp at hi
  | cons b d ih =>
    simp only [Memory.write]
    cases i with
    | zero => rw [Memory.get_write_of_outside _ d (by omega)]; simpa using Memory.get_put_self h a b
    | succ i =>
      have := ih (Memory.wf_put h a b) (a + 1) i (by simpa using hi)
      rw [← Nat.add_assoc, Nat.add_right_comm] 
      simpa using this

/-! ## The package memory -/

/-- The bytes of the package memory are in canonical form. -/
def State.MemWf (s : State) : Prop := s.mem.bytes.wf = true

/-- A change of the state that keeps the package memory's form. -/
theorem State.MemWf.of_eq {s t : State} (h : s.MemWf) (e : t.mem.bytes = s.mem.bytes) : t.MemWf := by
  simpa [State.MemWf, e] using h

/-- Storing a block keeps the form. -/
theorem PkgMem.wf_store {m : PkgMem} (h : m.bytes.wf = true) (blk : Nat) (d : BitVec 256) (e : BitVec 32) :
    (m.store blk d e).bytes.wf = true := by
  have w := Memory.wf_write h (32 * blk) (leBytes 32 d.toNat)
  simpa only [PkgMem.store] using w

/-- Storing a block of the state's memory keeps the form. -/
theorem State.MemWf.store {s : State} (h : s.MemWf) (blk : Nat) (d : BitVec 256) (e : BitVec 32) :
    (s.modMem fun m => m.store blk d e).MemWf := PkgMem.wf_store h blk d e

/-- Storing a block computed from the memory keeps the form. -/
theorem State.MemWf.storeOf {s : State} (h : s.MemWf) (blk : Nat) (f : PkgMem → BitVec 256) (e : BitVec 32) :
    (s.modMem fun m => m.store blk (f m) e).MemWf := PkgMem.wf_store h blk (f s.mem) e

/-- A change of a controller keeps the form. -/
theorem State.MemWf.modCtrl {s : State} (h : s.MemWf) (c : Nat) (f : MemCtrl → MemCtrl) : (s.modCtrl c f).MemWf := h

/-- A counter keeps the form. -/
theorem State.MemWf.bump {s : State} (h : s.MemWf) (n : RegName) (i : Nat) : (s.bump n i).MemWf := h

/-- An event record keeps the form. -/
theorem State.MemWf.record {s : State} (h : s.MemWf) (code source : Nat) (d : List Byte) : (s.record code source d).MemWf := by
  refine h.of_eq ?_
  simp only [State.record]
  split
  · rfl
  · split
    · rfl
    · split <;> rfl

/-- Reading a block keeps the form. -/
theorem State.MemWf.readBlock {s : State} (h : s.MemWf) (stack sa : Nat) (consumed : Bool) :
    (s.readBlock stack sa consumed).2.2.MemWf := by
  unfold State.readBlock
  extract_lets blk region d
  split
  · split
    · exact h.bump _ _
    · split
      · exact h
      · cases consumed
        · exact h
        · exact h.bump _ _
  · split
    · exact h
    · exact (h.store _ _ _).bump _ _
    · exact (h.store _ _ _).bump _ _
    · next cls =>
      extract_lets s1 s2 x
      have h1 : s1.MemWf := by
        simp only [s1]; split
        · exact (h.bump _ _).record _ _ _
        · exact h
      have h2 : s2.MemWf := by
        simp only [s2]; split
        · exact h1.bump _ _
        · exact h1
      split
      · exact (h2.store _ _ _).bump _ _
      · split
        · exact h2.store _ _ _
        · exact h2

/-- Retiring a merge entry keeps the form. -/
theorem State.MemWf.retireMerge {s : State} (h : s.MemWf) (c : Nat) (e : MergeEntry) : (s.retireMerge c e).MemWf := by
  simp only [State.retireMerge]
  split
  · exact (h.modCtrl _ _).store _ _ _
  · split
    · exact (State.MemWf.store (((h.modCtrl _ _).readBlock _ _ _).bump _ _) _ _ _).bump _ _
    · exact State.MemWf.store (((h.modCtrl _ _).readBlock _ _ _).bump _ _) _ _ _

/-- Retiring the entry of a block keeps the form. -/
theorem State.MemWf.flushMerge {s : State} (h : s.MemWf) (stack sa : Nat) : (s.flushMerge stack sa).MemWf := by
  simp only [State.flushMerge]
  split
  · exact h.retireMerge _ _
  · exact h

/-- Retiring the oldest entry keeps the form. -/
theorem State.MemWf.drainMerge {s : State} (h : s.MemWf) (c limit : Nat) : (s.drainMerge c limit).MemWf := by
  simp only [State.drainMerge]
  split
  · split
    · exact h.retireMerge _ _
    · exact h
  · exact h

/-- A write that reaches a controller keeps the form. -/
theorem State.MemWf.writeLine {s : State} (h : s.MemWf) (stack sa : Nat) (mask : BitVec 32) (d : BitVec 256) :
    (s.writeLine stack sa mask d).MemWf := by
  simp only [State.writeLine]
  split
  · exact (h.modCtrl _ _).store _ _ _
  · split
    · split
      · exact (h.modCtrl _ _).retireMerge _ _
      · exact h.modCtrl _ _
    · exact ((h.drainMerge _ _).modCtrl _ _).drainMerge _ _

/-- Writing a block keeps the form. -/
theorem State.MemWf.writeBlock {s : State} (h : s.MemWf) (stack sa : Nat) (mask : BitVec 32) (d : BitVec 256) :
    (s.writeBlock stack sa mask d).MemWf := by
  have hr := (h.flushMerge stack sa).readBlock stack sa false
  unfold State.writeBlock
  extract_lets region lost par r s1 new delta pblk s2 s3
  have h1 : s1.MemWf := hr
  split
  · split
    · exact h1.store _ _ _
    · have h2 : s2.MemWf := by
        simp only [s2]
        clear_value s1
        split
        · exact h1
        · exact h1.store _ _ _
      clear_value s2
      split
      · exact h2
      · split
        · exact h2.store _ _ _
        · exact h2.storeOf _ _ _
  · split
    · have h3 : s3.MemWf := by
        simp only [s3]; split
        · exact h
        · exact h.writeLine _ _ _ _
      split
      · exact h3
      · exact h3.writeLine _ _ _ _
    · split
      · exact h
      · exact h.writeLine _ _ _ _

/-- A property that every step of a fold keeps holds after it. -/
theorem foldl_keeps {σ β : Type} (P : σ → Prop) (f : σ → β → σ) (l : List β) {a : σ} (h : P a)
    (step : ∀ a b, P a → P (f a b)) : P (l.foldl f a) := by
  induction l generalizing a with
  | nil => exact h
  | cons b l ih => exact ih (step a b h)

/-- Reading bytes of the package memory keeps the form. -/
theorem State.MemWf.memRead {s : State} (h : s.MemWf) (addr len : Nat) (consumed : Bool) :
    (s.memRead addr len consumed).st.MemWf := by
  simp only [State.memRead]
  refine foldl_keeps (fun a : MemRead => a.st.MemWf) _ _ h ?_
  intro a b ha
  split
  · exact ha
  · exact (State.MemWf.flushMerge ha _ _).readBlock _ _ _

/-- Writing bytes of the package memory keeps the form. -/
theorem State.MemWf.memWrite {s : State} (h : s.MemWf) (addr : Nat) (b : List Byte) : (s.memWrite addr b).MemWf := by
  simp only [State.memWrite]
  refine foldl_keeps State.MemWf _ _ h ?_
  intro a blk ha
  split
  · exact ha
  · exact ha.writeBlock _ _ _ _

/-- Zeroing job memory keeps the form. -/
theorem State.MemWf.jobZero {s : State} (h : s.MemWf) (b off len : Nat) : (s.jobZero b off len).MemWf := by
  unfold State.jobZero
  extract_lets hit
  exact Memory.wfFrom_filter (m := s.mem.bytes) h _

/-- The reset memory lists nothing. -/
theorem State.reset_memWf : State.reset.MemWf := rfl

end Sys2Proof.Machine
end

