-- ==== Sys2Proof/Laws/Keeps.lean ====
section
/-! SUPPORT. What every shared operation keeps: the queue of commands, what was sent, and the invariant. -/
namespace Sys2Proof.Machine

open Claims

/-- From `s` to `t` the queue is as it was, nothing sent is taken back, and the invariant is kept. -/
structure Keeps (s t : State) : Prop where
  pending : t.pending = s.pending
  sent : s.tx <+: t.tx
  inv : Sound s → Sound t

/-- A change of nothing. -/
theorem Keeps.refl (s : State) : Keeps s s := ⟨rfl, List.prefix_refl _, id⟩

/-- One change after another. -/
theorem Keeps.trans {s t u : State} (h : Keeps s t) (k : Keeps t u) : Keeps s u :=
  ⟨k.pending.trans h.pending, h.sent.trans k.sent, fun i => k.inv (h.inv i)⟩

/-- A change of fields of which the invariant does not speak. -/
theorem Keeps.frame {s0 s t : State} (h : Keeps s0 s) (h1 : t.pending = s.pending) (h2 : t.tx = s.tx)
    (h3 : t.mem.bytes = s.mem.bytes) (h4 : t.crumbs = s.crumbs) (h5 : t.cmds = s.cmds) (h6 : t.nextTag = s.nextTag)
    (h7 : t.evr = s.evr) : Keeps s0 t :=
  h.trans ⟨h1, ⟨[], by simp [h2]⟩, fun i => by unfold Sound at *; rw [h3, h4, h5, h6, h7]; exact i⟩

/-- Either branch. -/
theorem Keeps.ite {s0 a b : State} {c : Prop} [Decidable c] (ha : c → Keeps s0 a) (hb : ¬c → Keeps s0 b) :
    Keeps s0 (if c then a else b) := by
  split
  · exact ha ‹_›
  · exact hb ‹_›

/-- A sum of changes. -/
theorem Keeps.foldl {s0 a : State} {β : Type} {f : State → β → State} {l : List β} (hf : ∀ s x, Keeps s0 s → Keeps s0 (f s x))
    (h : Keeps s0 a) : Keeps s0 (l.foldl f a) := by
  induction l generalizing a with
  | nil => exact h
  | cons x l ih => exact ih (hf a x h)

/-- A sum of changes with something beside it. -/
theorem Keeps.foldlFst {s0 : State} {α β : Type} {f : State × α → β → State × α} {l : List β} {a : State × α}
    (hf : ∀ a x, Keeps s0 a.1 → Keeps s0 (f a x).1) (h : Keeps s0 a.1) : Keeps s0 (l.foldl f a).1 := by
  induction l generalizing a with
  | nil => exact h
  | cons x l ih => exact ih (hf a x h)

/-- A sum of changes with something before it. -/
theorem Keeps.foldlSnd {s0 : State} {α β : Type} {f : α × State → β → α × State} {l : List β} {a : α × State}
    (hf : ∀ a x, Keeps s0 a.2 → Keeps s0 (f a x).2) (h : Keeps s0 a.2) : Keeps s0 (l.foldl f a).2 := by
  induction l generalizing a with
  | nil => exact h
  | cons x l ih => exact ih (hf a x h)

/-- A change that may not be possible. -/
theorem Keeps.getD {s0 d : State} {o : Option State} (h : ∀ t, o = some t → Keeps s0 t) (hd : Keeps s0 d) : Keeps s0 (o.getD d) := by
  cases o with
  | none => exact hd
  | some t => exact h t rfl

/-- The commands may lose members and change in anything but their tags. -/
theorem Keeps.cmds {s0 s t : State} (h : Keeps s0 s) (h1 : t.pending = s.pending) (h2 : t.tx = s.tx)
    (h3 : t.mem.bytes = s.mem.bytes) (h4 : t.crumbs = s.crumbs) (h5 : (t.cmds.map Cmd.tag).Sublist (s.cmds.map Cmd.tag))
    (h6 : t.nextTag = s.nextTag) (h7 : t.evr = s.evr) : Keeps s0 t := by
  refine h.trans ⟨h1, ⟨[], by simp [h2]⟩, fun i => ?_⟩
  obtain ⟨a, b, c, d, e⟩ := i
  refine ⟨by rw [h3]; exact a, by rw [h4]; exact b, h5.nodup c, ?_, by rw [h7]; exact e⟩
  intro x hx
  have : x.tag ∈ s.cmds.map Cmd.tag := h5.subset (List.mem_map_of_mem hx)
  obtain ⟨y, hy, e⟩ := List.mem_map.1 this
  rw [h6, ← e]
  exact d y hy

/-- The event recorder may change to another ordered one. -/
theorem Keeps.evr {s0 s t : State} (h : Keeps s0 s) (h1 : t.pending = s.pending) (h2 : t.tx = s.tx)
    (h3 : t.mem.bytes = s.mem.bytes) (h4 : t.crumbs = s.crumbs) (h5 : t.cmds = s.cmds)
    (h6 : t.nextTag = s.nextTag) (h7 : EventsOrdered s.evr → EventsOrdered t.evr) : Keeps s0 t := by
  refine h.trans ⟨h1, ⟨[], by simp [h2]⟩, fun i => ?_⟩
  obtain ⟨a, b, c, d, e⟩ := i
  exact ⟨by rw [h3]; exact a, by rw [h4]; exact b, by rw [h5]; exact c, by rw [h5, h6]; exact d, h7 e⟩

/-- The crumbs may change to others whose stores have their form. -/
theorem Keeps.crumbs {s0 s t : State} (h : Keeps s0 s) (h1 : t.pending = s.pending) (h2 : t.tx = s.tx)
    (h3 : t.mem.bytes = s.mem.bytes) (h4 : (∀ x ∈ s.crumbs, x.2.store.wf = true) → ∀ x ∈ t.crumbs, x.2.store.wf = true)
    (h5 : t.cmds = s.cmds) (h6 : t.nextTag = s.nextTag) (h7 : t.evr = s.evr) : Keeps s0 t := by
  refine h.trans ⟨h1, ⟨[], by simp [h2]⟩, fun i => ?_⟩
  obtain ⟨a, b, c, d, e⟩ := i
  exact ⟨by rw [h3]; exact a, h4 b, by rw [h5]; exact c, by rw [h5, h6]; exact d, by rw [h7]; exact e⟩

/-- The package memory may change to another with its form. -/
theorem Keeps.bytes {s0 s t : State} (h : Keeps s0 s) (h1 : t.pending = s.pending) (h2 : t.tx = s.tx)
    (h3 : s.mem.bytes.wf = true → t.mem.bytes.wf = true) (h4 : t.crumbs = s.crumbs)
    (h5 : t.cmds = s.cmds) (h6 : t.nextTag = s.nextTag) (h7 : t.evr = s.evr) : Keeps s0 t := by
  refine h.trans ⟨h1, ⟨[], by simp [h2]⟩, fun i => ?_⟩
  obtain ⟨a, b, c, d, e⟩ := i
  exact ⟨h3 a, by rw [h4]; exact b, by rw [h5]; exact c, by rw [h5, h6]; exact d, by rw [h7]; exact e⟩

/-- A new command takes the next tag. -/
theorem Keeps.newCmd {s0 s : State} (h : Keeps s0 s) (c : Cmd) (hc : c.tag = s.nextTag) :
    Keeps s0 { s with nextTag := s.nextTag + 1, cmds := s.cmds ++ [c] } := by
  refine h.trans ⟨rfl, List.prefix_refl _, fun i => ?_⟩
  obtain ⟨a, b, n, d, e⟩ := i
  refine ⟨a, b, ?_, ?_, e⟩
  · simp only [List.map_append, List.map_cons, List.map_nil]
    refine List.nodup_append.2 ⟨n, by simp, ?_⟩
    intro x hx y hy hxy
    obtain ⟨z, hz, rfl⟩ := List.mem_map.1 hx
    have := d z hz
    simp only [List.mem_singleton] at hy
    omega
  · intro x hx
    simp only [List.mem_append, List.mem_singleton] at hx
    dsimp only
    rcases hx with hx | rfl
    · have := d x hx
      omega
    · omega

/-- A command that was found by its tag has it. -/
theorem tag_of_cmd {s : State} {tag : Nat} {c : Cmd} (h : s.cmd? tag = some c) : c.tag = tag := by
  have := List.find?_some h
  simpa using this

/-- The answer, if there is one, is a state that is kept, or holds one at `p`. -/
def KeepsO {α : Type} (s0 : State) (p : α → State) (o : Option α) : Prop := ∀ r, o = some r → Keeps s0 (p r)

/-- No answer. -/
theorem KeepsO.none {α : Type} {s0 : State} {p : α → State} : KeepsO s0 p none := fun _ h => by cases h

/-- An answer. -/
theorem KeepsO.some {α : Type} {s0 : State} {p : α → State} {r : α} (h : Keeps s0 (p r)) : KeepsO s0 p (some r) := by
  intro x e
  cases e
  exact h

/-- An answer that goes on from another one. -/
theorem KeepsO.bind {α β : Type} {s0 : State} {p : α → State} {o : Option β} {f : β → Option α}
    (h : ∀ r, o = .some r → KeepsO s0 p (f r)) : KeepsO s0 p (o.bind f) := by
  cases o with
  | none => exact KeepsO.none
  | some r => exact h r rfl

/-- Either branch. -/
theorem KeepsO.ite {α : Type} {s0 : State} {p : α → State} {a b : Option α} {c : Prop} [Decidable c]
    (ha : c → KeepsO s0 p a) (hb : ¬c → KeepsO s0 p b) : KeepsO s0 p (if c then a else b) := by
  split
  · exact ha ‹_›
  · exact hb ‹_›

/-- An answer that is made from another one. -/
theorem KeepsO.map {α β : Type} {s0 : State} {p : α → State} {o : Option β} {f : β → α}
    (h : ∀ r, o = .some r → Keeps s0 (p (f r))) : KeepsO s0 p (o.map f) := by
  cases o with
  | none => exact KeepsO.none
  | some r => exact KeepsO.some (h r rfl)

/-- A sum of changes that may not be possible. -/
theorem KeepsO.foldl {α β : Type} {s0 : State} {p : α → State} {f : Option α → β → Option α} {l : List β} {a : Option α}
    (hf : ∀ a x, KeepsO s0 p a → KeepsO s0 p (f a x)) (h : KeepsO s0 p a) : KeepsO s0 p (l.foldl f a) := by
  induction l generalizing a with
  | nil => exact h
  | cons x l ih => exact ih (hf a x h)

/-- The answer, if it is no error, is a state that is kept, or holds one at `p`. -/
def KeepsE {ε α : Type} (s0 : State) (p : α → State) (x : Except ε α) : Prop := ∀ r, x = .ok r → Keeps s0 (p r)

/-- An error. -/
theorem KeepsE.error {ε α : Type} {s0 : State} {p : α → State} {e : ε} : KeepsE s0 p (.error e) := fun _ h => by cases h

/-- An answer. -/
theorem KeepsE.ok {ε α : Type} {s0 : State} {p : α → State} {r : α} (h : Keeps s0 (p r)) : KeepsE s0 p (Except.ok r : Except ε α) := by
  intro x e
  cases e
  exact h

/-- An answer that goes on from another one. -/
theorem KeepsE.bind {ε α β : Type} {s0 : State} {p : α → State} {x : Except ε β} {f : β → Except ε α}
    (h : ∀ r, x = .ok r → KeepsE s0 p (f r)) : KeepsE s0 p (x >>= f) := by
  cases x with
  | error e => exact KeepsE.error
  | ok r => exact h r rfl

/-- Either branch. -/
theorem KeepsE.ite {ε α : Type} {s0 : State} {p : α → State} {a b : Except ε α} {c : Prop} [Decidable c]
    (ha : c → KeepsE s0 p a) (hb : ¬c → KeepsE s0 p b) : KeepsE s0 p (if c then a else b) := by
  split
  · exact ha ‹_›
  · exact hb ‹_›

/-- Something is sent. -/
theorem Keeps.emit {s0 s : State} (h : Keeps s0 s) (t : Tx) : Keeps s0 (s.emit t) :=
  h.trans ⟨rfl, ⟨[t], rfl⟩, id⟩

/-- An entry of a table that keeps a test. -/
theorem AMap.forall_put {α : Type} (p : α → Prop) (m : AMap α) (n : Nat) (a : α) (h : ∀ x ∈ m, p x.2) (ha : p a) :
    ∀ x ∈ m.put n a, p x.2 := by
  induction m with
  | nil => simp [AMap.put, ha]
  | cons e m ih =>
    obtain ⟨k, v⟩ := e
    have hm : ∀ x ∈ m, p x.2 := fun x hx => h x (List.mem_cons_of_mem _ hx)
    have hv : p v := h (k, v) List.mem_cons_self
    simp only [AMap.put]
    split
    · intro x hx
      rcases List.mem_cons.1 hx with rfl | hx
      · exact hv
      · exact ih hm x hx
    · split
      · intro x hx
        rcases List.mem_cons.1 hx with rfl | hx
        · exact ha
        · exact hm x hx
      · intro x hx
        rcases List.mem_cons.1 hx with rfl | hx
        · exact ha
        · exact h x hx

/-- The entry of a number passes a test that every entry and the default pass. -/
theorem AMap.lookD_of_forall {α : Type} (p : α → Prop) (m : AMap α) (n : Nat) (d : α) (h : ∀ x ∈ m, p x.2) (hd : p d) :
    p (m.lookD n d) := by
  induction m with
  | nil => exact hd
  | cons e m ih =>
    obtain ⟨k, v⟩ := e
    simp only [AMap.lookD, AMap.look] at ih ⊢
    split
    · exact h (k, v) List.mem_cons_self
    · exact ih fun x hx => h x (List.mem_cons_of_mem _ hx)

/-- The tags of commands that change in anything but their tags. -/
theorem tags_adjWhere (l : List Cmd) (p : Cmd → Bool) (f : Cmd → Cmd) (hf : ∀ c, (f c).tag = c.tag) :
    (adjWhere l p f).map Cmd.tag = l.map Cmd.tag := by
  simp only [adjWhere, List.map_map]
  apply List.map_congr_left
  intro c _
  simp only [Function.comp]
  split
  · exact hf c
  · rfl

end Sys2Proof.Machine
end

