-- ==== Sys2Proof/Laws/KeepsOps.lean ====
section
/-! SUPPORT. What keeps the queue, what was sent and the invariant: the shared operations on registers, events, flash rows, modes, commands, memory and objects. -/
namespace Sys2Proof.Machine

open Claims

/-! ## Ops -/

/-- A state whose named fields are those of another. -/
theorem Keeps.mk' {s0 s : State} {x0 : List Instr} {x1 : Modes} {x2 : Boot} {x3 : Cfg} {x4 : EvRecorder} {x5 : AMap Reg}
    {x6 : AMap Latch} {x7 : Bool} {x8 : Bool} {x9 : HostPort} {x10 : HostPort} {x11 : AMap FnPort} {x12 : AMap Tenant}
    {x13 : List QueuePair} {x14 : List Cmd} {x15 : Nat} {x16 : List Held} {x17 : Dispatcher} {x18 : List Ctx} {x19 : AMap Nat}
    {x20 : List Version} {x21 : List Commit} {x22 : Nat} {x23 : List Record} {x24 : Flash} {x25 : AMap Crumb}
    {x26 : AMap CtrlCore} {x27 : List Job} {x28 : List SliceBuf} {x29 : Proofer} {x30 : AMap RollerPair} {x31 : RollerQueue}
    {x32 : List Nat} {x33 : Digests} {x34 : KeyStore} {x35 : AMap Bank} {x36 : PkgMem} {x37 : Firon} {x38 : Housekeeping}
    {x39 : Byte} {x40 : Option (BitVec 7)} {x41 : List Tx} {x42 : Nat} (h : Keeps s0 s) (hpending : x0 = s.pending)
    (htx : x41 = s.tx) (hcmds : x14 = s.cmds) (hcrumbs : x25 = s.crumbs) (hnextTag : x15 = s.nextTag) (hevr : x4 = s.evr)
    (hmem : x36.bytes = s.mem.bytes) :
    Keeps s0 (State.mk x0 x1 x2 x3 x4 x5 x6 x7 x8 x9 x10 x11 x12 x13 x14 x15 x16 x17 x18 x19 x20 x21 x22 x23 x24 x25 x26 x27
      x28 x29 x30 x31 x32 x33 x34 x35 x36 x37 x38 x39 x40 x41 x42) :=
  h.frame hpending htx hmem hcrumbs hcmds hnextTag hevr

/-- A state whose named fields are those of another, but for commands taken out. -/
theorem Keeps.mkFilter {s0 s : State} {p : Cmd → Bool} {x0 : List Instr} {x1 : Modes} {x2 : Boot} {x3 : Cfg}
    {x4 : EvRecorder} {x5 : AMap Reg} {x6 : AMap Latch} {x7 : Bool} {x8 : Bool} {x9 : HostPort} {x10 : HostPort}
    {x11 : AMap FnPort} {x12 : AMap Tenant} {x13 : List QueuePair} {x14 : List Cmd} {x15 : Nat} {x16 : List Held}
    {x17 : Dispatcher} {x18 : List Ctx} {x19 : AMap Nat} {x20 : List Version} {x21 : List Commit} {x22 : Nat}
    {x23 : List Record} {x24 : Flash} {x25 : AMap Crumb} {x26 : AMap CtrlCore} {x27 : List Job} {x28 : List SliceBuf}
    {x29 : Proofer} {x30 : AMap RollerPair} {x31 : RollerQueue} {x32 : List Nat} {x33 : Digests} {x34 : KeyStore}
    {x35 : AMap Bank} {x36 : PkgMem} {x37 : Firon} {x38 : Housekeeping} {x39 : Byte} {x40 : Option (BitVec 7)} {x41 : List Tx}
    {x42 : Nat} (h : Keeps s0 s) (hpending : x0 = s.pending) (htx : x41 = s.tx) (hcmds : x14 = s.cmds.filter p)
    (hcrumbs : x25 = s.crumbs) (hnextTag : x15 = s.nextTag) (hevr : x4 = s.evr) (hmem : x36.bytes = s.mem.bytes) :
    Keeps s0 (State.mk x0 x1 x2 x3 x4 x5 x6 x7 x8 x9 x10 x11 x12 x13 x14 x15 x16 x17 x18 x19 x20 x21 x22 x23 x24 x25 x26 x27
      x28 x29 x30 x31 x32 x33 x34 x35 x36 x37 x38 x39 x40 x41 x42) :=
  h.cmds hpending htx hmem hcrumbs (by rw [hcmds]; exact List.filter_sublist.map _) hnextTag hevr

/-- A state whose named fields are those of another, but for a change of every command. -/
theorem Keeps.mkMap {s0 s : State} {f : Cmd → Cmd} {x0 : List Instr} {x1 : Modes} {x2 : Boot} {x3 : Cfg} {x4 : EvRecorder}
    {x5 : AMap Reg} {x6 : AMap Latch} {x7 : Bool} {x8 : Bool} {x9 : HostPort} {x10 : HostPort} {x11 : AMap FnPort}
    {x12 : AMap Tenant} {x13 : List QueuePair} {x14 : List Cmd} {x15 : Nat} {x16 : List Held} {x17 : Dispatcher}
    {x18 : List Ctx} {x19 : AMap Nat} {x20 : List Version} {x21 : List Commit} {x22 : Nat} {x23 : List Record} {x24 : Flash}
    {x25 : AMap Crumb} {x26 : AMap CtrlCore} {x27 : List Job} {x28 : List SliceBuf} {x29 : Proofer} {x30 : AMap RollerPair}
    {x31 : RollerQueue} {x32 : List Nat} {x33 : Digests} {x34 : KeyStore} {x35 : AMap Bank} {x36 : PkgMem} {x37 : Firon}
    {x38 : Housekeeping} {x39 : Byte} {x40 : Option (BitVec 7)} {x41 : List Tx} {x42 : Nat} (h : Keeps s0 s)
    (hpending : x0 = s.pending) (htx : x41 = s.tx) (hcmds : x14 = s.cmds.map f) (hcrumbs : x25 = s.crumbs)
    (hnextTag : x15 = s.nextTag) (hevr : x4 = s.evr) (hmem : x36.bytes = s.mem.bytes) (hf : ∀ c, (f c).tag = c.tag) :
    Keeps s0 (State.mk x0 x1 x2 x3 x4 x5 x6 x7 x8 x9 x10 x11 x12 x13 x14 x15 x16 x17 x18 x19 x20 x21 x22 x23 x24 x25 x26 x27
      x28 x29 x30 x31 x32 x33 x34 x35 x36 x37 x38 x39 x40 x41 x42) :=
  h.cmds hpending htx hmem hcrumbs (by
    have e : s.cmds.map (Cmd.tag ∘ f) = s.cmds.map Cmd.tag := List.map_congr_left fun c _ => hf c
    rw [hcmds, List.map_map, e]
    all_goals exact List.Sublist.refl _) hnextTag hevr

/-- A state whose named fields are those of another, but for the event recorder, whose records stay in order. -/
theorem Keeps.mkEvr {s0 s : State} {x0 : List Instr} {x1 : Modes} {x2 : Boot} {x3 : Cfg} {x4 : EvRecorder} {x5 : AMap Reg}
    {x6 : AMap Latch} {x7 : Bool} {x8 : Bool} {x9 : HostPort} {x10 : HostPort} {x11 : AMap FnPort} {x12 : AMap Tenant}
    {x13 : List QueuePair} {x14 : List Cmd} {x15 : Nat} {x16 : List Held} {x17 : Dispatcher} {x18 : List Ctx} {x19 : AMap Nat}
    {x20 : List Version} {x21 : List Commit} {x22 : Nat} {x23 : List Record} {x24 : Flash} {x25 : AMap Crumb}
    {x26 : AMap CtrlCore} {x27 : List Job} {x28 : List SliceBuf} {x29 : Proofer} {x30 : AMap RollerPair} {x31 : RollerQueue}
    {x32 : List Nat} {x33 : Digests} {x34 : KeyStore} {x35 : AMap Bank} {x36 : PkgMem} {x37 : Firon} {x38 : Housekeeping}
    {x39 : Byte} {x40 : Option (BitVec 7)} {x41 : List Tx} {x42 : Nat} (h : Keeps s0 s) (hpending : x0 = s.pending)
    (htx : x41 = s.tx) (hcmds : x14 = s.cmds) (hcrumbs : x25 = s.crumbs) (hnextTag : x15 = s.nextTag)
    (hevr : EventsOrdered s.evr → EventsOrdered x4) (hmem : x36.bytes = s.mem.bytes) :
    Keeps s0 (State.mk x0 x1 x2 x3 x4 x5 x6 x7 x8 x9 x10 x11 x12 x13 x14 x15 x16 x17 x18 x19 x20 x21 x22 x23 x24 x25 x26 x27
      x28 x29 x30 x31 x32 x33 x34 x35 x36 x37 x38 x39 x40 x41 x42) :=
  h.evr hpending htx hmem hcrumbs hcmds hnextTag hevr

/-- A state whose named fields are those of another, but for a change of every Crumb. -/
theorem Keeps.mkCrumbs {s0 s : State} {f : Nat → Crumb → Crumb} {x0 : List Instr} {x1 : Modes} {x2 : Boot} {x3 : Cfg}
    {x4 : EvRecorder} {x5 : AMap Reg} {x6 : AMap Latch} {x7 : Bool} {x8 : Bool} {x9 : HostPort} {x10 : HostPort}
    {x11 : AMap FnPort} {x12 : AMap Tenant} {x13 : List QueuePair} {x14 : List Cmd} {x15 : Nat} {x16 : List Held}
    {x17 : Dispatcher} {x18 : List Ctx} {x19 : AMap Nat} {x20 : List Version} {x21 : List Commit} {x22 : Nat}
    {x23 : List Record} {x24 : Flash} {x25 : AMap Crumb} {x26 : AMap CtrlCore} {x27 : List Job} {x28 : List SliceBuf}
    {x29 : Proofer} {x30 : AMap RollerPair} {x31 : RollerQueue} {x32 : List Nat} {x33 : Digests} {x34 : KeyStore}
    {x35 : AMap Bank} {x36 : PkgMem} {x37 : Firon} {x38 : Housekeeping} {x39 : Byte} {x40 : Option (BitVec 7)} {x41 : List Tx}
    {x42 : Nat} (h : Keeps s0 s) (hpending : x0 = s.pending) (htx : x41 = s.tx) (hcmds : x14 = s.cmds)
    (hcrumbs : x25 = s.crumbs.mapVal f) (hnextTag : x15 = s.nextTag) (hevr : x4 = s.evr) (hmem : x36.bytes = s.mem.bytes)
    (hf : ∀ c k, k.store.wf = true → (f c k).store.wf = true) :
    Keeps s0 (State.mk x0 x1 x2 x3 x4 x5 x6 x7 x8 x9 x10 x11 x12 x13 x14 x15 x16 x17 x18 x19 x20 x21 x22 x23 x24 x25 x26 x27
      x28 x29 x30 x31 x32 x33 x34 x35 x36 x37 x38 x39 x40 x41 x42) := by
  refine h.crumbs hpending htx hmem ?_ hcmds hnextTag hevr
  rw [hcrumbs]
  intro i x hx
  obtain ⟨y, hy, rfl⟩ := List.mem_map.1 hx
  exact hf _ _ (i y hy)

/-- `State.modFp` keeps it. -/
theorem Keeps.modFp {s0 s : State} (hs : Keeps s0 s) (port : Port) (fn : Nat) (f : FnPort → FnPort) : Keeps s0
    (State.modFp s port fn f) := by
  unfold State.modFp
  repeat' first
    | with_reducible assumption
    | with_reducible refine Keeps.mk' ?_ rfl rfl rfl rfl rfl rfl rfl

/-- `State.modTenant` keeps it. -/
theorem Keeps.modTenant {s0 s : State} (hs : Keeps s0 s) (n : Nat) (f : Tenant → Tenant) : Keeps s0 (State.modTenant s n f)
    := by
  unfold State.modTenant
  repeat' first
    | with_reducible assumption
    | with_reducible refine Keeps.mk' ?_ rfl rfl rfl rfl rfl rfl rfl

/-- `State.modHp` keeps it. -/
theorem Keeps.modHp {s0 s : State} (hs : Keeps s0 s) (port : Port) (f : HostPort → HostPort) : Keeps s0
    (State.modHp s port f) := by
  unfold State.modHp
  repeat' first
    | with_reducible assumption
    | dsimp only
    | split
    | with_reducible refine Keeps.mk' ?_ rfl rfl rfl rfl rfl rfl rfl

/-- `State.tick` keeps it. -/
theorem Keeps.tick {s0 s : State} (hs : Keeps s0 s) : Keeps s0 (State.tick s) := by
  unfold State.tick
  repeat' first
    | with_reducible assumption
    | with_reducible refine Keeps.mk' ?_ rfl rfl rfl rfl rfl rfl rfl

/-- `State.setReg` keeps it. -/
theorem Keeps.setReg {s0 s : State} (hs : Keeps s0 s) (n : RegName) (i : Nat) (v : Reg) : Keeps s0 (State.setReg s n i v) := by
  unfold State.setReg
  repeat' first
    | with_reducible assumption
    | with_reducible refine Keeps.mk' ?_ rfl rfl rfl rfl rfl rfl rfl

/-- `State.count` keeps it. -/
theorem Keeps.count {s0 s : State} (hs : Keeps s0 s) (n : RegName) (i : Nat) (k : Nat) : Keeps s0 (State.count s n i k) := by
  unfold State.count
  repeat' first
    | with_reducible assumption
    | with_reducible apply Keeps.setReg

/-- `State.bump` keeps it. -/
theorem Keeps.bump {s0 s : State} (hs : Keeps s0 s) (n : RegName) (i : Nat) : Keeps s0 (State.bump s n i) := by
  unfold State.bump
  repeat' first
    | with_reducible assumption
    | with_reducible apply Keeps.count

/-- A new record takes the next number. -/
theorem EventsOrdered.push {e : EvRecorder} (h : EventsOrdered e) (r : EvRec) (hr : r.number = e.next) (full : Bool) :
    EventsOrdered { e with
      next := e.next + 1
      ring := (r :: e.ring).take 2048
      durableRun := if (e.next - 1) % 4096 = 0 then max e.durableRun ((e.next - 1) / 4096 + 1) else e.durableRun
      circ := if (e.next - 1) % 4096 = 0 then (e.queued ++ e.circ).take 262144 else e.circ
      queued := (if full then [] else [r]) ++ (if (e.next - 1) % 4096 = 0 then [] else e.queued) } := by
  obtain ⟨h1, h2, h3, h4, h5, h6, h7⟩ := h
  have hq : ∀ x ∈ e.queued ++ e.circ, x.number < e.next := fun x hx => h3 x (by simp only [List.mem_append] at hx ⊢; grind)
  refine ⟨by simp, ?_, ?_, ?_, ?_, ?_, ?_⟩
  · dsimp only
    split <;> omega
  · intro x hx
    have : x = r ∨ x ∈ e.ring ∨ x ∈ e.queued ++ e.circ := by
      simp only [List.mem_append] at hx ⊢
      rcases hx with (hx | hx | hx) | hx
      · rcases List.mem_cons.1 (List.mem_of_mem_take hx) with hx | hx <;> simp [hx]
      · cases full <;> simp at hx <;> simp [hx]
      · split at hx
        · simp at hx
        · simp [hx]
      · split at hx
        · have := List.mem_of_mem_take hx
          simp only [List.mem_append] at this
          exact .inr (.inr this)
        · simp [hx]
    rcases this with rfl | hx | hx
    · dsimp only; omega
    · have := h3 x (by simp [hx]); dsimp only; omega
    · have := hq x hx; dsimp only; omega
  · refine List.Pairwise.sublist (List.take_sublist _ _) (List.pairwise_cons.2 ⟨?_, h4⟩)
    intro x hx
    have := h3 x (by simp [hx])
    omega
  · have base : (r :: (e.queued ++ e.circ)).Pairwise (fun a b => b.number < a.number) := by
      refine List.pairwise_cons.2 ⟨?_, h5⟩
      intro x hx
      have := hq x hx
      omega
    refine base.sublist ?_
    dsimp only
    by_cases hz : (e.next - 1) % 4096 = 0
    · rw [if_pos hz, if_pos hz, List.append_nil]
      cases full
      · exact List.Sublist.cons_cons _ (List.take_sublist _ _)
      · exact List.Sublist.cons _ (List.take_sublist _ _)
    · rw [if_neg hz, if_neg hz]
      cases full
      · exact List.Sublist.refl _
      · exact List.Sublist.cons _ (List.Sublist.refl _)
  · simp only [List.length_take]
    exact Nat.min_le_left _ _
  · dsimp only
    split
    · simp only [List.length_take]
      exact Nat.min_le_left _ _
    · exact h7

/-- `State.pushRecord` keeps it. -/
theorem Keeps.pushRecord {s0 s : State} (h : Keeps s0 s) (code source : Nat) (data : List Byte) :
    Keeps s0 (s.pushRecord code source data) := by
  unfold State.pushRecord
  refine Keeps.bump (Keeps.tick ?_) _ _
  refine h.evr rfl rfl rfl rfl rfl rfl ?_
  intro e
  have := EventsOrdered.push e ⟨s.evr.next, code, source % 65536, severityOf code, (padTo data 8).take 8, s.boot.powerCycle,
    (s.boot.poweredOnS + s.free.toNat) % 2 ^ 40⟩ rfl (decide (s.modes.mode = .powerFail))
  simp only [decide_eq_true_eq] at this
  exact this

/-- `State.record` keeps it. -/
theorem Keeps.record {s0 s : State} (h : Keeps s0 s) (code source : Nat) (data : List Byte) :
    Keeps s0 (s.record code source data) := by
  unfold State.record
  refine Keeps.ite (fun _ => h.pushRecord _ _ _) (fun _ => ?_)
  split
  · exact (h.pushRecord code source data).evr rfl rfl rfl rfl rfl rfl id
  · refine Keeps.ite (fun _ => Keeps.pushRecord ?_ _ _ _) (fun _ => Keeps.bump ?_ _ _)
    · exact h.evr rfl rfl rfl rfl rfl rfl id
    · exact h.evr rfl rfl rfl rfl rfl rfl id

/-- `State.msix` keeps it. -/
theorem Keeps.msix {s0 s : State} (hs : Keeps s0 s) (port : Port) (fn : Nat) (v : Nat) : Keeps s0 (State.msix s port fn v) := by
  unfold State.msix
  repeat' first
    | with_reducible assumption
    | with_reducible apply Keeps.emit
    | with_reducible apply Keeps.modFp
    | with_reducible apply Keeps.emit
    | dsimp only
    | split
    | with_reducible refine Keeps.mk' ?_ rfl rfl rfl rfl rfl rfl rfl

/-- `State.translate` keeps it. -/
theorem Keeps.translate {s0 s : State} (hs : Keeps s0 s) (port : Port) (fn : Nat) (addr : Nat) (len : Nat) : Keeps s0
    (State.translate s port fn addr len) := by
  unfold State.translate
  split
  · refine Keeps.foldl (fun _ _ h => ?_) hs
    dsimp only
    split <;> exact Keeps.emit h _
  · exact hs

/-- `State.readHost` keeps it. -/
theorem Keeps.readHost {s0 s : State} (hs : Keeps s0 s) (port : Port) (fn : Nat) (who : ReadOwner) (addr : Nat) (len : Nat)
    : Keeps s0 (State.readHost s port fn who addr len) := by
  unfold State.readHost
  repeat' first
    | with_reducible assumption
    | with_reducible apply Keeps.emit
    | with_reducible apply Keeps.translate
    | with_reducible apply Keeps.emit

/-- `State.sendRaw` keeps it. -/
theorem Keeps.sendRaw {s0 s : State} (hs : Keeps s0 s) (h : Held) : Keeps s0 (State.sendRaw s h) := by
  unfold State.sendRaw
  repeat' first
    | with_reducible assumption
    | with_reducible apply Keeps.emit
    | with_reducible apply Keeps.msix
    | with_reducible apply Keeps.translate
    | with_reducible apply Keeps.emit
    | dsimp only
    | split
    | with_reducible refine Keeps.mk' ?_ rfl rfl rfl rfl rfl rfl rfl

/-- `State.holdOr` keeps it, if what it sends does. -/
theorem Keeps.holdOr {s0 s : State} (hs : Keeps s0 s) (h : Held) {send : State → State}
    (hf : ∀ s, Keeps s0 s → Keeps s0 (send s)) : Keeps s0 (State.holdOr s h send) := by
  unfold State.holdOr
  refine Keeps.ite (fun _ => hf _ hs) fun _ => ?_
  exact Keeps.mk' hs rfl rfl rfl rfl rfl rfl rfl

/-- `State.modQp` keeps it. -/
theorem Keeps.modQp {s0 s : State} (hs : Keeps s0 s) (port : Port) (fn : Nat) (qid : Nat) (f : QueuePair → QueuePair) :
    Keeps s0 (State.modQp s port fn qid f) := by
  unfold State.modQp
  repeat' first
    | with_reducible assumption
    | dsimp only
    | with_reducible refine Keeps.mk' ?_ rfl rfl rfl rfl rfl rfl rfl

/-- `State.logError` keeps it. -/
theorem Keeps.logError {s0 s : State} (hs : Keeps s0 s) (c : Cmd) (st : Status) (check : Nat) (field : Nat) (r1 : Nat) :
    Keeps s0 (State.logError s c st check field r1) := by
  unfold State.logError
  repeat' first
    | with_reducible assumption
    | with_reducible apply Keeps.modTenant
    | with_reducible apply Keeps.tick
    | dsimp only
    | with_reducible refine Keeps.mk' ?_ rfl rfl rfl rfl rfl rfl rfl

/-- `State.replyBy` keeps it, if what it sends does. -/
theorem Keeps.replyBy {s0 s : State} (hs : Keeps s0 s) {send : State → Held → State} (c : Cmd) (st : Status) (r0 r1 r2 : Nat)
    (hf : ∀ s h, Keeps s0 s → Keeps s0 (send s h)) : Keeps s0 (State.replyBy s send c st r0 r1 r2) := by
  unfold State.replyBy
  split
  · exact hs
  · exact hf _ _ (hs.modQp _ _ _ _)

/-- `State.eventBy` keeps it, if what it sends does. -/
theorem Keeps.eventBy {s0 s : State} (hs : Keeps s0 s) {send : State → Held → State} (port : Port) (fn code r1 : Nat)
    (hf : ∀ s h, Keeps s0 s → Keeps s0 (send s h)) : Keeps s0 (State.eventBy s send port fn code r1) := by
  unfold State.eventBy
  split
  · exact Keeps.replyBy (Keeps.modFp (Keeps.mkFilter hs rfl rfl rfl rfl rfl rfl rfl) _ _ _) _ _ _ _ _ hf
  · exact hs.modFp _ _ _

/-- `State.dlogEntry` keeps it. -/
theorem Keeps.dlogEntry {s0 s : State} (hs : Keeps s0 s) (n : Nat) (port : Port) (page : Nat) :
    Keeps s0 (State.dlogEntry s n port page) := by
  unfold State.dlogEntry
  refine Keeps.ite (fun _ => ?_) fun _ => ?_
  · exact Keeps.eventBy ((hs.modTenant _ _).record _ _ _) _ _ _ _ fun _ _ h => h.holdOr _ fun _ h => h.sendRaw _
  · exact Keeps.holdOr (hs.modTenant _ _) _ fun _ h => h.sendRaw _

/-- `State.dlogWrite` keeps it. -/
theorem Keeps.dlogWrite {s0 s : State} (hs : Keeps s0 s) (fn : Nat) (port : Port) (addr : Nat) (len : Nat) : Keeps s0
    (State.dlogWrite s fn port addr len) := by
  unfold State.dlogWrite
  repeat' first
    | with_reducible assumption
    | with_reducible apply Keeps.dlogEntry
    | (with_reducible refine Keeps.ite (fun _ => ?_) (fun _ => ?_))
    | (with_reducible refine Keeps.foldl (fun _ _ _ => ?_) ?_)
    | dsimp only
    | split

/-- `State.sendHeld` keeps it. -/
theorem Keeps.sendHeld {s0 s : State} (hs : Keeps s0 s) (h : Held) : Keeps s0 (State.sendHeld s h) := by
  unfold State.sendHeld
  repeat' first
    | with_reducible assumption
    | with_reducible apply Keeps.dlogWrite
    | with_reducible apply Keeps.sendRaw
    | dsimp only
    | split
    | with_reducible refine Keeps.mk' ?_ rfl rfl rfl rfl rfl rfl rfl

/-- `State.sendOrHold` keeps it. -/
theorem Keeps.sendOrHold {s0 s : State} (hs : Keeps s0 s) (h : Held) : Keeps s0 (State.sendOrHold s h) :=
  hs.holdOr h fun _ k => k.sendHeld _

/-- `State.reply` keeps it. -/
theorem Keeps.reply {s0 s : State} (hs : Keeps s0 s) (c : Cmd) (st : Status) (r0 r1 r2 : Nat) :
    Keeps s0 (State.reply s c st r0 r1 r2) :=
  hs.replyBy c st r0 r1 r2 fun _ _ k => k.sendOrHold _

/-- `State.asyncEvent` keeps it. -/
theorem Keeps.asyncEvent {s0 s : State} (hs : Keeps s0 s) (port : Port) (fn code r1 : Nat) :
    Keeps s0 (State.asyncEvent s port fn code r1) :=
  hs.eventBy port fn code r1 fun _ _ k => k.sendOrHold _

/-- `State.hostWrite` keeps it. -/
theorem Keeps.hostWrite {s0 s : State} (hs : Keeps s0 s) (port : Port) (fn : Nat) (addr : Nat) (b : List Byte) : Keeps s0
    (State.hostWrite s port fn addr b) := by
  unfold State.hostWrite
  repeat' first
    | with_reducible assumption
    | with_reducible apply Keeps.sendOrHold
    | (with_reducible refine Keeps.ite (fun _ => ?_) (fun _ => ?_))
    | split

/-- `State.writeBuf` keeps it. -/
theorem Keeps.writeBuf {s0 s : State} (hs : Keeps s0 s) (c : Cmd) (off : Nat) (b : List Byte) : Keeps s0
    (State.writeBuf s c off b) := by
  unfold State.writeBuf
  repeat' first
    | with_reducible assumption
    | with_reducible apply Keeps.hostWrite
    | (with_reducible refine Keeps.getD (fun _ _ => ?_) ?_)
    | (with_reducible refine Keeps.ite (fun _ => ?_) (fun _ => ?_))
    | (with_reducible refine Keeps.foldl (fun _ _ _ => ?_) ?_)
    | dsimp only
    | split

/-- `State.release` keeps it. -/
theorem Keeps.release {s0 s : State} (hs : Keeps s0 s) (port : Port) (fn : Nat) : Keeps s0 (State.release s port fn) := by
  unfold State.release
  repeat' first
    | with_reducible assumption
    | with_reducible apply Keeps.sendHeld
    | (with_reducible refine Keeps.ite (fun _ => ?_) (fun _ => ?_))
    | (with_reducible refine Keeps.foldl (fun _ _ _ => ?_) ?_)
    | dsimp only
    | split
    | with_reducible refine Keeps.mk' ?_ rfl rfl rfl rfl rfl rfl rfl

/-- `State.releasePort` keeps it. -/
theorem Keeps.releasePort {s0 s : State} (hs : Keeps s0 s) (port : Port) : Keeps s0 (State.releasePort s port) := by
  unfold State.releasePort
  repeat' first
    | with_reducible assumption
    | with_reducible apply Keeps.sendHeld
    | (with_reducible refine Keeps.foldl (fun _ _ _ => ?_) ?_)
    | dsimp only
    | with_reducible refine Keeps.mk' ?_ rfl rfl rfl rfl rfl rfl rfl

/-- `State.countLate` keeps it. -/
theorem Keeps.countLate {s0 s : State} (hs : Keeps s0 s) (port : Port) (fn : Nat) : Keeps s0 (State.countLate s port fn) := by
  unfold State.countLate
  repeat' first
    | with_reducible assumption
    | with_reducible apply Keeps.modFp
    | (with_reducible refine Keeps.ite (fun _ => ?_) (fun _ => ?_))
    | dsimp only
    | split
    | with_reducible refine Keeps.mk' ?_ rfl rfl rfl rfl rfl rfl rfl

/-- `State.dropHeld` keeps it. -/
theorem Keeps.dropHeld {s0 s : State} (hs : Keeps s0 s) (port : Port) (fn : Nat) : Keeps s0 (State.dropHeld s port fn) := by
  unfold State.dropHeld
  repeat' first
    | with_reducible assumption
    | with_reducible apply Keeps.countLate
    | with_reducible apply Keeps.reply
    | (with_reducible refine Keeps.foldl (fun _ _ _ => ?_) ?_)
    | dsimp only
    | split
    | with_reducible refine Keeps.mk' ?_ rfl rfl rfl rfl rfl rfl rfl

/-! ## FlashOps -/

/-- `State.modFlash` keeps it. -/
theorem Keeps.modFlash {s0 s : State} (hs : Keeps s0 s) (f : Flash → Flash) : Keeps s0 (State.modFlash s f) := by
  unfold State.modFlash
  repeat' first
    | with_reducible assumption
    | with_reducible refine Keeps.mk' ?_ rfl rfl rfl rfl rfl rfl rfl

/-- `State.modCard` keeps it. -/
theorem Keeps.modCard {s0 s : State} (hs : Keeps s0 s) (n : Nat) (f : Card → Card) : Keeps s0 (State.modCard s n f) := by
  unfold State.modCard
  repeat' first
    | with_reducible assumption
    | with_reducible apply Keeps.modFlash
    | dsimp only
    | with_reducible refine Keeps.mk' ?_ rfl rfl rfl rfl rfl rfl rfl

/-- `State.writeRoots` keeps it. -/
theorem Keeps.writeRoots {s0 s : State} (hs : Keeps s0 s) : Keeps s0 (State.writeRoots s) := by
  unfold State.writeRoots
  repeat' first
    | with_reducible assumption
    | with_reducible apply Keeps.modFlash
    | (with_reducible refine Keeps.foldl (fun _ _ _ => ?_) ?_)
    | dsimp only
    | with_reducible refine Keeps.mk' ?_ rfl rfl rfl rfl rfl rfl rfl

/-- `State.formSet` keeps it. -/
theorem Keeps.formSet {s0 s : State} (hs : Keeps s0 s) (batch : Nat) (kind : RowKind) (prot : Bool) : KeepsO s0 Prod.snd
    (State.formSet s batch kind prot) := by
  unfold State.formSet
  repeat' first
    | with_reducible exact KeepsO.none
    | with_reducible refine KeepsO.some ?_
    | (with_reducible refine KeepsO.ite (fun _ => ?_) (fun _ => ?_))
    | (with_reducible refine KeepsO.map (fun _ _ => ?_))
    | with_reducible assumption
    | with_reducible apply Keeps.modFlash
    | with_reducible apply Keeps.writeRoots
    | (with_reducible refine Keeps.ite (fun _ => ?_) (fun _ => ?_))
    | dsimp only
    | split
    | with_reducible refine Keeps.mk' ?_ rfl rfl rfl rfl rfl rfl rfl

/-- `State.formSet`, by its answer. -/
theorem Keeps.formSet_of {s0 s : State} {batch : Nat} {kind : RowKind} {prot : Bool} {a0 : StripeSet} {t_ : State}
    (eq0 : State.formSet s batch kind prot = some (a0, t_)) (hs : Keeps s0 s) : Keeps s0 t_ :=
  Keeps.formSet hs batch kind prot _ eq0

/-- `State.formSet`, by its answer. -/
theorem Keeps.formSet_at {s0 s : State} {batch : Nat} {kind : RowKind} {prot : Bool} {r : StripeSet × State}
    (eq0 : State.formSet s batch kind prot = some r) (hs : Keeps s0 s) : Keeps s0 r.2 :=
  Keeps.formSet hs batch kind prot _ eq0

/-- `State.modSet` keeps it. -/
theorem Keeps.modSet {s0 s : State} (hs : Keeps s0 s) (no : Nat) (f : StripeSet → StripeSet) : Keeps s0
    (State.modSet s no f) := by
  unfold State.modSet
  repeat' first
    | with_reducible assumption
    | with_reducible apply Keeps.modFlash
    | dsimp only
    | with_reducible refine Keeps.mk' ?_ rfl rfl rfl rfl rfl rfl rfl

/-- `State.modRow` keeps it. -/
theorem Keeps.modRow {s0 s : State} (hs : Keeps s0 s) (id : Nat) (f : Row → Row) : Keeps s0 (State.modRow s id f) := by
  unfold State.modRow
  repeat' first
    | with_reducible assumption
    | with_reducible apply Keeps.modFlash
    | dsimp only
    | with_reducible refine Keeps.mk' ?_ rfl rfl rfl rfl rfl rfl rfl

/-- `State.syncOps` keeps it. -/
theorem Keeps.syncOps {s0 s : State} (hs : Keeps s0 s) : Keeps s0 (State.syncOps s) := by
  unfold State.syncOps
  repeat' first
    | with_reducible assumption
    | with_reducible apply Keeps.modFlash
    | dsimp only
    | with_reducible refine Keeps.mk' ?_ rfl rfl rfl rfl rfl rfl rfl

/-- `State.onfi` keeps it. -/
theorem Keeps.onfi {s0 s : State} (hs : Keeps s0 s) (die : Nat) (codes : List Nat) : Keeps s0 (State.onfi s die codes) := by
  unfold State.onfi
  repeat' first
    | with_reducible assumption
    | with_reducible apply Keeps.emit
    | with_reducible apply Keeps.emit

/-- `State.issueOp` keeps it. -/
theorem Keeps.issueOp {s0 s : State} (hs : Keeps s0 s) (o : FlashOp) : Keeps s0 (State.issueOp s o) := by
  unfold State.issueOp
  repeat' first
    | with_reducible assumption
    | with_reducible apply Keeps.modFlash
    | with_reducible apply Keeps.onfi
    | dsimp only
    | with_reducible refine Keeps.mk' ?_ rfl rfl rfl rfl rfl rfl rfl

/-- `State.serve` keeps it. -/
theorem Keeps.serve {s0 s : State} (hs : Keeps s0 s) : Keeps s0 (State.serve s) := by
  unfold State.serve
  repeat' first
    | with_reducible assumption
    | with_reducible apply Keeps.issueOp
    | with_reducible apply Keeps.syncOps
    | (with_reducible refine Keeps.foldl (fun _ _ _ => ?_) ?_)
    | dsimp only
    | split
    | with_reducible refine Keeps.mk' ?_ rfl rfl rfl rfl rfl rfl rfl

/-- `State.issueRow` keeps it. -/
theorem Keeps.issueRow {s0 s : State} (hs : Keeps s0 s) (id : Nat) : Keeps s0 (State.issueRow s id) := by
  unfold State.issueRow
  repeat' first
    | with_reducible assumption
    | with_reducible apply Keeps.bump
    | with_reducible apply Keeps.modFlash
    | with_reducible apply Keeps.modRow
    | with_reducible apply Keeps.serve
    | (with_reducible refine Keeps.ite (fun _ => ?_) (fun _ => ?_))
    | dsimp only
    | split
    | with_reducible refine Keeps.mk' ?_ rfl rfl rfl rfl rfl rfl rfl

/-- `State.openRow` keeps it. -/
theorem Keeps.openRow {s0 s : State} (h : Keeps s0 s) (batch : Nat) (kind : RowKind) (prot : Bool) :
    KeepsO s0 Prod.snd (s.openRow batch kind prot) := by
  unfold State.openRow
  dsimp only
  split
  · exact KeepsO.some h
  · split
    · refine KeepsO.some ?_
      dsimp only
      exact (h.modSet _ _).modFlash _
    · refine KeepsO.map fun p e => ?_
      dsimp only
      exact (((Keeps.formSet_at e h).modSet _ _).modFlash _).serve

/-- `State.openRow`, by its answer. -/
theorem Keeps.openRow_of {s0 s : State} {batch : Nat} {kind : RowKind} {prot : Bool} {a0 : Row} {t_ : State}
    (eq0 : State.openRow s batch kind prot = some (a0, t_)) (hs : Keeps s0 s) : Keeps s0 t_ :=
  Keeps.openRow hs batch kind prot _ eq0

/-- `State.openRow`, by its answer. -/
theorem Keeps.openRow_at {s0 s : State} {batch : Nat} {kind : RowKind} {prot : Bool} {r : Row × State}
    (eq0 : State.openRow s batch kind prot = some r) (hs : Keeps s0 s) : Keeps s0 r.2 :=
  Keeps.openRow hs batch kind prot _ eq0

/-- `State.placeGroup` keeps it. -/
theorem Keeps.placeGroup {s0 s : State} (h : Keeps s0 s) (batch : Nat) (kind : RowKind) (prot : Bool) (g : Group) :
    KeepsO s0 (fun t => t) (s.placeGroup batch kind prot g) := by
  unfold State.placeGroup
  dsimp only
  split
  · exact KeepsO.ite (fun _ => KeepsO.none) fun _ => KeepsO.some (h.modFlash _)
  · rename_i r s1 e
    have h1 : Keeps s0 s1 := Keeps.openRow_of e h
    split
    · exact KeepsO.ite (fun _ => KeepsO.none) fun _ => KeepsO.some ((h1.issueRow _).modFlash _)
    · rename_i p e2
      have h2 : Keeps s0 p.2 := by
        split at e2
        · cases e2
          exact h1
        · exact Keeps.openRow_at e2 (h1.issueRow _)
      exact KeepsO.some (Keeps.ite (fun _ => (h2.modRow _ _).issueRow _) fun _ => h2.modRow _ _)

/-- `State.placeGroup`, by its answer. -/
theorem Keeps.placeGroup_of {s0 s : State} {batch : Nat} {kind : RowKind} {prot : Bool} {g : Group} {t_ : State}
    (eq0 : State.placeGroup s batch kind prot g = some t_) (hs : Keeps s0 s) : Keeps s0 t_ :=
  Keeps.placeGroup hs batch kind prot g _ eq0

/-- `State.newGroup` keeps it. -/
theorem Keeps.newGroup {s0 s : State} (hs : Keeps s0 s) : Keeps s0 (State.newGroup s).2 := by
  unfold State.newGroup
  repeat' first
    | with_reducible assumption
    | with_reducible apply Keeps.modFlash
    | dsimp only
    | with_reducible refine Keeps.mk' ?_ rfl rfl rfl rfl rfl rfl rfl

/-- `State.newGroup`, by its answer. -/
theorem Keeps.newGroup_of {s0 s : State} {a0 : Nat} {t_ : State} (eq0 : State.newGroup s = (a0, t_)) (hs : Keeps s0 s) :
    Keeps s0 t_ := by
  have k := Keeps.newGroup hs
  rw [eq0] at k
  exact k

/-- `State.takeUsable` keeps it. -/
theorem Keeps.takeUsable {s0 s : State} (hs : Keeps s0 s) : Keeps s0 (State.takeUsable s) := by
  unfold State.takeUsable
  repeat' first
    | with_reducible assumption
    | with_reducible apply Keeps.modFlash
    | dsimp only
    | with_reducible refine Keeps.mk' ?_ rfl rfl rfl rfl rfl rfl rfl

/-- `State.clearWear` keeps it. -/
theorem Keeps.clearWear {s0 s : State} (hs : Keeps s0 s) : Keeps s0 (State.clearWear s) := by
  unfold State.clearWear
  repeat' first
    | with_reducible assumption
    | with_reducible apply Keeps.modFlash
    | (with_reducible refine Keeps.ite (fun _ => ?_) (fun _ => ?_))
    | dsimp only
    | split
    | with_reducible refine Keeps.mk' ?_ rfl rfl rfl rfl rfl rfl rfl

/-! ## Modes -/

/-- `State.modModes` keeps it. -/
theorem Keeps.modModes {s0 s : State} (hs : Keeps s0 s) (f : Modes → Modes) : Keeps s0 (State.modModes s f) := by
  unfold State.modModes
  repeat' first
    | with_reducible assumption
    | with_reducible refine Keeps.mk' ?_ rfl rfl rfl rfl rfl rfl rfl

/-- `State.applyEntry` keeps it. -/
theorem Keeps.applyEntry {s0 s : State} (hs : Keeps s0 s) (e : RegEntry) : Keeps s0 (State.applyEntry s e) := by
  unfold State.applyEntry
  repeat' first
    | with_reducible assumption
    | dsimp only
    | with_reducible refine Keeps.mk' ?_ rfl rfl rfl rfl rfl rfl rfl

/-- `State.withdraw` keeps it. -/
theorem Keeps.withdraw {s0 s : State} (hs : Keeps s0 s) : Keeps s0 (State.withdraw s) := by
  unfold State.withdraw
  repeat' first
    | with_reducible assumption
    | with_reducible apply Keeps.applyEntry
    | with_reducible apply Keeps.modModes
    | (with_reducible refine Keeps.foldl (fun _ _ _ => ?_) ?_)
    | dsimp only
    | with_reducible refine Keeps.mk' ?_ rfl rfl rfl rfl rfl rfl rfl

/-- `State.applyOverlay` keeps it. -/
theorem Keeps.applyOverlay {s0 s : State} (hs : Keeps s0 s) (m : Mode) : Keeps s0 (State.applyOverlay s m) := by
  unfold State.applyOverlay
  repeat' first
    | with_reducible assumption
    | with_reducible apply Keeps.applyEntry
    | with_reducible apply Keeps.modModes
    | (with_reducible refine Keeps.foldl (fun _ _ _ => ?_) ?_)
    | dsimp only
    | split
    | with_reducible refine Keeps.mk' ?_ rfl rfl rfl rfl rfl rfl rfl

/-- `State.showMode` keeps it. -/
theorem Keeps.showMode {s0 s : State} (hs : Keeps s0 s) (m : Mode) : Keeps s0 (State.showMode s m) := by
  unfold State.showMode
  repeat' first
    | with_reducible assumption
    | with_reducible apply Keeps.applyOverlay
    | with_reducible apply Keeps.modModes
    | with_reducible apply Keeps.withdraw
    | dsimp only
    | with_reducible refine Keeps.mk' ?_ rfl rfl rfl rfl rfl rfl rfl

/-- `State.modeEvent` keeps it. -/
theorem Keeps.modeEvent {s0 s : State} (hs : Keeps s0 s) (old : Mode) (new : Mode) : Keeps s0 (State.modeEvent s old new) := by
  unfold State.modeEvent
  repeat' first
    | with_reducible assumption
    | with_reducible apply Keeps.asyncEvent
    | dsimp only

/-- `State.changeMode` keeps it. -/
theorem Keeps.changeMode {s0 s : State} (hs : Keeps s0 s) (new : Mode) : Keeps s0 (State.changeMode s new) := by
  unfold State.changeMode
  repeat' first
    | with_reducible assumption
    | with_reducible apply Keeps.bump
    | with_reducible apply Keeps.modModes
    | with_reducible apply Keeps.modeEvent
    | with_reducible apply Keeps.record
    | with_reducible apply Keeps.showMode
    | (with_reducible refine Keeps.ite (fun _ => ?_) (fun _ => ?_))
    | dsimp only
    | split
    | with_reducible refine Keeps.mk' ?_ rfl rfl rfl rfl rfl rfl rfl

/-- `State.settle` keeps it. -/
theorem Keeps.settle {s0 s : State} (hs : Keeps s0 s) : Keeps s0 (State.settle s) := by
  unfold State.settle
  repeat' first
    | with_reducible assumption
    | with_reducible apply Keeps.changeMode
    | (with_reducible refine Keeps.ite (fun _ => ?_) (fun _ => ?_))
    | split

/-- `State.rejectSetting` keeps it. -/
theorem Keeps.rejectSetting {s0 s : State} (hs : Keeps s0 s) (port : Port) (off : Nat) (value : Nat) : Keeps s0
    (State.rejectSetting s port off value) := by
  unfold State.rejectSetting
  repeat' first
    | with_reducible assumption
    | with_reducible apply Keeps.record

/-- `State.setLatch` keeps it. -/
theorem Keeps.setLatch {s0 s : State} (hs : Keeps s0 s) (port : Port) (fn : Nat) (bar : Bar) (l : Latch) : Keeps s0
    (State.setLatch s port fn bar l) := by
  unfold State.setLatch
  repeat' first
    | with_reducible assumption
    | (with_reducible refine Keeps.ite (fun _ => ?_) (fun _ => ?_))
    | split
    | with_reducible refine Keeps.mk' ?_ rfl rfl rfl rfl rfl rfl rfl

/-- `State.regAccess` keeps it. -/
theorem Keeps.regAccess {s0 s : State} (hs : Keeps s0 s) (port : Port) (fn : Nat) (bar : Bar) (off : Nat) (width : Nat)
    (reason : Nat) : Keeps s0 (State.regAccess s port fn bar off width reason) := by
  unfold State.regAccess
  repeat' first
    | with_reducible assumption
    | with_reducible apply Keeps.record
    | (with_reducible refine Keeps.ite (fun _ => ?_) (fun _ => ?_))
    | split

/-- `State.otherAccess` keeps it. -/
theorem Keeps.otherAccess {s0 s : State} (hs : Keeps s0 s) (port : Port) (fn : Nat) (bar : Bar) : Keeps s0
    (State.otherAccess s port fn bar) := by
  unfold State.otherAccess
  repeat' first
    | with_reducible assumption
    | with_reducible apply Keeps.regAccess
    | with_reducible apply Keeps.setLatch
    | dsimp only
    | split
    | with_reducible refine Keeps.mk' ?_ rfl rfl rfl rfl rfl rfl rfl

/-- `State.mgmtAccess` keeps it. -/
theorem Keeps.mgmtAccess {s0 s : State} (hs : Keeps s0 s) (port : Port) : Keeps s0 (State.mgmtAccess s port) := by
  unfold State.mgmtAccess
  repeat' first
    | with_reducible assumption
    | with_reducible apply Keeps.otherAccess

/-! ## Commands -/

/-- `State.cacheRoom` keeps it. -/
theorem Keeps.cacheRoom {s0 s : State} (hs : Keeps s0 s) : KeepsO s0 (fun t => t) (State.cacheRoom s) := by
  unfold State.cacheRoom
  repeat' first
    | with_reducible exact KeepsO.none
    | with_reducible refine KeepsO.some ?_
    | (with_reducible refine KeepsO.ite (fun _ => ?_) (fun _ => ?_))
    | (with_reducible refine KeepsO.map (fun _ _ => ?_))
    | with_reducible assumption
    | with_reducible apply Keeps.tick
    | (with_reducible refine Keeps.ite (fun _ => ?_) (fun _ => ?_))
    | dsimp only
    | split
    | with_reducible refine Keeps.mk' ?_ rfl rfl rfl rfl rfl rfl rfl

/-- `State.cacheRoom`, by its answer. -/
theorem Keeps.cacheRoom_of {s0 s : State} {t_ : State} (eq0 : State.cacheRoom s = some t_) (hs : Keeps s0 s) : Keeps s0 t_ :=
  Keeps.cacheRoom hs  _ eq0

/-- `State.openCtx` keeps it. -/
theorem Keeps.openCtx {s0 s : State} (hs : Keeps s0 s) (n : Nat) (port : Port) (kind : CtxKind) : KeepsO s0 Prod.snd
    (State.openCtx s n port kind) := by
  unfold State.openCtx
  repeat' first
    | with_reducible exact KeepsO.none
    | with_reducible refine KeepsO.some ?_
    | (with_reducible refine KeepsO.ite (fun _ => ?_) (fun _ => ?_))
    | (with_reducible refine KeepsO.map (fun _ _ => ?_))
    | with_reducible assumption
    | with_reducible apply Keeps.cacheRoom
    | with_reducible apply Keeps.tick
    | (with_reducible refine Keeps.cacheRoom_of (by with_reducible assumption) ?_)
    | (with_reducible refine Keeps.getD (fun _ _ => ?_) ?_)
    | (with_reducible refine Keeps.ite (fun _ => ?_) (fun _ => ?_))
    | dsimp only
    | split
    | with_reducible refine Keeps.mk' ?_ rfl rfl rfl rfl rfl rfl rfl

/-- `State.openCtx`, by its answer. -/
theorem Keeps.openCtx_of {s0 s : State} {n : Nat} {port : Port} {kind : CtxKind} {a0 : Nat} {t_ : State}
    (eq0 : State.openCtx s n port kind = some (a0, t_)) (hs : Keeps s0 s) : Keeps s0 t_ :=
  Keeps.openCtx hs n port kind _ eq0

/-- `State.openCtx`, by its answer. -/
theorem Keeps.openCtx_at {s0 s : State} {n : Nat} {port : Port} {kind : CtxKind} {r : Nat × State}
    (eq0 : State.openCtx s n port kind = some r) (hs : Keeps s0 s) : Keeps s0 r.2 :=
  Keeps.openCtx hs n port kind _ eq0

/-- `State.modCtx` keeps it. -/
theorem Keeps.modCtx {s0 s : State} (hs : Keeps s0 s) (h : Nat) (f : Ctx → Ctx) : Keeps s0 (State.modCtx s h f) := by
  unfold State.modCtx
  repeat' first
    | with_reducible assumption
    | dsimp only
    | with_reducible refine Keeps.mk' ?_ rfl rfl rfl rfl rfl rfl rfl

/-- `State.modStream` keeps it. -/
theorem Keeps.modStream {s0 s : State} (hs : Keeps s0 s) (h : Nat) (f : WriteStream → WriteStream) : Keeps s0
    (State.modStream s h f) := by
  unfold State.modStream
  repeat' first
    | with_reducible assumption
    | with_reducible apply Keeps.modCtx
    | dsimp only
    | split
    | with_reducible refine Keeps.mk' ?_ rfl rfl rfl rfl rfl rfl rfl

/-- `State.closeCtx` keeps it. -/
theorem Keeps.closeCtx {s0 s : State} (hs : Keeps s0 s) (h : Nat) : Keeps s0 (State.closeCtx s h) := by
  unfold State.closeCtx
  repeat' first
    | with_reducible assumption
    | dsimp only
    | split
    | with_reducible refine Keeps.mk' ?_ rfl rfl rfl rfl rfl rfl rfl

/-- `State.modCmd` keeps it, if the change keeps the tag. -/
theorem Keeps.modCmd {s0 s : State} (h : Keeps s0 s) (tag : Nat) (f : Cmd → Cmd) (hf : ∀ c, c.tag = tag → (f c).tag = tag) :
    Keeps s0 (s.modCmd tag f) := by
  unfold State.modCmd
  refine h.cmds rfl rfl rfl rfl ?_ rfl rfl
  have : (adjWhere s.cmds (fun c => c.tag == tag) f).map Cmd.tag = s.cmds.map Cmd.tag := by
    simp only [adjWhere, List.map_map]
    apply List.map_congr_left
    intro c _
    simp only [Function.comp]
    split
    · rename_i e
      rw [hf c (by simpa using e)]
      exact (by simpa using e : c.tag = tag).symm
    · rfl
  dsimp only
  rw [this]
  all_goals exact List.Sublist.refl _

/-- `State.readPayload` keeps it. -/
theorem Keeps.readPayload {s0 s : State} (hs : Keeps s0 s) (c : Cmd) : Keeps s0 (State.readPayload s c) := by
  unfold State.readPayload
  repeat' first
    | with_reducible assumption
    | with_reducible apply Keeps.readHost
    | (with_reducible refine Keeps.getD (fun _ _ => ?_) ?_)
    | (with_reducible refine Keeps.ite (fun _ => ?_) (fun _ => ?_))
    | (with_reducible refine Keeps.foldl (fun _ _ _ => ?_) ?_)
    | dsimp only
    | split

/-- `State.dropCmd` keeps it. -/
theorem Keeps.dropCmd {s0 s : State} (hs : Keeps s0 s) (tag : Nat) : Keeps s0 (State.dropCmd s tag) := by
  unfold State.dropCmd
  repeat' first
    | with_reducible assumption
    | dsimp only
    | split
    | with_reducible refine Keeps.mkFilter ?_ rfl rfl rfl rfl rfl rfl rfl
    | with_reducible refine Keeps.mk' ?_ rfl rfl rfl rfl rfl rfl rfl

/-- `State.finish` keeps it. -/
theorem Keeps.finish {s0 s : State} (hs : Keeps s0 s) (c : Cmd) (st : Status) (r0 : Nat) (r1 : Nat) (r2 : Nat)
    (check : Nat) (field : Nat) : Keeps s0 (State.finish s c st r0 r1 r2 check field) := by
  unfold State.finish
  repeat' first
    | with_reducible assumption
    | with_reducible apply Keeps.bump
    | with_reducible apply Keeps.countLate
    | with_reducible apply Keeps.dropCmd
    | with_reducible apply Keeps.logError
    | with_reducible apply Keeps.reply
    | (with_reducible refine Keeps.ite (fun _ => ?_) (fun _ => ?_))
    | dsimp only
    | split

/-- `State.switchMap` keeps it. -/
theorem Keeps.switchMap {s0 s : State} (hs : Keeps s0 s) (tenant : Nat) (ns : Nat) (placed : List (Nat × MapEntry)) : Keeps
    s0 (State.switchMap s tenant ns placed) := by
  unfold State.switchMap
  repeat' first
    | with_reducible assumption
    | with_reducible apply Keeps.modTenant
    | dsimp only
    | with_reducible refine Keeps.mk' ?_ rfl rfl rfl rfl rfl rfl rfl

/-- `State.pumpOne` keeps it. -/
theorem Keeps.pumpOne {s0 s : State} (hs : Keeps s0 s) (tag : Nat) : Keeps s0 (State.pumpOne s tag) := by
  unfold State.pumpOne
  repeat' first
    | with_reducible assumption
    | with_reducible apply Keeps.finish
    | with_reducible apply Keeps.modFlash
    | with_reducible apply Keeps.switchMap
    | (with_reducible refine Keeps.ite (fun _ => ?_) (fun _ => ?_))
    | dsimp only
    | split
    | with_reducible refine Keeps.mk' ?_ rfl rfl rfl rfl rfl rfl rfl

/-- `State.pump` keeps it. -/
theorem Keeps.pump {s0 s : State} (hs : Keeps s0 s) : Keeps s0 (State.pump s) := by
  unfold State.pump
  repeat' first
    | with_reducible assumption
    | with_reducible apply Keeps.pumpOne
    | (with_reducible refine Keeps.foldl (fun _ _ _ => ?_) ?_)

/-- `State.reapOne` keeps it. -/
theorem Keeps.reapOne {s0 s : State} (hs : Keeps s0 s) (q : QueuePair) : Keeps s0 (State.reapOne s q) := by
  unfold State.reapOne
  repeat' first
    | with_reducible assumption
    | with_reducible apply Keeps.finish
    | (with_reducible refine Keeps.ite (fun _ => ?_) (fun _ => ?_))
    | dsimp only
    | split
    | with_reducible refine Keeps.mkFilter ?_ rfl rfl rfl rfl rfl rfl rfl
    | with_reducible refine Keeps.mk' ?_ rfl rfl rfl rfl rfl rfl rfl

/-- `State.reap` keeps it. -/
theorem Keeps.reap {s0 s : State} (hs : Keeps s0 s) : Keeps s0 (State.reap s) := by
  unfold State.reap
  repeat' first
    | with_reducible assumption
    | with_reducible apply Keeps.reapOne
    | (with_reducible refine Keeps.foldl (fun _ _ _ => ?_) ?_)
    | dsimp only

/-- `State.complete` keeps it. -/
theorem Keeps.complete {s0 s : State} (hs : Keeps s0 s) (c : Cmd) (st : Status) (r0 : Nat) (r1 : Nat) (r2 : Nat) : Keeps s0
    (State.complete s c st r0 r1 r2) := by
  unfold State.complete
  repeat' first
    | with_reducible assumption
    | with_reducible apply Keeps.finish
    | with_reducible apply Keeps.pump
    | with_reducible apply Keeps.reap

/-- `State.fail` keeps it. -/
theorem Keeps.fail {s0 s : State} (hs : Keeps s0 s) (c : Cmd) (st : Status) : Keeps s0 (State.fail s c st) := by
  unfold State.fail
  repeat' first
    | with_reducible assumption
    | with_reducible apply Keeps.complete

/-- `State.failCheck` keeps it. -/
theorem Keeps.failCheck {s0 s : State} (hs : Keeps s0 s) (c : Cmd) (st : Status) (check : Nat) (field : Nat) : Keeps s0
    (State.failCheck s c st check field) := by
  unfold State.failCheck
  repeat' first
    | with_reducible assumption
    | with_reducible apply Keeps.finish
    | with_reducible apply Keeps.pump
    | with_reducible apply Keeps.reap

/-- `State.startCmd` keeps it. -/
theorem Keeps.startCmd {s0 s : State} (hs : Keeps s0 s) (tag : Nat) : Keeps s0 (State.startCmd s tag) := by
  unfold State.startCmd
  repeat' first
    | with_reducible assumption
    | with_reducible apply Keeps.fail
    | with_reducible apply Keeps.modCmd
    | with_reducible apply Keeps.readHost
    | with_reducible apply Keeps.readPayload
    | with_reducible exact fun _ h => h
    | with_reducible exact fun h => h
    | (with_reducible refine Keeps.ite (fun _ => ?_) (fun _ => ?_))
    | dsimp only
    | split
    | with_reducible refine Keeps.mk' ?_ rfl rfl rfl rfl rfl rfl rfl

/-- `State.launch` keeps it. -/
theorem Keeps.launch {s0 s : State} (hs : Keeps s0 s) (tag : Nat) (f : Cmd → Cmd)
    (hf : ∀ c, c.tag = tag → (f c).tag = tag) : Keeps s0 (State.launch s tag f) := by
  unfold State.launch
  repeat' first
    | with_reducible assumption
    | with_reducible apply Keeps.modCmd

/-- `State.deliver` keeps it. -/
theorem Keeps.deliver {s0 s : State} (hs : Keeps s0 s) (c : Cmd) (b : List Byte) (r0 : Nat) (r1 : Nat) (r2 : Nat) : Keeps
    s0 (State.deliver s c b r0 r1 r2) := by
  unfold State.deliver
  repeat' first
    | with_reducible assumption
    | with_reducible apply Keeps.complete
    | with_reducible apply Keeps.fail
    | with_reducible apply Keeps.writeBuf
    | (with_reducible refine Keeps.ite (fun _ => ?_) (fun _ => ?_))
    | split

/-- `State.needSpace` keeps it. -/
theorem Keeps.needSpace {s0 s : State} (hs : Keeps s0 s) (n : Nat) : Keeps s0 (State.needSpace s n).2 := by
  unfold State.needSpace
  repeat' first
    | with_reducible assumption
    | with_reducible apply Keeps.modFlash
    | with_reducible apply Keeps.settle
    | dsimp only
    | split
    | with_reducible refine Keeps.mk' ?_ rfl rfl rfl rfl rfl rfl rfl

/-- `State.needSpace`, by its answer. -/
theorem Keeps.needSpace_of {s0 s : State} {n : Nat} {a0 : Option Status} {t_ : State}
    (eq0 : State.needSpace s n = (a0, t_)) (hs : Keeps s0 s) : Keeps s0 t_ := by
  have k := Keeps.needSpace hs n
  rw [eq0] at k
  exact k

/-- `State.takeSeq` keeps it. -/
theorem Keeps.takeSeq {s0 s : State} (hs : Keeps s0 s) : Keeps s0 (State.takeSeq s).2 := by
  unfold State.takeSeq
  repeat' first
    | with_reducible assumption
    | with_reducible apply Keeps.modFlash
    | dsimp only
    | with_reducible refine Keeps.mk' ?_ rfl rfl rfl rfl rfl rfl rfl

/-- `State.takeSeq`, by its answer. -/
theorem Keeps.takeSeq_of {s0 s : State} {a0 : Nat} {t_ : State} (eq0 : State.takeSeq s = (a0, t_)) (hs : Keeps s0 s) :
    Keeps s0 t_ := by
  have k := Keeps.takeSeq hs
  rw [eq0] at k
  exact k

/-! ## MemOps -/

/-- `State.modMem` keeps it, if the change keeps the form of the memory. -/
theorem Keeps.modMem {s0 s : State} (h : Keeps s0 s) (f : PkgMem → PkgMem)
    (hf : s.mem.bytes.wf = true → (f s.mem).bytes.wf = true) : Keeps s0 (s.modMem f) :=
  h.bytes rfl rfl hf rfl rfl rfl rfl

/-- `State.modCtrl` keeps it. -/
theorem Keeps.modCtrl {s0 s : State} (hs : Keeps s0 s) (c : Nat) (f : MemCtrl → MemCtrl) : Keeps s0 (State.modCtrl s c f) := by
  unfold State.modCtrl
  repeat' first
    | with_reducible assumption
    | with_reducible apply Keeps.modMem
    | with_reducible exact fun h => h
    | with_reducible exact fun _ h => h
    | dsimp only
    | with_reducible refine Keeps.mk' ?_ rfl rfl rfl rfl rfl rfl rfl

/-- `State.moveArea` keeps it. -/
theorem Keeps.moveArea {s0 s : State} (hs : Keeps s0 s) (batch : Nat) (off : Nat) (len : Nat) : Keeps s0
    (State.moveArea s batch off len) := by
  unfold State.moveArea
  repeat' first
    | with_reducible assumption
    | with_reducible apply Keeps.modMem
    | with_reducible exact fun _ h => h
    | with_reducible exact fun h => h
    | (with_reducible refine Keeps.ite (fun _ => ?_) (fun _ => ?_))
    | dsimp only
    | split
    | with_reducible refine Keeps.mk' ?_ rfl rfl rfl rfl rfl rfl rfl

/-- `State.readBlock` keeps it. -/
theorem Keeps.readBlock {s0 s : State} (hs : Keeps s0 s) (stack : Nat) (sa : Nat) (consumed : Bool) : Keeps s0
    (State.readBlock s stack sa consumed).2.2 := by
  unfold State.readBlock
  repeat' first
    | with_reducible assumption
    | with_reducible apply Keeps.bump
    | with_reducible apply Keeps.modMem
    | with_reducible apply Keeps.record
    | with_reducible exact fun h => PkgMem.wf_store h _ _ _
    | with_reducible exact fun _ h => h
    | with_reducible exact fun h => h
    | (with_reducible refine Keeps.ite (fun _ => ?_) (fun _ => ?_))
    | dsimp only
    | split
    | with_reducible refine Keeps.mk' ?_ rfl rfl rfl rfl rfl rfl rfl

/-- `State.readBlock`, by its answer. -/
theorem Keeps.readBlock_of {s0 s : State} {stack : Nat} {sa : Nat} {consumed : Bool} {a0 : BitVec 256} {a1 : Bool}
    {t_ : State} (eq0 : State.readBlock s stack sa consumed = (a0, a1, t_)) (hs : Keeps s0 s) : Keeps s0 t_ := by
  have k := Keeps.readBlock hs stack sa consumed
  rw [eq0] at k
  exact k

/-- `State.retireMerge` keeps it. -/
theorem Keeps.retireMerge {s0 s : State} (hs : Keeps s0 s) (c : Nat) (e : MergeEntry) : Keeps s0 (State.retireMerge s c e) := by
  unfold State.retireMerge
  repeat' first
    | with_reducible assumption
    | with_reducible apply Keeps.bump
    | with_reducible apply Keeps.modCtrl
    | with_reducible apply Keeps.modMem
    | with_reducible apply Keeps.readBlock
    | (with_reducible refine Keeps.readBlock_of (by with_reducible assumption) ?_)
    | with_reducible exact fun h => PkgMem.wf_store h _ _ _
    | with_reducible exact fun _ h => h
    | with_reducible exact fun h => h
    | (with_reducible refine Keeps.ite (fun _ => ?_) (fun _ => ?_))
    | dsimp only
    | split
    | with_reducible refine Keeps.mk' ?_ rfl rfl rfl rfl rfl rfl rfl

/-- `State.flushMerge` keeps it. -/
theorem Keeps.flushMerge {s0 s : State} (hs : Keeps s0 s) (stack : Nat) (sa : Nat) : Keeps s0 (State.flushMerge s stack sa)
    := by
  unfold State.flushMerge
  repeat' first
    | with_reducible assumption
    | with_reducible apply Keeps.retireMerge
    | dsimp only
    | split
    | with_reducible refine Keeps.mk' ?_ rfl rfl rfl rfl rfl rfl rfl

/-- `State.drainMerge` keeps it. -/
theorem Keeps.drainMerge {s0 s : State} (hs : Keeps s0 s) (c : Nat) (limit : Nat) : Keeps s0 (State.drainMerge s c limit) := by
  unfold State.drainMerge
  repeat' first
    | with_reducible assumption
    | with_reducible apply Keeps.retireMerge
    | (with_reducible refine Keeps.ite (fun _ => ?_) (fun _ => ?_))
    | dsimp only
    | split
    | with_reducible refine Keeps.mk' ?_ rfl rfl rfl rfl rfl rfl rfl

/-- `State.writeLine` keeps it. -/
theorem Keeps.writeLine {s0 s : State} (hs : Keeps s0 s) (stack : Nat) (sa : Nat) (mask : BitVec 32) (d : BitVec 256) :
    Keeps s0 (State.writeLine s stack sa mask d) := by
  unfold State.writeLine
  repeat' first
    | with_reducible assumption
    | with_reducible apply Keeps.drainMerge
    | with_reducible apply Keeps.modCtrl
    | with_reducible apply Keeps.modMem
    | with_reducible apply Keeps.retireMerge
    | with_reducible exact fun h => PkgMem.wf_store h _ _ _
    | with_reducible exact fun _ h => h
    | with_reducible exact fun h => h
    | (with_reducible refine Keeps.ite (fun _ => ?_) (fun _ => ?_))
    | dsimp only
    | split
    | with_reducible refine Keeps.mk' ?_ rfl rfl rfl rfl rfl rfl rfl

/-- `State.writeBlock` keeps it. -/
theorem Keeps.writeBlock {s0 s : State} (hs : Keeps s0 s) (stack : Nat) (sa : Nat) (mask : BitVec 32) (d : BitVec 256) :
    Keeps s0 (State.writeBlock s stack sa mask d) := by
  unfold State.writeBlock
  repeat' first
    | with_reducible assumption
    | with_reducible apply Keeps.flushMerge
    | with_reducible apply Keeps.modMem
    | with_reducible apply Keeps.readBlock
    | with_reducible apply Keeps.writeLine
    | (with_reducible refine Keeps.readBlock_of (by with_reducible assumption) ?_)
    | with_reducible exact fun h => PkgMem.wf_store h _ _ _
    | with_reducible exact fun _ h => h
    | with_reducible exact fun h => h
    | (with_reducible refine Keeps.ite (fun _ => ?_) (fun _ => ?_))
    | dsimp only
    | split

/-- `State.memRead` keeps it. -/
theorem Keeps.memRead {s0 s : State} (h : Keeps s0 s) (addr len : Nat) (consumed : Bool := true) :
    Keeps s0 (s.memRead addr len consumed).st := by
  simp only [State.memRead]
  refine foldl_keeps (fun a : MemRead => Keeps s0 a.st) _ _ h ?_
  intro a b ha
  split
  · exact ha
  · exact (ha.flushMerge _ _).readBlock _ _ _

/-- `State.memWrite` keeps it. -/
theorem Keeps.memWrite {s0 s : State} (hs : Keeps s0 s) (addr : Nat) (b : List Byte) : Keeps s0 (State.memWrite s addr b) := by
  unfold State.memWrite
  repeat' first
    | with_reducible assumption
    | with_reducible apply Keeps.writeBlock
    | (with_reducible refine Keeps.getD (fun _ _ => ?_) ?_)
    | (with_reducible refine Keeps.ite (fun _ => ?_) (fun _ => ?_))
    | (with_reducible refine Keeps.foldl (fun _ _ _ => ?_) ?_)
    | dsimp only
    | split
    | with_reducible refine Keeps.mk' ?_ rfl rfl rfl rfl rfl rfl rfl

/-- `State.jobZero` keeps it. -/
theorem Keeps.jobZero {s0 s : State} (h : Keeps s0 s) (b off len : Nat) : Keeps s0 (s.jobZero b off len) := by
  unfold State.jobZero
  exact h.modMem _ fun i => Memory.wfFrom_filter (m := s.mem.bytes) i _

/-! ## RollerRing -/

/-- `State.modRoller` keeps it. -/
theorem Keeps.modRoller {s0 s : State} (hs : Keeps s0 s) (p : Nat) (f : RollerPair → RollerPair) : Keeps s0
    (State.modRoller s p f) := by
  unfold State.modRoller
  repeat' first
    | with_reducible assumption
    | with_reducible refine Keeps.mk' ?_ rfl rfl rfl rfl rfl rfl rfl

/-- `State.modRjob` keeps it. -/
theorem Keeps.modRjob {s0 s : State} (hs : Keeps s0 s) (slot : Nat) (f : RollerJob → RollerJob) : Keeps s0
    (State.modRjob s slot f) := by
  unfold State.modRjob
  repeat' first
    | with_reducible assumption
    | with_reducible apply Keeps.modRoller
    | dsimp only
    | with_reducible refine Keeps.mk' ?_ rfl rfl rfl rfl rfl rfl rfl

/-- `State.placeJob` keeps it. -/
theorem Keeps.placeJob {s0 s : State} (hs : Keeps s0 s) (w : Nat × RollerJob) : Keeps s0 (State.placeJob s w) := by
  unfold State.placeJob
  repeat' first
    | with_reducible assumption
    | with_reducible apply Keeps.modRoller
    | dsimp only
    | split
    | with_reducible refine Keeps.mk' ?_ rfl rfl rfl rfl rfl rfl rfl

/-- `State.drainRings` keeps it. -/
theorem Keeps.drainRings {s0 s : State} (hs : Keeps s0 s) : Keeps s0 (State.drainRings s) := by
  unfold State.drainRings
  repeat' first
    | with_reducible assumption
    | with_reducible apply Keeps.placeJob
    | (with_reducible refine Keeps.foldl (fun _ _ _ => ?_) ?_)
    | with_reducible refine Keeps.mk' ?_ rfl rfl rfl rfl rfl rfl rfl

/-- `State.submitRoller` keeps it. -/
theorem Keeps.submitRoller {s0 s : State} (hs : Keeps s0 s) (loaf : Nat) (o : RollerOwner) (kind : Nat) (target : Nat)
    (layout : Nat) (tenant : Nat) (blocks : Nat) (input : List (Nat × List Byte)) : Keeps s0
    (State.submitRoller s loaf o kind target layout tenant blocks input) := by
  unfold State.submitRoller
  repeat' first
    | with_reducible assumption
    | with_reducible apply Keeps.placeJob
    | dsimp only
    | with_reducible refine Keeps.mk' ?_ rfl rfl rfl rfl rfl rfl rfl

/-- `State.submitCoding` keeps it. -/
theorem Keeps.submitCoding {s0 s : State} (hs : Keeps s0 s) (batch : Nat) (o : RollerOwner) (target : Nat) (tenant : Nat)
    (blks : List (List Byte)) : Keeps s0 (State.submitCoding s batch o target tenant blks) := by
  unfold State.submitCoding
  repeat' first
    | with_reducible assumption
    | with_reducible apply Keeps.submitRoller
    | dsimp only

/-- `State.freeSlotOf` keeps it. -/
theorem Keeps.freeSlotOf {s0 s : State} (hs : Keeps s0 s) (slot : Nat) : Keeps s0 (State.freeSlotOf s slot) := by
  unfold State.freeSlotOf
  repeat' first
    | with_reducible assumption
    | with_reducible apply Keeps.drainRings
    | with_reducible apply Keeps.modRoller
    | dsimp only
    | with_reducible refine Keeps.mk' ?_ rfl rfl rfl rfl rfl rfl rfl

/-- `State.dropRollers` keeps it. -/
theorem Keeps.dropRollers {s0 s : State} (hs : Keeps s0 s) (o : RollerOwner) : Keeps s0 (State.dropRollers s o) := by
  unfold State.dropRollers
  repeat' first
    | with_reducible assumption
    | with_reducible apply Keeps.freeSlotOf
    | (with_reducible refine Keeps.foldl (fun _ _ _ => ?_) ?_)
    | dsimp only
    | with_reducible refine Keeps.mk' ?_ rfl rfl rfl rfl rfl rfl rfl

/-! ## Objects -/

/-- `State.pruneVersions` keeps it. -/
theorem Keeps.pruneVersions {s0 s : State} (hs : Keeps s0 s) : Keeps s0 (State.pruneVersions s) := by
  unfold State.pruneVersions
  repeat' first
    | with_reducible assumption
    | dsimp only
    | with_reducible refine Keeps.mk' ?_ rfl rfl rfl rfl rfl rfl rfl

end Sys2Proof.Machine
end

