-- ==== Sys2Proof/Laws/KeepsJobs.lean ====
section
/-! SUPPORT. What keeps the queue, what was sent and the invariant: the operations of jobs, digests, the Sieve, objects and the queues. -/
namespace Sys2Proof.Machine

open Claims

/-! ## JobOps -/

/-- `State.modCrumb` keeps it, if the change keeps the form of the local store. -/
theorem Keeps.modCrumb {s0 s : State} (h : Keeps s0 s) (c : Nat) (f : Crumb → Crumb)
    (hf : ∀ k : Crumb, k.store.wf = true → (f k).store.wf = true) : Keeps s0 (s.modCrumb c f) := by
  unfold State.modCrumb
  refine h.crumbs rfl rfl rfl ?_ rfl rfl rfl
  intro i
  exact AMap.forall_put (fun k : Crumb => k.store.wf = true) _ _ _ i
    (hf _ (AMap.lookD_of_forall (fun k : Crumb => k.store.wf = true) _ _ _ i rfl))

/-- `State.modCcore` keeps it. -/
theorem Keeps.modCcore {s0 s : State} (hs : Keeps s0 s) (c : Nat) (f : CtrlCore → CtrlCore) : Keeps s0
    (State.modCcore s c f) := by
  unfold State.modCcore
  repeat' first
    | with_reducible assumption
    | with_reducible refine Keeps.mk' ?_ rfl rfl rfl rfl rfl rfl rfl

/-- `State.modPrf` keeps it. -/
theorem Keeps.modPrf {s0 s : State} (hs : Keeps s0 s) (f : Proofer → Proofer) : Keeps s0 (State.modPrf s f) := by
  unfold State.modPrf
  repeat' first
    | with_reducible assumption
    | with_reducible refine Keeps.mk' ?_ rfl rfl rfl rfl rfl rfl rfl

/-- `State.modLoaf` keeps it. -/
theorem Keeps.modLoaf {s0 s : State} (hs : Keeps s0 s) (n : Nat) (f : Loaf → Loaf) : Keeps s0 (State.modLoaf s n f) := by
  unfold State.modLoaf
  repeat' first
    | with_reducible assumption
    | with_reducible apply Keeps.modPrf
    | dsimp only
    | with_reducible refine Keeps.mk' ?_ rfl rfl rfl rfl rfl rfl rfl

/-- `State.modJob` keeps it. -/
theorem Keeps.modJob {s0 s : State} (hs : Keeps s0 s) (slot : Nat) (f : Job → Job) : Keeps s0 (State.modJob s slot f) := by
  unfold State.modJob
  repeat' first
    | with_reducible assumption
    | dsimp only
    | with_reducible refine Keeps.mk' ?_ rfl rfl rfl rfl rfl rfl rfl

/-- `State.wake` keeps it. -/
theorem Keeps.wake {s0 s : State} (hs : Keeps s0 s) (p : Nat → Bool) : Keeps s0 (State.wake s p) := by
  unfold State.wake
  repeat' first
    | with_reducible assumption
    | (with_reducible refine Keeps.ite (fun _ => ?_) (fun _ => ?_))
    | dsimp only
    | split
    | with_reducible refine Keeps.mkCrumbs ?_ rfl rfl rfl rfl rfl rfl rfl ?_
    | with_reducible exact fun _ _ h => h
    | (with_reducible intro _ _ h; split <;> exact h)
    | with_reducible refine Keeps.mk' ?_ rfl rfl rfl rfl rfl rfl rfl

/-- `State.pushAt` keeps it. -/
theorem Keeps.pushAt {s0 s : State} (hs : Keeps s0 s) (c : Nat) (e : Entry) : Keeps s0 (State.pushAt s c e) := by
  unfold State.pushAt
  repeat' first
    | with_reducible assumption
    | with_reducible apply Keeps.modCrumb
    | with_reducible apply Keeps.wake
    | with_reducible exact fun _ h => h
    | with_reducible exact fun h => h
    | dsimp only
    | with_reducible refine Keeps.mk' ?_ rfl rfl rfl rfl rfl rfl rfl

/-- `State.placeEntry` keeps it. -/
theorem Keeps.placeEntry {s0 s : State} (hs : Keeps s0 s) (loaf : Nat) (e : Entry) (not : Option Nat) : Keeps s0
    (State.placeEntry s loaf e not) := by
  unfold State.placeEntry
  repeat' first
    | with_reducible assumption
    | with_reducible apply Keeps.pushAt
    | (with_reducible refine Keeps.getD (fun _ _ => ?_) ?_)
    | dsimp only
    | split
    | with_reducible refine Keeps.mk' ?_ rfl rfl rfl rfl rfl rfl rfl

/-- `State.freeBuf` keeps it. -/
theorem Keeps.freeBuf {s0 s : State} (hs : Keeps s0 s) (id : Nat) : Keeps s0 (State.freeBuf s id) := by
  unfold State.freeBuf
  repeat' first
    | with_reducible assumption
    | with_reducible apply Keeps.dropRollers
    | dsimp only
    | split
    | with_reducible refine Keeps.mk' ?_ rfl rfl rfl rfl rfl rfl rfl

/-- `State.dropCoreDigests` keeps it. -/
theorem Keeps.dropCoreDigests {s0 s : State} (hs : Keeps s0 s) (k : CoreSel) : Keeps s0 (State.dropCoreDigests s k) := by
  unfold State.dropCoreDigests
  repeat' first
    | with_reducible assumption
    | dsimp only
    | split
    | with_reducible refine Keeps.mk' ?_ rfl rfl rfl rfl rfl rfl rfl

/-- `State.stopCrumb` keeps it. -/
theorem Keeps.stopCrumb {s0 s : State} (hs : Keeps s0 s) (c : Nat) : Keeps s0 (State.stopCrumb s c) := by
  unfold State.stopCrumb
  repeat' first
    | with_reducible assumption
    | with_reducible apply Keeps.dropCoreDigests
    | with_reducible apply Keeps.modCrumb
    | with_reducible apply Keeps.record
    | with_reducible apply Keeps.settle
    | with_reducible exact fun _ h => h
    | with_reducible exact fun h => h
    | (with_reducible refine Keeps.ite (fun _ => ?_) (fun _ => ?_))
    | dsimp only
    | split
    | with_reducible refine Keeps.mk' ?_ rfl rfl rfl rfl rfl rfl rfl

/-- `State.endJob` keeps it. -/
theorem Keeps.endJob {s0 s : State} (hs : Keeps s0 s) (slot : Nat) (fin : Nat) (st : Status) (failSlice : Option Nat) (pc : Nat)
    (code : Nat) : Keeps s0 (State.endJob s slot fin st failSlice pc code) := by
  unfold State.endJob
  repeat' first
    | with_reducible assumption
    | with_reducible apply Keeps.modJob
    | with_reducible apply Keeps.dropRollers
    | with_reducible apply Keeps.freeBuf
    | with_reducible apply Keeps.stopCrumb
    | (with_reducible refine Keeps.ite (fun _ => ?_) (fun _ => ?_))
    | (with_reducible refine Keeps.foldl (fun _ _ _ => ?_) ?_)
    | dsimp only
    | split
    | with_reducible refine Keeps.mkCrumbs ?_ rfl rfl rfl rfl rfl rfl rfl (fun _ _ h => h)

/-- `State.advanceJob` keeps it. -/
theorem Keeps.advanceJob {s0 s : State} (hs : Keeps s0 s) (slot : Nat) : Keeps s0 (State.advanceJob s slot) := by
  unfold State.advanceJob
  repeat' first
    | with_reducible assumption
    | with_reducible apply Keeps.modJob
    | (with_reducible refine Keeps.ite (fun _ => ?_) (fun _ => ?_))
    | dsimp only
    | split
    | with_reducible refine Keeps.mk' ?_ rfl rfl rfl rfl rfl rfl rfl

/-- `State.takeOutput` keeps it. -/
theorem Keeps.takeOutput {s0 s : State} (hs : Keeps s0 s) (j : Job) (e : Entry) (out : List Byte) : Keeps s0
    (State.takeOutput s j e out) := by
  unfold State.takeOutput
  repeat' first
    | with_reducible assumption
    | with_reducible apply Keeps.endJob
    | with_reducible apply Keeps.hostWrite
    | with_reducible apply Keeps.modJob
    | (with_reducible refine Keeps.ite (fun _ => ?_) (fun _ => ?_))
    | dsimp only
    | split
    | with_reducible refine Keeps.mk' ?_ rfl rfl rfl rfl rfl rfl rfl

/-- `State.dropCaches` keeps it. -/
theorem Keeps.dropCaches {s0 s : State} (hs : Keeps s0 s) (slot : Nat) : Keeps s0 (State.dropCaches s slot) := by
  unfold State.dropCaches
  repeat' first
    | with_reducible assumption
    | with_reducible apply Keeps.modPrf
    | dsimp only
    | with_reducible refine Keeps.mk' ?_ rfl rfl rfl rfl rfl rfl rfl

/-- `State.removeJob` keeps it. -/
theorem Keeps.removeJob {s0 s : State} (h : Keeps s0 s) (slot : Nat) : Keeps s0 (s.removeJob slot) := by
  unfold State.removeJob
  refine Keeps.mkCrumbs h rfl rfl rfl rfl rfl rfl rfl ?_
  intro c k i
  split
  · exact i
  · exact i

/-- `State.finishJob` keeps it. -/
theorem Keeps.finishJob {s0 s : State} (hs : Keeps s0 s) (slot : Nat) : Keeps s0 (State.finishJob s slot) := by
  unfold State.finishJob
  repeat' first
    | with_reducible assumption
    | with_reducible apply Keeps.finish
    | with_reducible apply Keeps.hostWrite
    | with_reducible apply Keeps.pruneVersions
    | with_reducible apply Keeps.pump
    | with_reducible apply Keeps.reap
    | with_reducible apply Keeps.removeJob
    | with_reducible apply Keeps.tick
    | (with_reducible refine Keeps.getD (fun _ _ => ?_) ?_)
    | (with_reducible refine Keeps.ite (fun _ => ?_) (fun _ => ?_))
    | (with_reducible refine Keeps.foldl (fun _ _ _ => ?_) ?_)
    | dsimp only
    | split
    | with_reducible refine Keeps.mk' ?_ rfl rfl rfl rfl rfl rfl rfl

/-- `State.killJob` keeps it. -/
theorem Keeps.killJob {s0 s : State} (hs : Keeps s0 s) (slot : Nat) : Keeps s0 (State.killJob s slot) := by
  unfold State.killJob
  repeat' first
    | with_reducible assumption
    | with_reducible apply Keeps.countLate
    | with_reducible apply Keeps.dropCmd
    | with_reducible apply Keeps.endJob
    | with_reducible apply Keeps.finish
    | with_reducible apply Keeps.pruneVersions
    | with_reducible apply Keeps.pump
    | with_reducible apply Keeps.reap
    | with_reducible apply Keeps.removeJob
    | (with_reducible refine Keeps.ite (fun _ => ?_) (fun _ => ?_))
    | (with_reducible refine Keeps.foldl (fun _ _ _ => ?_) ?_)
    | dsimp only
    | split
    | with_reducible refine Keeps.mk' ?_ rfl rfl rfl rfl rfl rfl rfl

/-- `State.readOut` keeps it. -/
theorem Keeps.readOut {s0 s : State} (h : Keeps s0 s) (c off len : Nat) : Keeps s0 (s.readOut c off len).st :=
  h.memRead _ _ _

/-- `State.mendSlice` keeps it. -/
theorem Keeps.mendSlice {s0 s : State} (hs : Keeps s0 s) (c : Nat) : Keeps s0 (State.mendSlice s c) := by
  unfold State.mendSlice
  repeat' first
    | with_reducible assumption
    | with_reducible apply Keeps.memWrite
    | with_reducible apply Keeps.moveArea
    | dsimp only
    | split
    | with_reducible refine Keeps.mk' ?_ rfl rfl rfl rfl rfl rfl rfl

/-- `State.pushAgain` keeps it. -/
theorem Keeps.pushAgain {s0 s : State} (h : Keeps s0 s) (c : Nat) : Keeps s0 (s.pushAgain c) := by
  unfold State.pushAgain
  split
  · exact h
  · exact Keeps.ite (fun _ => h.stopCrumb _) fun _ => (h.stopCrumb _).placeEntry _ _ _

/-- `State.sliceReturn` keeps it. -/
theorem Keeps.sliceReturn {s0 s : State} (hs : Keeps s0 s) (c : Nat) : Keeps s0 (State.sliceReturn s c) := by
  unfold State.sliceReturn
  repeat' first
    | with_reducible assumption
    | with_reducible apply Keeps.advanceJob
    | with_reducible apply Keeps.endJob
    | with_reducible apply Keeps.freeBuf
    | with_reducible apply Keeps.modJob
    | with_reducible apply Keeps.pushAgain
    | with_reducible apply Keeps.readOut
    | with_reducible apply Keeps.stopCrumb
    | with_reducible apply Keeps.takeOutput
    | with_reducible apply Keeps.tick
    | (with_reducible refine Keeps.ite (fun _ => ?_) (fun _ => ?_))
    | dsimp only
    | split
    | with_reducible refine Keeps.mk' ?_ rfl rfl rfl rfl rfl rfl rfl

/-- `State.budgetStop` keeps it. -/
theorem Keeps.budgetStop {s0 s : State} (hs : Keeps s0 s) (c : Nat) : Keeps s0 (State.budgetStop s c) := by
  unfold State.budgetStop
  repeat' first
    | with_reducible assumption
    | with_reducible apply Keeps.advanceJob
    | with_reducible apply Keeps.bump
    | with_reducible apply Keeps.endJob
    | with_reducible apply Keeps.freeBuf
    | with_reducible apply Keeps.modJob
    | with_reducible apply Keeps.stopCrumb
    | (with_reducible refine Keeps.ite (fun _ => ?_) (fun _ => ?_))
    | dsimp only
    | split
    | with_reducible refine Keeps.mk' ?_ rfl rfl rfl rfl rfl rfl rfl

/-- `State.endLibrary` keeps it. -/
theorem Keeps.endLibrary {s0 s : State} (hs : Keeps s0 s) (c : Nat) (out : List Byte) (part : List Byte) : Keeps s0
    (State.endLibrary s c out part) := by
  unfold State.endLibrary
  repeat' first
    | with_reducible assumption
    | with_reducible apply Keeps.budgetStop
    | with_reducible apply Keeps.memWrite
    | with_reducible apply Keeps.modCrumb
    | with_reducible apply Keeps.sliceReturn
    | with_reducible apply Keeps.stopCrumb
    | with_reducible apply Keeps.tick
    | with_reducible exact fun _ h => h
    | with_reducible exact fun h => h
    | (with_reducible refine Keeps.ite (fun _ => ?_) (fun _ => ?_))
    | dsimp only
    | split
    | with_reducible refine Keeps.mk' ?_ rfl rfl rfl rfl rfl rfl rfl

/-- `State.fetchJob` keeps it. -/
theorem Keeps.fetchJob {s0 s : State} (hs : Keeps s0 s) (c : Nat) (j : Job) : Keeps s0 (State.fetchJob s c j) := by
  unfold State.fetchJob
  repeat' first
    | with_reducible assumption
    | with_reducible apply Keeps.modCrumb
    | with_reducible apply Keeps.modLoaf
    | with_reducible exact fun _ h => h
    | with_reducible exact fun h => h
    | dsimp only
    | with_reducible refine Keeps.mk' ?_ rfl rfl rfl rfl rfl rfl rfl

/-- `State.loadProgram` keeps it. -/
theorem Keeps.loadProgram {s0 s : State} (hs : Keeps s0 s) (c : Nat) (j : Job) : Keeps s0 (State.loadProgram s c j) := by
  unfold State.loadProgram
  repeat' first
    | with_reducible assumption
    | with_reducible apply Keeps.fetchJob
    | with_reducible apply Keeps.jobZero
    | with_reducible apply Keeps.modCrumb
    | with_reducible exact fun _ _ => Memory.wf_write rfl _ _
    | with_reducible exact fun _ h => h
    | with_reducible exact fun h => h
    | (with_reducible refine Keeps.ite (fun _ => ?_) (fun _ => ?_))
    | dsimp only
    | split
    | with_reducible refine Keeps.mk' ?_ rfl rfl rfl rfl rfl rfl rfl

/-- `State.startReduce` keeps it. -/
theorem Keeps.startReduce {s0 s : State} (hs : Keeps s0 s) (c : Nat) (j : Job) : Keeps s0 (State.startReduce s c j) := by
  unfold State.startReduce
  repeat' first
    | with_reducible assumption
    | with_reducible apply Keeps.loadProgram
    | with_reducible apply Keeps.memWrite
    | with_reducible apply Keeps.modCrumb
    | with_reducible exact fun _ h => h
    | with_reducible exact fun h => h
    | (with_reducible refine Keeps.getD (fun _ _ => ?_) ?_)
    | dsimp only
    | with_reducible refine Keeps.mk' ?_ rfl rfl rfl rfl rfl rfl rfl

/-- `State.startSlice` keeps it. -/
theorem Keeps.startSlice {s0 s : State} (hs : Keeps s0 s) (c : Nat) : Keeps s0 (State.startSlice s c) := by
  unfold State.startSlice
  repeat' first
    | with_reducible assumption
    | with_reducible apply Keeps.loadProgram
    | with_reducible apply Keeps.modCrumb
    | with_reducible apply Keeps.moveArea
    | with_reducible apply Keeps.stopCrumb
    | with_reducible exact fun _ h => h
    | with_reducible exact fun h => h
    | dsimp only
    | split
    | with_reducible refine Keeps.mk' ?_ rfl rfl rfl rfl rfl rfl rfl

/-! ## DigestOps -/

/-- `State.modDigests` keeps it. -/
theorem Keeps.modDigests {s0 s : State} (hs : Keeps s0 s) (f : Digests → Digests) : Keeps s0 (State.modDigests s f) := by
  unfold State.modDigests
  repeat' first
    | with_reducible assumption
    | with_reducible refine Keeps.mk' ?_ rfl rfl rfl rfl rfl rfl rfl

/-- `State.modEngine` keeps it. -/
theorem Keeps.modEngine {s0 s : State} (hs : Keeps s0 s) (e : Nat) (f : DigestEngine → DigestEngine) : Keeps s0
    (State.modEngine s e f) := by
  unfold State.modEngine
  repeat' first
    | with_reducible assumption
    | with_reducible apply Keeps.modDigests
    | dsimp only
    | with_reducible refine Keeps.mk' ?_ rfl rfl rfl rfl rfl rfl rfl

/-- `State.modMsg` keeps it. -/
theorem Keeps.modMsg {s0 s : State} (hs : Keeps s0 s) (id : Nat) (f : DigestMsg → DigestMsg) : Keeps s0
    (State.modMsg s id f) := by
  unfold State.modMsg
  repeat' first
    | with_reducible assumption
    | with_reducible apply Keeps.modDigests
    | dsimp only
    | with_reducible refine Keeps.mk' ?_ rfl rfl rfl rfl rfl rfl rfl

/-- `State.dropMsg` keeps it. -/
theorem Keeps.dropMsg {s0 s : State} (hs : Keeps s0 s) (id : Nat) : Keeps s0 (State.dropMsg s id) := by
  unfold State.dropMsg
  repeat' first
    | with_reducible assumption
    | with_reducible apply Keeps.modDigests
    | dsimp only
    | with_reducible refine Keeps.mk' ?_ rfl rfl rfl rfl rfl rfl rfl

/-- `State.grantTo` keeps it. -/
theorem Keeps.grantTo {s0 s : State} (hs : Keeps s0 s) (id : Nat) : Keeps s0 (State.grantTo s id) := by
  unfold State.grantTo
  repeat' first
    | with_reducible assumption
    | with_reducible apply Keeps.bump
    | with_reducible apply Keeps.modMsg
    | with_reducible apply Keeps.record
    | dsimp only
    | with_reducible refine Keeps.mk' ?_ rfl rfl rfl rfl rfl rfl rfl

/-- `State.dgTick` keeps it. -/
theorem Keeps.dgTick {s0 s : State} (hs : Keeps s0 s) : Keeps s0 (State.dgTick s) := by
  unfold State.dgTick
  repeat' first
    | with_reducible assumption
    | with_reducible apply Keeps.modDigests
    | dsimp only
    | with_reducible refine Keeps.mk' ?_ rfl rfl rfl rfl rfl rfl rfl

/-- `State.spill` keeps it. -/
theorem Keeps.spill {s0 s : State} (hs : Keeps s0 s) (id : Nat) : Keeps s0 (State.spill s id) := by
  unfold State.spill
  repeat' first
    | with_reducible assumption
    | with_reducible apply Keeps.bump
    | with_reducible apply Keeps.dgTick
    | with_reducible apply Keeps.modMsg
    | with_reducible apply Keeps.record
    | dsimp only
    | with_reducible refine Keeps.mk' ?_ rfl rfl rfl rfl rfl rfl rfl

/-- `State.obtain` keeps it. -/
theorem Keeps.obtain {s0 s : State} (hs : Keeps s0 s) (id : Nat) (e : Nat) : KeepsO s0 (fun t => t) (State.obtain s id e) := by
  unfold State.obtain
  repeat' first
    | with_reducible exact KeepsO.none
    | with_reducible refine KeepsO.some ?_
    | (with_reducible refine KeepsO.ite (fun _ => ?_) (fun _ => ?_))
    | (with_reducible refine KeepsO.map (fun _ _ => ?_))
    | with_reducible assumption
    | with_reducible apply Keeps.grantTo
    | with_reducible apply Keeps.spill
    | (with_reducible refine Keeps.ite (fun _ => ?_) (fun _ => ?_))
    | dsimp only
    | split

/-- `State.obtain`, by its answer. -/
theorem Keeps.obtain_of {s0 s : State} {id : Nat} {e : Nat} {t_ : State} (eq0 : State.obtain s id e = some t_)
    (hs : Keeps s0 s) : Keeps s0 t_ :=
  Keeps.obtain hs id e _ eq0

/-- `State.serveWaiter` keeps it. -/
theorem Keeps.serveWaiter {s0 s : State} (hs : Keeps s0 s) (e : Nat) : Keeps s0 (State.serveWaiter s e) := by
  unfold State.serveWaiter
  repeat' first
    | with_reducible assumption
    | with_reducible apply Keeps.obtain
    | (with_reducible refine Keeps.obtain_of (by with_reducible assumption) ?_)
    | (with_reducible refine Keeps.getD (fun _ _ => ?_) ?_)
    | dsimp only
    | split
    | with_reducible refine Keeps.mk' ?_ rfl rfl rfl rfl rfl rfl rfl

/-- `State.addMsg` keeps it. -/
theorem Keeps.addMsg {s0 s : State} (hs : Keeps s0 s) (owner : MsgOwner) (e : Nat) (total : Nat) (asks : Bool) : Keeps s0
    (State.addMsg s owner e total asks).2 := by
  unfold State.addMsg
  repeat' first
    | with_reducible assumption
    | with_reducible apply Keeps.dgTick
    | with_reducible apply Keeps.modDigests
    | with_reducible apply Keeps.serveWaiter
    | (with_reducible refine Keeps.ite (fun _ => ?_) (fun _ => ?_))
    | dsimp only
    | split
    | with_reducible refine Keeps.mk' ?_ rfl rfl rfl rfl rfl rfl rfl

/-- `State.addMsg`, by its answer. -/
theorem Keeps.addMsg_of {s0 s : State} {owner : MsgOwner} {e : Nat} {total : Nat} {asks : Bool} {a0 : Nat} {t_ : State}
    (eq0 : State.addMsg s owner e total asks = (a0, t_)) (hs : Keeps s0 s) : Keeps s0 t_ := by
  have k := Keeps.addMsg hs owner e total asks
  rw [eq0] at k
  exact k

/-- `State.feedMsg` keeps it. -/
theorem Keeps.feedMsg {s0 s : State} (hs : Keeps s0 s) (id : Nat) (more : Nat) : Keeps s0 (State.feedMsg s id more) := by
  unfold State.feedMsg
  repeat' first
    | with_reducible assumption
    | with_reducible apply Keeps.dgTick
    | with_reducible apply Keeps.modMsg
    | with_reducible apply Keeps.serveWaiter
    | (with_reducible refine Keeps.ite (fun _ => ?_) (fun _ => ?_))
    | dsimp only
    | split
    | with_reducible refine Keeps.mk' ?_ rfl rfl rfl rfl rfl rfl rfl

/-- `State.askMsg` keeps it. -/
theorem Keeps.askMsg {s0 s : State} (hs : Keeps s0 s) (m : DigestMsg) : Keeps s0 (State.askMsg s m) := by
  unfold State.askMsg
  repeat' first
    | with_reducible assumption
    | with_reducible apply Keeps.dgTick
    | with_reducible apply Keeps.modMsg
    | with_reducible apply Keeps.serveWaiter
    | (with_reducible refine Keeps.ite (fun _ => ?_) (fun _ => ?_))
    | dsimp only
    | split
    | with_reducible refine Keeps.mk' ?_ rfl rfl rfl rfl rfl rfl rfl

/-- `State.feedStream` keeps it. -/
theorem Keeps.feedStream {s0 s : State} (hs : Keeps s0 s) (tenant : Nat) (h : Nat) : Keeps s0 (State.feedStream s tenant h)
    := by
  unfold State.feedStream
  repeat' first
    | with_reducible assumption
    | with_reducible apply Keeps.feedMsg
    | dsimp only
    | split
    | with_reducible refine Keeps.mk' ?_ rfl rfl rfl rfl rfl rfl rfl

/-- `State.writeResult` keeps it. -/
theorem Keeps.writeResult {s0 s : State} (hs : Keeps s0 s) (c : Cmd) (alg : Nat) (hm : Bool) (d : List Byte) : Keeps s0
    (State.writeResult s c alg hm d) := by
  unfold State.writeResult
  repeat' first
    | with_reducible assumption
    | with_reducible apply Keeps.modFp
    | dsimp only
    | with_reducible refine Keeps.mk' ?_ rfl rfl rfl rfl rfl rfl rfl

/-- `State.directResult` keeps it. -/
theorem Keeps.directResult {s0 s : State} (hs : Keeps s0 s) (c : Cmd) (a : DirectArgs) (d : List Byte) : Keeps s0
    (State.directResult s c a d) := by
  unfold State.directResult
  repeat' first
    | with_reducible assumption
    | with_reducible apply Keeps.complete
    | with_reducible apply Keeps.fail
    | with_reducible apply Keeps.hostWrite
    | with_reducible apply Keeps.writeResult
    | (with_reducible refine Keeps.ite (fun _ => ?_) (fun _ => ?_))
    | split

/-- `State.directDone` keeps it. -/
theorem Keeps.directDone {s0 s : State} (hs : Keeps s0 s) (c : Cmd) (consumed : List Byte) (h : Option Nat) : Keeps s0
    (State.directDone s c consumed h) := by
  unfold State.directDone
  repeat' first
    | with_reducible assumption
    | with_reducible apply Keeps.closeCtx
    | with_reducible apply Keeps.complete
    | with_reducible apply Keeps.directResult
    | with_reducible apply Keeps.fail
    | with_reducible apply Keeps.modCtx
    | with_reducible apply Keeps.modMsg
    | (with_reducible refine Keeps.ite (fun _ => ?_) (fun _ => ?_))
    | dsimp only
    | split
    | with_reducible refine Keeps.mk' ?_ rfl rfl rfl rfl rfl rfl rfl

/-- `State.rawDone` keeps it. -/
theorem Keeps.rawDone {s0 s : State} (hs : Keeps s0 s) (c : Cmd) : Keeps s0 (State.rawDone s c) := by
  unfold State.rawDone
  repeat' first
    | with_reducible assumption
    | with_reducible apply Keeps.complete
    | with_reducible apply Keeps.fail
    | with_reducible apply Keeps.hostWrite
    | (with_reducible refine Keeps.ite (fun _ => ?_) (fun _ => ?_))
    | dsimp only
    | split

/-- `State.msgDone` keeps it. -/
theorem Keeps.msgDone {s0 s : State} (hs : Keeps s0 s) (m : DigestMsg) : Keeps s0 (State.msgDone s m) := by
  unfold State.msgDone
  repeat' first
    | with_reducible assumption
    | with_reducible apply Keeps.directDone
    | with_reducible apply Keeps.dropMsg
    | with_reducible apply Keeps.rawDone
    | dsimp only
    | split
    | with_reducible refine Keeps.mk' ?_ rfl rfl rfl rfl rfl rfl rfl

/-- `State.finishEmpty` keeps it. -/
theorem Keeps.finishEmpty {s0 s : State} (hs : Keeps s0 s) : Keeps s0 (State.finishEmpty s) := by
  unfold State.finishEmpty
  repeat' first
    | with_reducible assumption
    | with_reducible apply Keeps.modMsg
    | with_reducible apply Keeps.msgDone
    | (with_reducible refine Keeps.foldl (fun _ _ _ => ?_) ?_)
    | dsimp only
    | with_reducible refine Keeps.mk' ?_ rfl rfl rfl rfl rfl rfl rfl

/-- `State.digestBusy` keeps it. -/
theorem Keeps.digestBusy {s0 s : State} (hs : Keeps s0 s) (m : DigestMsg) : Keeps s0 (State.digestBusy s m) := by
  unfold State.digestBusy
  repeat' first
    | with_reducible assumption
    | with_reducible apply Keeps.bump
    | with_reducible apply Keeps.dropMsg
    | with_reducible apply Keeps.fail
    | with_reducible apply Keeps.modMsg
    | with_reducible apply Keeps.record
    | dsimp only
    | split
    | with_reducible refine Keeps.mk' ?_ rfl rfl rfl rfl rfl rfl rfl

/-- `State.moveMsgs` keeps it. -/
theorem Keeps.moveMsgs {s0 s : State} (hs : Keeps s0 s) (e : Nat) (fedOf : DigestMsg → Nat)
    (recOf : DigestMsg → Option Midstate) : Keeps s0 (State.moveMsgs s e fedOf recOf) := by
  unfold State.moveMsgs
  repeat' first
    | with_reducible assumption
    | with_reducible apply Keeps.finishEmpty
    | with_reducible apply Keeps.modDigests
    | with_reducible apply Keeps.record
    | with_reducible apply Keeps.serveWaiter
    | (with_reducible refine Keeps.ite (fun _ => ?_) (fun _ => ?_))
    | (with_reducible refine Keeps.foldl (fun _ _ _ => ?_) ?_)
    | dsimp only
    | split
    | with_reducible refine Keeps.mk' ?_ rfl rfl rfl rfl rfl rfl rfl

/-- `State.refetch` keeps it. -/
theorem Keeps.refetch {s0 s : State} (hs : Keeps s0 s) (c : Cmd) : Keeps s0 (State.refetch s c) := by
  unfold State.refetch
  repeat' first
    | with_reducible assumption
    | with_reducible apply Keeps.fail
    | with_reducible apply Keeps.modCmd
    | with_reducible apply Keeps.readPayload
    | with_reducible exact fun _ h => h
    | with_reducible exact fun h => h
    | (with_reducible refine Keeps.ite (fun _ => ?_) (fun _ => ?_))
    | dsimp only
    | split
    | with_reducible refine Keeps.mk' ?_ rfl rfl rfl rfl rfl rfl rfl

/-- `State.alarm` keeps it. -/
theorem Keeps.alarm {s0 s : State} (hs : Keeps s0 s) (e : Nat) (bits : BitVec 4) : Keeps s0 (State.alarm s e bits) := by
  unfold State.alarm
  repeat' first
    | with_reducible assumption
    | with_reducible apply Keeps.bump
    | with_reducible apply Keeps.modEngine
    | with_reducible apply Keeps.moveMsgs
    | with_reducible apply Keeps.pushAgain
    | with_reducible apply Keeps.record
    | with_reducible apply Keeps.refetch
    | (with_reducible refine Keeps.ite (fun _ => ?_) (fun _ => ?_))
    | (with_reducible refine Keeps.foldl (fun _ _ _ => ?_) ?_)
    | dsimp only
    | split
    | with_reducible refine Keeps.mk' ?_ rfl rfl rfl rfl rfl rfl rfl

/-! ## SieveOps -/

/-- `State.modBank` keeps it. -/
theorem Keeps.modBank {s0 s : State} (hs : Keeps s0 s) (b : Nat) (f : Bank → Bank) : Keeps s0 (State.modBank s b f) := by
  unfold State.modBank
  repeat' first
    | with_reducible assumption
    | with_reducible refine Keeps.mk' ?_ rfl rfl rfl rfl rfl rfl rfl

/-- `State.setEntries` keeps it. -/
theorem Keeps.setEntries {s0 s : State} (hs : Keeps s0 s) (b : Nat) (f : AMap SieveEntry → AMap SieveEntry) : Keeps s0
    (State.setEntries s b f) := by
  unfold State.setEntries
  repeat' first
    | with_reducible assumption
    | with_reducible apply Keeps.modBank
    | dsimp only
    | with_reducible refine Keeps.mk' ?_ rfl rfl rfl rfl rfl rfl rfl

/-- `State.putPriv` keeps it. -/
theorem Keeps.putPriv {s0 s : State} (hs : Keeps s0 s) (p : Nat) (e : SieveEntry) : Keeps s0 (State.putPriv s p e) := by
  unfold State.putPriv
  repeat' first
    | with_reducible assumption
    | with_reducible apply Keeps.setEntries
    | dsimp only

/-- `State.delPriv` keeps it. -/
theorem Keeps.delPriv {s0 s : State} (hs : Keeps s0 s) (p : Nat) : Keeps s0 (State.delPriv s p) := by
  unfold State.delPriv
  repeat' first
    | with_reducible assumption
    | with_reducible apply Keeps.setEntries
    | dsimp only

/-- `State.moveRegion` keeps it. -/
theorem Keeps.moveRegion {s0 s : State} (hs : Keeps s0 s) (n : Nat) (base : Nat) : Keeps s0 (State.moveRegion s n base) := by
  unfold State.moveRegion
  repeat' first
    | with_reducible assumption
    | with_reducible apply Keeps.delPriv
    | with_reducible apply Keeps.modTenant
    | with_reducible apply Keeps.putPriv
    | (with_reducible refine Keeps.ite (fun _ => ?_) (fun _ => ?_))
    | (with_reducible refine Keeps.foldl (fun _ _ _ => ?_) ?_)
    | dsimp only
    | split
    | with_reducible refine Keeps.mk' ?_ rfl rfl rfl rfl rfl rfl rfl

/-- `State.packRegions` keeps it. -/
theorem Keeps.packRegions {s0 s : State} (hs : Keeps s0 s) (n : Nat) : Keeps s0 (State.packRegions s n) := by
  unfold State.packRegions
  repeat' first
    | with_reducible assumption
    | with_reducible apply Keeps.moveRegion
    | (with_reducible refine Keeps.foldlFst (fun _ _ _ => ?_) ?_)
    | (with_reducible refine Keeps.foldl (fun _ _ _ => ?_) ?_)
    | dsimp only

/-- `State.sizeRegion` keeps it. -/
theorem Keeps.sizeRegion {s0 s : State} (hs : Keeps s0 s) (n : Nat) (quota : Nat) : Keeps s0 (State.sizeRegion s n quota) := by
  unfold State.sizeRegion
  repeat' first
    | with_reducible assumption
    | with_reducible apply Keeps.delPriv
    | with_reducible apply Keeps.modTenant
    | with_reducible apply Keeps.moveRegion
    | with_reducible apply Keeps.packRegions
    | with_reducible apply Keeps.putPriv
    | (with_reducible refine Keeps.ite (fun _ => ?_) (fun _ => ?_))
    | (with_reducible refine Keeps.foldl (fun _ _ _ => ?_) ?_)
    | dsimp only
    | split
    | with_reducible refine Keeps.mk' ?_ rfl rfl rfl rfl rfl rfl rfl

/-- `State.dropRegion` keeps it. -/
theorem Keeps.dropRegion {s0 s : State} (hs : Keeps s0 s) (n : Nat) : Keeps s0 (State.dropRegion s n) := by
  unfold State.dropRegion
  repeat' first
    | with_reducible assumption
    | with_reducible apply Keeps.delPriv
    | with_reducible apply Keeps.modTenant
    | (with_reducible refine Keeps.foldl (fun _ _ _ => ?_) ?_)
    | dsimp only
    | with_reducible refine Keeps.mk' ?_ rfl rfl rfl rfl rfl rfl rfl

/-- `State.classify` keeps it. -/
theorem Keeps.classify {s0 s : State} (hs : Keeps s0 s) (fn : Nat) (data : List Byte) : Keeps s0
    (State.classify s fn data).2 := by
  unfold State.classify
  repeat' first
    | with_reducible assumption
    | with_reducible apply Keeps.bump
    | dsimp only
    | split
    | with_reducible refine Keeps.mk' ?_ rfl rfl rfl rfl rfl rfl rfl

/-- `State.classify`, by its answer. -/
theorem Keeps.classify_of {s0 s : State} {fn : Nat} {data : List Byte} {a0 : Nat} {t_ : State}
    (eq0 : State.classify s fn data = (a0, t_)) (hs : Keeps s0 s) : Keeps s0 t_ := by
  have k := Keeps.classify hs fn data
  rw [eq0] at k
  exact k

/-! ## ObjectOps -/

/-- `State.countCoded` keeps it. -/
theorem Keeps.countCoded {s0 s : State} (hs : Keeps s0 s) (codes : List Nat) : Keeps s0 (State.countCoded s codes) := by
  unfold State.countCoded
  repeat' first
    | with_reducible assumption
    | with_reducible apply Keeps.bump
    | (with_reducible refine Keeps.foldl (fun _ _ _ => ?_) ?_)
    | dsimp only

/-- `State.placeBlocks` keeps it. -/
theorem Keeps.placeBlocks {s0 s : State} (hs : Keeps s0 s) (batch : Nat) (cls : Nat) (owner : GroupOwner) (h : Header)
    (block : Bool) (blks : List (Nat × List Byte)) : KeepsO s0 Prod.snd (State.placeBlocks s batch cls owner h block blks) := by
  unfold State.placeBlocks
  repeat' first
    | with_reducible exact KeepsO.none
    | with_reducible refine KeepsO.some ?_
    | (with_reducible refine KeepsO.ite (fun _ => ?_) (fun _ => ?_))
    | (with_reducible refine KeepsO.map (fun _ _ => ?_))
    | with_reducible assumption
    | with_reducible apply Keeps.newGroup
    | with_reducible apply Keeps.placeGroup
    | (with_reducible refine Keeps.newGroup_of (by with_reducible assumption) ?_)
    | (with_reducible refine Keeps.placeGroup_of (by with_reducible assumption) ?_)
    | (with_reducible refine Keeps.getD (fun _ _ => ?_) ?_)
    | (with_reducible refine Keeps.ite (fun _ => ?_) (fun _ => ?_))
    | dsimp only
    | split

/-- `State.placeBlocks`, by its answer. -/
theorem Keeps.placeBlocks_of {s0 s : State} {batch : Nat} {cls : Nat} {owner : GroupOwner} {h : Header} {block : Bool}
    {blks : List (Nat × List Byte)} {a0 : Nat} {t_ : State} (eq0
    : State.placeBlocks s batch cls owner h block blks = some (a0, t_)) (hs : Keeps s0 s) : Keeps s0 t_ :=
  Keeps.placeBlocks hs batch cls owner h block blks _ eq0

/-- `State.placeBlocks`, by its answer. -/
theorem Keeps.placeBlocks_at {s0 s : State} {batch : Nat} {cls : Nat} {owner : GroupOwner} {h : Header} {block : Bool}
    {blks : List (Nat × List Byte)} {r : Nat × State} (eq0 : State.placeBlocks s batch cls owner h block blks = some r)
    (hs : Keeps s0 s) : Keeps s0 r.2 :=
  Keeps.placeBlocks hs batch cls owner h block blks _ eq0

/-- `State.placeAll` keeps it. -/
theorem Keeps.placeAll {s0 s : State} (hs : Keeps s0 s) (batch cls : Nat) (owner : GroupOwner) (h : Header) (block : Bool)
    (gs : List (List (Nat × List Byte))) : KeepsO s0 Prod.snd (s.placeAll batch cls owner h block gs) := by
  unfold State.placeAll
  refine KeepsO.foldl ?_ (KeepsO.some hs)
  intro acc x ha
  refine KeepsO.bind fun a e => KeepsO.map fun r k => ?_
  exact Keeps.placeBlocks_at k (ha _ e)

/-- `State.placeAll`, by its answer. -/
theorem Keeps.placeAll_of {s0 s : State} {batch : Nat} {cls : Nat} {owner : GroupOwner} {h : Header} {block : Bool}
    {gs : List (List (Nat × List Byte))} {a0 : List Nat} {t_ : State}
    (eq0 : State.placeAll s batch cls owner h block gs = some (a0, t_)) (hs : Keeps s0 s) : Keeps s0 t_ :=
  Keeps.placeAll hs batch cls owner h block gs _ eq0

/-- `State.placeAll`, by its answer. -/
theorem Keeps.placeAll_at {s0 s : State} {batch : Nat} {cls : Nat} {owner : GroupOwner} {h : Header} {block : Bool}
    {gs : List (List (Nat × List Byte))} {r : List Nat × State} (eq0 : State.placeAll s batch cls owner h block gs = some r)
    (hs : Keeps s0 s) : Keeps s0 r.2 :=
  Keeps.placeAll hs batch cls owner h block gs _ eq0

/-- `State.placeObject` keeps it. -/
theorem Keeps.placeObject {s0 s : State} (hs : Keeps s0 s) (batch : Nat) (cls : Nat) (owner : GroupOwner) (tenant : Nat)
    (space : Nat) (oid : Nat) (seq : Nat) (off : Nat) (data : List Byte) : KeepsO s0 Prod.snd
    (State.placeObject s batch cls owner tenant space oid seq off data) := by
  unfold State.placeObject
  repeat' first
    | with_reducible exact KeepsO.none
    | with_reducible refine KeepsO.some ?_
    | (with_reducible refine KeepsO.ite (fun _ => ?_) (fun _ => ?_))
    | with_reducible assumption
    | with_reducible apply Keeps.placeAll
    | (with_reducible refine Keeps.placeAll_of (by with_reducible assumption) ?_)
    | (with_reducible refine Keeps.placeAll_at (by with_reducible assumption) ?_)

/-- `State.placeObject`, by its answer. -/
theorem Keeps.placeObject_of {s0 s : State} {batch : Nat} {cls : Nat} {owner : GroupOwner} {tenant : Nat} {space : Nat}
    {oid : Nat} {seq : Nat} {off : Nat} {data : List Byte} {a0 : List Nat} {t_ : State}
    (eq0 : State.placeObject s batch cls owner tenant space oid seq off data = some (a0, t_)) (hs : Keeps s0 s) : Keeps s0 t_ :=
  Keeps.placeObject hs batch cls owner tenant space oid seq off data _ eq0

/-- `State.placeObject`, by its answer. -/
theorem Keeps.placeObject_at {s0 s : State} {batch : Nat} {cls : Nat} {owner : GroupOwner} {tenant : Nat} {space : Nat}
    {oid : Nat} {seq : Nat} {off : Nat} {data : List Byte} {r : List Nat × State}
    (eq0 : State.placeObject s batch cls owner tenant space oid seq off data = some r) (hs : Keeps s0 s) : Keeps s0 r.2 :=
  Keeps.placeObject hs batch cls owner tenant space oid seq off data _ eq0

/-- `State.abortStream` keeps it. -/
theorem Keeps.abortStream {s0 s : State} (hs : Keeps s0 s) (tenant : Nat) (h : Nat) (st : Status) (but : Option Nat) :
    Keeps s0 (State.abortStream s tenant h st but) := by
  unfold State.abortStream
  repeat' first
    | with_reducible assumption
    | with_reducible apply Keeps.closeCtx
    | with_reducible apply Keeps.finish
    | with_reducible apply Keeps.pump
    | with_reducible apply Keeps.reap
    | (with_reducible refine Keeps.foldl (fun _ _ _ => ?_) ?_)
    | dsimp only

/-- `State.failOwner` keeps it. -/
theorem Keeps.failOwner {s0 s : State} (hs : Keeps s0 s) (o : CommitOwner) (h : Nat) (st : Status) (r1 : Nat) : Keeps s0
    (State.failOwner s o h st r1) := by
  unfold State.failOwner
  repeat' first
    | with_reducible assumption
    | with_reducible apply Keeps.closeCtx
    | with_reducible apply Keeps.complete
    | with_reducible apply Keeps.finishJob
    | with_reducible apply Keeps.modJob
    | (with_reducible refine Keeps.getD (fun _ _ => ?_) ?_)
    | dsimp only
    | split
    | with_reducible refine Keeps.mk' ?_ rfl rfl rfl rfl rfl rfl rfl

/-- `State.commitFail` keeps it. -/
theorem Keeps.commitFail {s0 s : State} (hs : Keeps s0 s) (c : Commit) (st : Status) : Keeps s0 (State.commitFail s c st) := by
  unfold State.commitFail
  repeat' first
    | with_reducible assumption
    | with_reducible apply Keeps.failOwner
    | (with_reducible refine Keeps.foldl (fun _ _ _ => ?_) ?_)
    | dsimp only
    | with_reducible refine Keeps.mk' ?_ rfl rfl rfl rfl rfl rfl rfl

/-- `State.dropJobCommit` keeps it. -/
theorem Keeps.dropJobCommit {s0 s : State} (hs : Keeps s0 s) (slot : Nat) : Keeps s0 (State.dropJobCommit s slot) := by
  unfold State.dropJobCommit
  repeat' first
    | with_reducible assumption
    | with_reducible apply Keeps.failOwner
    | (with_reducible refine Keeps.foldl (fun _ _ _ => ?_) ?_)
    | dsimp only
    | split
    | with_reducible refine Keeps.mk' ?_ rfl rfl rfl rfl rfl rfl rfl

/-- `State.stopJob` keeps it. -/
theorem Keeps.stopJob {s0 s : State} (hs : Keeps s0 s) (slot : Nat) (fin : Nat) (st : Status) : Keeps s0
    (State.stopJob s slot fin st) := by
  unfold State.stopJob
  repeat' first
    | with_reducible assumption
    | with_reducible apply Keeps.dropJobCommit
    | with_reducible apply Keeps.endJob

/-- `State.addCommit` keeps it. -/
theorem Keeps.addCommit {s0 s : State} (hs : Keeps s0 s) (o : CommitOwner) (h : Nat) (v : Version) : KeepsE s0 (fun t => t)
    (State.addCommit s o h v) := by
  unfold State.addCommit
  repeat' first
    | with_reducible exact KeepsE.error
    | with_reducible refine KeepsE.ok ?_
    | (with_reducible refine KeepsE.ite (fun _ => ?_) (fun _ => ?_))
    | (with_reducible refine KeepsE.bind (fun _ _ => ?_))
    | with_reducible assumption
    | with_reducible apply Keeps.modTenant
    | with_reducible apply Keeps.takeSeq
    | (with_reducible refine Keeps.takeSeq_of (by with_reducible assumption) ?_)
    | (with_reducible refine Keeps.ite (fun _ => ?_) (fun _ => ?_))
    | dsimp only
    | split
    | with_reducible refine Keeps.mk' ?_ rfl rfl rfl rfl rfl rfl rfl

/-- `State.addCommit`, by its answer. -/
theorem Keeps.addCommit_of {s0 s : State} {o : CommitOwner} {h : Nat} {v : Version} {t_ : State}
    (eq0 : State.addCommit s o h v = Except.ok t_) (hs : Keeps s0 s) : Keeps s0 t_ :=
  Keeps.addCommit hs o h v _ eq0

/-- `State.tryCommit` keeps it. -/
theorem Keeps.tryCommit {s0 s : State} (hs : Keeps s0 s) (tenant : Nat) (h : Nat) : Keeps s0 (State.tryCommit s tenant h) := by
  unfold State.tryCommit
  repeat' first
    | with_reducible assumption
    | with_reducible apply Keeps.addCommit
    | with_reducible apply Keeps.failOwner
    | (with_reducible refine Keeps.addCommit_of (by with_reducible assumption) ?_)
    | (with_reducible refine Keeps.ite (fun _ => ?_) (fun _ => ?_))
    | dsimp only
    | split
    | with_reducible refine Keeps.mk' ?_ rfl rfl rfl rfl rfl rfl rfl

/-- `State.modCommit` keeps it. -/
theorem Keeps.modCommit {s0 s : State} (hs : Keeps s0 s) (id : Nat) (f : Commit → Commit) : Keeps s0
    (State.modCommit s id f) := by
  unfold State.modCommit
  repeat' first
    | with_reducible assumption
    | dsimp only
    | with_reducible refine Keeps.mk' ?_ rfl rfl rfl rfl rfl rfl rfl

/-- `State.modVersion` keeps it. -/
theorem Keeps.modVersion {s0 s : State} (hs : Keeps s0 s) (tenant : Nat) (space : Nat) (oid : Nat) (version : Nat)
    (f : Version → Version) : Keeps s0 (State.modVersion s tenant space oid version f) := by
  unfold State.modVersion
  repeat' first
    | with_reducible assumption
    | (with_reducible refine Keeps.ite (fun _ => ?_) (fun _ => ?_))
    | dsimp only
    | split
    | with_reducible refine Keeps.mk' ?_ rfl rfl rfl rfl rfl rfl rfl

/-- `State.placeList` keeps it. -/
theorem Keeps.placeList {s0 s : State} (hs : Keeps s0 s) (batch : Nat) (kind : RowKind) (v : Version) (seq qos : Nat) (copy : Bool) :
    KeepsO s0 (fun t => t) (State.placeList s batch kind v seq qos copy) := by
  unfold State.placeList
  dsimp only
  refine KeepsO.ite (fun _ => KeepsO.some hs) fun _ => ?_
  refine KeepsO.foldl (fun a x ha => ?_) (KeepsO.some (hs.modVersion _ _ _ _ _))
  refine KeepsO.bind fun r e => ?_
  exact Keeps.placeGroup (Keeps.newGroup (ha r e)) _ _ _ _

/-- `State.placeList`, by its answer. -/
theorem Keeps.placeList_of {s0 s : State} {batch : Nat} {kind : RowKind} {v : Version} {seq : Nat} {qos : Nat}
    {copy : Bool} {t_ : State} (eq0 : State.placeList s batch kind v seq qos copy = some t_) (hs : Keeps s0 s) : Keeps s0 t_ :=
  Keeps.placeList hs batch kind v seq qos copy _ eq0

/-- `State.sweepCommitted` keeps it. -/
theorem Keeps.sweepCommitted {s0 s : State} (hs : Keeps s0 s) : Keeps s0 (State.sweepCommitted s) := by
  unfold State.sweepCommitted
  repeat' first
    | with_reducible assumption
    | with_reducible apply Keeps.closeCtx
    | with_reducible apply Keeps.reply
    | (with_reducible refine Keeps.ite (fun _ => ?_) (fun _ => ?_))
    | (with_reducible refine Keeps.foldl (fun _ _ _ => ?_) ?_)
    | dsimp only
    | split
    | with_reducible refine Keeps.mk' ?_ rfl rfl rfl rfl rfl rfl rfl

/-- `State.commitVisible` keeps it. -/
theorem Keeps.commitVisible {s0 s : State} (hs : Keeps s0 s) (c : Commit) : Keeps s0 (State.commitVisible s c) := by
  unfold State.commitVisible
  repeat' first
    | with_reducible assumption
    | with_reducible apply Keeps.closeCtx
    | with_reducible apply Keeps.complete
    | with_reducible apply Keeps.deliver
    | with_reducible apply Keeps.finishJob
    | with_reducible apply Keeps.modJob
    | with_reducible apply Keeps.modStream
    | with_reducible apply Keeps.pruneVersions
    | with_reducible apply Keeps.sweepCommitted
    | (with_reducible refine Keeps.ite (fun _ => ?_) (fun _ => ?_))
    | dsimp only
    | split
    | with_reducible refine Keeps.mk' ?_ rfl rfl rfl rfl rfl rfl rfl

/-- `State.addRecord` keeps it. -/
theorem Keeps.addRecord {s0 s : State} (hs : Keeps s0 s) (tag : Nat) (tenant : Nat) (container : Nat) (k : RecordKind)
    (seq : Nat) : KeepsO s0 (fun t => t) (State.addRecord s tag tenant container k seq) := by
  unfold State.addRecord
  repeat' first
    | with_reducible exact KeepsO.none
    | with_reducible refine KeepsO.some ?_
    | (with_reducible refine KeepsO.ite (fun _ => ?_) (fun _ => ?_))
    | with_reducible assumption
    | with_reducible apply Keeps.newGroup
    | with_reducible apply Keeps.placeGroup
    | with_reducible apply Keeps.record
    | (with_reducible refine Keeps.newGroup_of (by with_reducible assumption) ?_)
    | (with_reducible refine Keeps.placeGroup_of (by with_reducible assumption) ?_)
    | dsimp only
    | with_reducible refine Keeps.mk' ?_ rfl rfl rfl rfl rfl rfl rfl

/-- `State.addRecord`, by its answer. -/
theorem Keeps.addRecord_of {s0 s : State} {tag : Nat} {tenant : Nat} {container : Nat} {k : RecordKind} {seq : Nat}
    {t_ : State} (eq0 : State.addRecord s tag tenant container k seq = some t_) (hs : Keeps s0 s) : Keeps s0 t_ :=
  Keeps.addRecord hs tag tenant container k seq _ eq0

/-- `State.failNs` keeps it. -/
theorem Keeps.failNs {s0 s : State} (hs : Keeps s0 s) (tenant : Nat) (ns : Nat) : Keeps s0 (State.failNs s tenant ns) := by
  unfold State.failNs
  repeat' first
    | with_reducible assumption
    | with_reducible apply Keeps.finish
    | (with_reducible refine Keeps.foldl (fun _ _ _ => ?_) ?_)
    | dsimp only

/-- `State.failSpaceCommits` keeps it. -/
theorem Keeps.failSpaceCommits {s0 s : State} (hs : Keeps s0 s) (tenant : Nat) (space : Nat) : Keeps s0
    (State.failSpaceCommits s tenant space) := by
  unfold State.failSpaceCommits
  repeat' first
    | with_reducible assumption
    | with_reducible apply Keeps.failOwner
    | with_reducible apply Keeps.modTenant
    | with_reducible apply Keeps.tryCommit
    | (with_reducible refine Keeps.ite (fun _ => ?_) (fun _ => ?_))
    | (with_reducible refine Keeps.foldl (fun _ _ _ => ?_) ?_)
    | dsimp only
    | split
    | with_reducible refine Keeps.mk' ?_ rfl rfl rfl rfl rfl rfl rfl

/-- `State.undelete` keeps it. -/
theorem Keeps.undelete {s0 s : State} (hs : Keeps s0 s) (tenant : Nat) (space : Nat) : Keeps s0
    (State.undelete s tenant space) := by
  unfold State.undelete
  repeat' first
    | with_reducible assumption
    | with_reducible apply Keeps.modTenant
    | dsimp only
    | with_reducible refine Keeps.mk' ?_ rfl rfl rfl rfl rfl rfl rfl

/-- `State.dropSpace` keeps it. -/
theorem Keeps.dropSpace {s0 s : State} (hs : Keeps s0 s) (tenant : Nat) (space : Nat) : Keeps s0
    (State.dropSpace s tenant space) := by
  unfold State.dropSpace
  repeat' first
    | with_reducible assumption
    | with_reducible apply Keeps.abortStream
    | with_reducible apply Keeps.commitVisible
    | with_reducible apply Keeps.failSpaceCommits
    | with_reducible apply Keeps.modTenant
    | (with_reducible refine Keeps.foldl (fun _ _ _ => ?_) ?_)
    | dsimp only
    | with_reducible refine Keeps.mk' ?_ rfl rfl rfl rfl rfl rfl rfl

/-- `State.dropNs` keeps it. -/
theorem Keeps.dropNs {s0 s : State} (hs : Keeps s0 s) (tenant : Nat) (ns : Nat) : Keeps s0 (State.dropNs s tenant ns) := by
  unfold State.dropNs
  repeat' first
    | with_reducible assumption
    | with_reducible apply Keeps.failNs
    | with_reducible apply Keeps.modTenant
    | dsimp only
    | with_reducible refine Keeps.mk' ?_ rfl rfl rfl rfl rfl rfl rfl

/-- `State.recordReply` keeps it. -/
theorem Keeps.recordReply {s0 s : State} (hs : Keeps s0 s) (tag : Nat) : Keeps s0 (State.recordReply s tag) := by
  unfold State.recordReply
  repeat' first
    | with_reducible assumption
    | with_reducible apply Keeps.complete
    | with_reducible apply Keeps.modCmd
    | with_reducible exact fun _ h => h
    | with_reducible exact fun h => h
    | (with_reducible refine Keeps.ite (fun _ => ?_) (fun _ => ?_))
    | dsimp only
    | split
    | with_reducible refine Keeps.mk' ?_ rfl rfl rfl rfl rfl rfl rfl

/-- `State.recordDurable` keeps it. -/
theorem Keeps.recordDurable {s0 s : State} (hs : Keeps s0 s) (id : Nat) : Keeps s0 (State.recordDurable s id) := by
  unfold State.recordDurable
  repeat' first
    | with_reducible assumption
    | with_reducible apply Keeps.dropNs
    | with_reducible apply Keeps.dropSpace
    | with_reducible apply Keeps.modTenant
    | with_reducible apply Keeps.pump
    | with_reducible apply Keeps.reap
    | with_reducible apply Keeps.recordReply
    | dsimp only
    | split
    | with_reducible refine Keeps.mk' ?_ rfl rfl rfl rfl rfl rfl rfl

end Sys2Proof.Machine
end

