-- ==== Sys2Proof/Laws/KeepsUnits.lean ====
section
/-! SUPPORT. What keeps the queue, what was sent and the invariant: the operations of the links, reads, keys, media, tenants, modes, cores, the Sieve and the boot flash. -/
namespace Sys2Proof.Machine

open Claims

/-! ## FironOps -/

/-- `State.modFiron` keeps it. -/
theorem Keeps.modFiron {s0 s : State} (hs : Keeps s0 s) (f : Firon → Firon) : Keeps s0 (State.modFiron s f) := by
  unfold State.modFiron
  repeat' first
    | with_reducible assumption
    | with_reducible refine Keeps.mk' ?_ rfl rfl rfl rfl rfl rfl rfl

/-- `State.modPeer` keeps it. -/
theorem Keeps.modPeer {s0 s : State} (hs : Keeps s0 s) (p : Nat) (f : Peer → Peer) : Keeps s0 (State.modPeer s p f) := by
  unfold State.modPeer
  repeat' first
    | with_reducible assumption
    | with_reducible apply Keeps.modFiron
    | dsimp only
    | with_reducible refine Keeps.mk' ?_ rfl rfl rfl rfl rfl rfl rfl

/-- `State.emitOn` keeps it. -/
theorem Keeps.emitOn {s0 s : State} (hs : Keeps s0 s) (eth : Nat) (dst : Nat) (type : Nat) (seq : Nat)
    (payload : List Byte) : Keeps s0 (State.emitOn s eth dst type seq payload) := by
  unfold State.emitOn
  repeat' first
    | with_reducible assumption
    | with_reducible apply Keeps.bump
    | with_reducible apply Keeps.emit
    | with_reducible apply Keeps.emit
    | (with_reducible refine Keeps.getD (fun _ _ => ?_) ?_)
    | (with_reducible refine Keeps.ite (fun _ => ?_) (fun _ => ?_))
    | dsimp only
    | split
    | with_reducible refine Keeps.mk' ?_ rfl rfl rfl rfl rfl rfl rfl

/-- `State.emitFrame` keeps it. -/
theorem Keeps.emitFrame {s0 s : State} (hs : Keeps s0 s) (dst : Nat) (type : Nat) (seq : Nat) (payload : List Byte) : Keeps
    s0 (State.emitFrame s dst type seq payload) := by
  unfold State.emitFrame
  repeat' first
    | with_reducible assumption
    | with_reducible apply Keeps.emitOn
    | with_reducible apply Keeps.modPeer
    | dsimp only
    | split
    | with_reducible refine Keeps.mk' ?_ rfl rfl rfl rfl rfl rfl rfl

/-- `State.sendMsg` keeps it. -/
theorem Keeps.sendMsg {s0 s : State} (hs : Keeps s0 s) (dst : Nat) (type : Nat) (payload : List Byte) : Keeps s0
    (State.sendMsg s dst type payload) := by
  unfold State.sendMsg
  repeat' first
    | with_reducible assumption
    | with_reducible apply Keeps.emitFrame
    | with_reducible apply Keeps.modPeer
    | (with_reducible refine Keeps.ite (fun _ => ?_) (fun _ => ?_))
    | dsimp only
    | split
    | with_reducible refine Keeps.mk' ?_ rfl rfl rfl rfl rfl rfl rfl

/-- `State.sendWaiting` keeps it. -/
theorem Keeps.sendWaiting {s0 s : State} (hs : Keeps s0 s) (dst : Nat) : Keeps s0 (State.sendWaiting s dst) := by
  unfold State.sendWaiting
  repeat' first
    | with_reducible assumption
    | with_reducible apply Keeps.modPeer
    | with_reducible apply Keeps.sendMsg
    | (with_reducible refine Keeps.foldl (fun _ _ _ => ?_) ?_)
    | dsimp only
    | with_reducible refine Keeps.mk' ?_ rfl rfl rfl rfl rfl rfl rfl

/-- `State.setLate` keeps it. -/
theorem Keeps.setLate {s0 s : State} (hs : Keeps s0 s) (dst : Nat) : Keeps s0 (State.setLate s dst) := by
  unfold State.setLate
  repeat' first
    | with_reducible assumption
    | with_reducible apply Keeps.modPeer
    | dsimp only
    | with_reducible refine Keeps.mk' ?_ rfl rfl rfl rfl rfl rfl rfl

/-- `State.resend` keeps it. -/
theorem Keeps.resend {s0 s : State} (hs : Keeps s0 s) (dst : Nat) (seq : Nat) : Keeps s0 (State.resend s dst seq) := by
  unfold State.resend
  repeat' first
    | with_reducible assumption
    | with_reducible apply Keeps.bump
    | with_reducible apply Keeps.emitFrame
    | with_reducible apply Keeps.modPeer
    | with_reducible apply Keeps.record
    | with_reducible apply Keeps.setLate
    | (with_reducible refine Keeps.ite (fun _ => ?_) (fun _ => ?_))
    | dsimp only
    | split
    | with_reducible refine Keeps.mk' ?_ rfl rfl rfl rfl rfl rfl rfl

/-- `State.sendAck` keeps it. -/
theorem Keeps.sendAck {s0 s : State} (hs : Keeps s0 s) (dst : Nat) : Keeps s0 (State.sendAck s dst) := by
  unfold State.sendAck
  repeat' first
    | with_reducible assumption
    | with_reducible apply Keeps.emitFrame
    | with_reducible apply Keeps.modPeer
    | (with_reducible refine Keeps.ite (fun _ => ?_) (fun _ => ?_))
    | (with_reducible refine Keeps.foldl (fun _ _ _ => ?_) ?_)
    | dsimp only
    | split
    | with_reducible refine Keeps.mk' ?_ rfl rfl rfl rfl rfl rfl rfl

/-- `State.ackUpTo` keeps it. -/
theorem Keeps.ackUpTo {s0 s : State} (hs : Keeps s0 s) (src : Nat) (n : Nat) : Keeps s0 (State.ackUpTo s src n) := by
  unfold State.ackUpTo
  repeat' first
    | with_reducible assumption
    | with_reducible apply Keeps.modPeer
    | with_reducible apply Keeps.sendWaiting
    | with_reducible apply Keeps.setLate
    | (with_reducible refine Keeps.ite (fun _ => ?_) (fun _ => ?_))
    | dsimp only
    | split
    | with_reducible refine Keeps.mk' ?_ rfl rfl rfl rfl rfl rfl rfl

/-- `State.dropFrame` keeps it. -/
theorem Keeps.dropFrame {s0 s : State} (hs : Keeps s0 s) (f : RxFrame) (r : RxResult) : Keeps s0 (State.dropFrame s f r) := by
  unfold State.dropFrame
  repeat' first
    | with_reducible assumption
    | with_reducible apply Keeps.bump
    | with_reducible apply Keeps.sendAck
    | (with_reducible refine Keeps.ite (fun _ => ?_) (fun _ => ?_))
    | dsimp only
    | split
    | with_reducible refine Keeps.mk' ?_ rfl rfl rfl rfl rfl rfl rfl

/-- `State.heard` keeps it. -/
theorem Keeps.heard {s0 s : State} (hs : Keeps s0 s) (h : Rx) : Keeps s0 (State.heard s h) := by
  unfold State.heard
  repeat' first
    | with_reducible assumption
    | with_reducible apply Keeps.ackUpTo
    | with_reducible apply Keeps.bump
    | with_reducible apply Keeps.modPeer
    | (with_reducible refine Keeps.ite (fun _ => ?_) (fun _ => ?_))
    | dsimp only
    | split
    | with_reducible refine Keeps.mk' ?_ rfl rfl rfl rfl rfl rfl rfl

/-- `State.accept` keeps it. -/
theorem Keeps.accept {s0 s : State} (hs : Keeps s0 s) (h : Rx) : Keeps s0 (State.accept s h) := by
  unfold State.accept
  repeat' first
    | with_reducible assumption
    | with_reducible apply Keeps.bump
    | with_reducible apply Keeps.heard
    | with_reducible apply Keeps.modPeer
    | with_reducible apply Keeps.sendAck
    | (with_reducible refine Keeps.ite (fun _ => ?_) (fun _ => ?_))
    | dsimp only
    | split
    | with_reducible refine Keeps.mk' ?_ rfl rfl rfl rfl rfl rfl rfl

/-- `State.onFrame` keeps it, if what the frame does keeps it. -/
theorem Keeps.onFrame {s0 s : State} (hs : Keeps s0 s) (f : RxFrame) (type : Nat) (act : State → Rx → State)
    (ha : ∀ s h, Keeps s0 s → Keeps s0 (act s h)) : Keeps s0 (State.onFrame s f type act) := by
  unfold State.onFrame
  repeat' first
    | with_reducible assumption
    | with_reducible apply Keeps.heard
    | with_reducible apply Keeps.accept
    | with_reducible apply Keeps.bump
    | (with_reducible refine ha _ _ ?_)
    | (with_reducible refine Keeps.ite (fun _ => ?_) (fun _ => ?_))
    | split

/-- `State.modShard` keeps it. -/
theorem Keeps.modShard {s0 s : State} (hs : Keeps s0 s) (key : List Byte) (f : Shard → Shard) : Keeps s0
    (State.modShard s key f) := by
  unfold State.modShard
  repeat' first
    | with_reducible assumption
    | with_reducible apply Keeps.modFiron
    | dsimp only
    | with_reducible refine Keeps.mk' ?_ rfl rfl rfl rfl rfl rfl rfl

/-- `State.shardStatus` keeps it. -/
theorem Keeps.shardStatus {s0 s : State} (hs : Keeps s0 s) (key : List Byte) (st : Nat) : Keeps s0
    (State.shardStatus s key st) := by
  unfold State.shardStatus
  repeat' first
    | with_reducible assumption
    | with_reducible apply Keeps.sendMsg

/-- `State.refuseShard` keeps it. -/
theorem Keeps.refuseShard {s0 s : State} (hs : Keeps s0 s) (x : Shard) (st : Nat) : Keeps s0 (State.refuseShard s x st) := by
  unfold State.refuseShard
  repeat' first
    | with_reducible assumption
    | with_reducible apply Keeps.modFiron
    | with_reducible apply Keeps.shardStatus
    | (with_reducible refine Keeps.ite (fun _ => ?_) (fun _ => ?_))
    | dsimp only
    | split
    | with_reducible refine Keeps.mk' ?_ rfl rfl rfl rfl rfl rfl rfl

/-- `State.placeShard` keeps it. -/
theorem Keeps.placeShard {s0 s : State} (h : Keeps s0 s) (key : List Byte) : Keeps s0 (s.placeShard key) := by
  unfold State.placeShard
  split
  · exact h
  · refine Keeps.ite (fun _ => h) fun _ => Keeps.ite (fun _ => h.refuseShard _ _) fun _ => ?_
    split
    · exact h.refuseShard _ _
    · extract_lets cls sq b hi ng secs g
      split
      · exact h.refuseShard _ _
      · rename_i e
        exact Keeps.modShard (Keeps.placeGroup_of e h.takeSeq.newGroup) _ _

/-- `State.holdShard` keeps it. -/
theorem Keeps.holdShard {s0 s : State} (hs : Keeps s0 s) (key : List Byte) (bytes : List Byte) (vrec : List Byte)
    (after : ShardAfter) : Keeps s0 (State.holdShard s key bytes vrec after) := by
  unfold State.holdShard
  repeat' first
    | with_reducible assumption
    | with_reducible apply Keeps.modFiron
    | with_reducible apply Keeps.placeShard
    | dsimp only
    | with_reducible refine Keeps.mk' ?_ rfl rfl rfl rfl rfl rfl rfl

/-- `State.sendShard` keeps it. -/
theorem Keeps.sendShard {s0 s : State} (hs : Keeps s0 s) (key : List Byte) (bytes : List Byte) (vrec : List Byte)
    (dst : Nat) : Keeps s0 (State.sendShard s key bytes vrec dst) := by
  unfold State.sendShard
  repeat' first
    | with_reducible assumption
    | with_reducible apply Keeps.sendMsg
    | (with_reducible refine Keeps.ite (fun _ => ?_) (fun _ => ?_))
    | (with_reducible refine Keeps.foldl (fun _ _ _ => ?_) ?_)
    | dsimp only
    | split

/-- `State.shipCommit` keeps it. -/
theorem Keeps.shipCommit {s0 s : State} (hs : Keeps s0 s) (c : Commit) : Keeps s0 (State.shipCommit s c) := by
  unfold State.shipCommit
  repeat' first
    | with_reducible assumption
    | with_reducible apply Keeps.bump
    | with_reducible apply Keeps.commitFail
    | with_reducible apply Keeps.holdShard
    | with_reducible apply Keeps.modCommit
    | with_reducible apply Keeps.modFiron
    | with_reducible apply Keeps.sendShard
    | with_reducible apply Keeps.takeSeq
    | with_reducible apply Keeps.tick
    | (with_reducible refine Keeps.takeSeq_of (by with_reducible assumption) ?_)
    | (with_reducible refine Keeps.ite (fun _ => ?_) (fun _ => ?_))
    | (with_reducible refine Keeps.foldl (fun _ _ _ => ?_) ?_)
    | dsimp only
    | split
    | with_reducible refine Keeps.mk' ?_ rfl rfl rfl rfl rfl rfl rfl

/-- `State.releaseShards` keeps it. -/
theorem Keeps.releaseShards {s0 s : State} (hs : Keeps s0 s) (vk : List Byte) (g : GroupInfo) : Keeps s0
    (State.releaseShards s vk g) := by
  unfold State.releaseShards
  repeat' first
    | with_reducible assumption
    | with_reducible apply Keeps.modFiron
    | with_reducible apply Keeps.sendMsg
    | (with_reducible refine Keeps.foldl (fun _ _ _ => ?_) ?_)
    | dsimp only
    | with_reducible refine Keeps.mk' ?_ rfl rfl rfl rfl rfl rfl rfl

/-- `State.dropLanding` keeps it. -/
theorem Keeps.dropLanding {s0 s : State} (hs : Keeps s0 s) : Keeps s0 (State.dropLanding s) := by
  unfold State.dropLanding
  repeat' first
    | with_reducible assumption
    | (with_reducible refine Keeps.ite (fun _ => ?_) (fun _ => ?_))
    | dsimp only
    | split
    | with_reducible refine Keeps.mk' ?_ rfl rfl rfl rfl rfl rfl rfl

/-- `State.pumpGroup` keeps it. -/
theorem Keeps.pumpGroup {s0 s : State} (hs : Keeps s0 s) : Keeps s0 (State.pumpGroup s) := by
  unfold State.pumpGroup
  repeat' first
    | with_reducible assumption
    | with_reducible apply Keeps.dropLanding
    | with_reducible apply Keeps.modCommit
    | with_reducible apply Keeps.releaseShards
    | with_reducible apply Keeps.shipCommit
    | (with_reducible refine Keeps.ite (fun _ => ?_) (fun _ => ?_))
    | (with_reducible refine Keeps.foldl (fun _ _ _ => ?_) ?_)
    | dsimp only
    | split
    | with_reducible refine Keeps.mk' ?_ rfl rfl rfl rfl rfl rfl rfl

/-- `State.modGather` keeps it. -/
theorem Keeps.modGather {s0 s : State} (hs : Keeps s0 s) (id : Nat) (f : Gather → Gather) : Keeps s0
    (State.modGather s id f) := by
  unfold State.modGather
  repeat' first
    | with_reducible assumption
    | with_reducible apply Keeps.modFiron
    | dsimp only
    | with_reducible refine Keeps.mk' ?_ rfl rfl rfl rfl rfl rfl rfl

/-- `State.dropGather` keeps it. -/
theorem Keeps.dropGather {s0 s : State} (hs : Keeps s0 s) (id : Nat) : Keeps s0 (State.dropGather s id) := by
  unfold State.dropGather
  repeat' first
    | with_reducible assumption
    | with_reducible apply Keeps.modFiron
    | dsimp only
    | with_reducible refine Keeps.mk' ?_ rfl rfl rfl rfl rfl rfl rfl

/-- `State.askShard` keeps it. -/
theorem Keeps.askShard {s0 s : State} (hs : Keeps s0 s) (id : Nat) (shard : Nat) : Keeps s0 (State.askShard s id shard) := by
  unfold State.askShard
  repeat' first
    | with_reducible assumption
    | with_reducible apply Keeps.modGather
    | with_reducible apply Keeps.sendMsg
    | (with_reducible refine Keeps.ite (fun _ => ?_) (fun _ => ?_))
    | dsimp only
    | split
    | with_reducible refine Keeps.mk' ?_ rfl rfl rfl rfl rfl rfl rfl

/-- `State.askMore` keeps it. -/
theorem Keeps.askMore {s0 s : State} (hs : Keeps s0 s) (id : Nat) (n : Nat) : Keeps s0 (State.askMore s id n) := by
  unfold State.askMore
  repeat' first
    | with_reducible assumption
    | with_reducible apply Keeps.askShard
    | (with_reducible refine Keeps.ite (fun _ => ?_) (fun _ => ?_))
    | (with_reducible refine Keeps.foldl (fun _ _ _ => ?_) ?_)
    | dsimp only
    | split
    | with_reducible refine Keeps.mk' ?_ rfl rfl rfl rfl rfl rfl rfl

/-- `State.beginGather` keeps it. -/
theorem Keeps.beginGather {s0 s : State} (hs : Keeps s0 s) (o : GatherFor) (key : List Byte) (vrec : List Byte)
    (g : GroupInfo) (lo : Nat) (hi : Nat) : Keeps s0 (State.beginGather s o key vrec g lo hi) := by
  unfold State.beginGather
  repeat' first
    | with_reducible assumption
    | with_reducible apply Keeps.askMore
    | with_reducible apply Keeps.askShard
    | with_reducible apply Keeps.modFiron
    | (with_reducible refine Keeps.ite (fun _ => ?_) (fun _ => ?_))
    | (with_reducible refine Keeps.foldl (fun _ _ _ => ?_) ?_)
    | dsimp only
    | split
    | with_reducible refine Keeps.mk' ?_ rfl rfl rfl rfl rfl rfl rfl

/-- `State.awaitRepair` keeps it. -/
theorem Keeps.awaitRepair {s0 s : State} (hs : Keeps s0 s) (key : List Byte) : Keeps s0 (State.awaitRepair s key) := by
  unfold State.awaitRepair
  repeat' first
    | with_reducible assumption
    | with_reducible apply Keeps.modFiron
    | (with_reducible refine Keeps.ite (fun _ => ?_) (fun _ => ?_))
    | dsimp only
    | split
    | with_reducible refine Keeps.mk' ?_ rfl rfl rfl rfl rfl rfl rfl

/-- `State.startRepair` keeps it. -/
theorem Keeps.startRepair {s0 s : State} (hs : Keeps s0 s) (key : List Byte) (vrec : List Byte) (lead : Nat) : Keeps s0
    (State.startRepair s key vrec lead) := by
  unfold State.startRepair
  repeat' first
    | with_reducible assumption
    | with_reducible apply Keeps.awaitRepair
    | with_reducible apply Keeps.beginGather
    | (with_reducible refine Keeps.ite (fun _ => ?_) (fun _ => ?_))
    | dsimp only
    | split

/-- `State.override` keeps it. -/
theorem Keeps.override {s0 s : State} (hs : Keeps s0 s) (key : List Byte) (holder : Nat) : Keeps s0
    (State.override s key holder) := by
  unfold State.override
  repeat' first
    | with_reducible assumption
    | with_reducible apply Keeps.modFiron
    | (with_reducible refine Keeps.ite (fun _ => ?_) (fun _ => ?_))
    | dsimp only
    | split
    | with_reducible refine Keeps.mk' ?_ rfl rfl rfl rfl rfl rfl rfl

/-- `State.sendRepair` keeps it. -/
theorem Keeps.sendRepair {s0 s : State} (hs : Keeps s0 s) (key : List Byte) (vrec : List Byte) : Keeps s0
    (State.sendRepair s key vrec) := by
  unfold State.sendRepair
  repeat' first
    | with_reducible assumption
    | with_reducible apply Keeps.sendMsg
    | with_reducible apply Keeps.startRepair
    | (with_reducible refine Keeps.ite (fun _ => ?_) (fun _ => ?_))
    | dsimp only
    | split
    | with_reducible refine Keeps.mk' ?_ rfl rfl rfl rfl rfl rfl rfl

/-- `State.requestRepair` keeps it. -/
theorem Keeps.requestRepair {s0 s : State} (hs : Keeps s0 s) (key : List Byte) (vrec : List Byte) : Keeps s0
    (State.requestRepair s key vrec) := by
  unfold State.requestRepair
  repeat' first
    | with_reducible assumption
    | with_reducible apply Keeps.sendRepair
    | (with_reducible refine Keeps.ite (fun _ => ?_) (fun _ => ?_))
    | split

/-- `State.repairFor` keeps it. -/
theorem Keeps.repairFor {s0 s : State} (hs : Keeps s0 s) (p : Nat) : Keeps s0 (State.repairFor s p) := by
  unfold State.repairFor
  repeat' first
    | with_reducible assumption
    | with_reducible apply Keeps.awaitRepair
    | with_reducible apply Keeps.requestRepair
    | (with_reducible refine Keeps.ite (fun _ => ?_) (fun _ => ?_))
    | (with_reducible refine Keeps.foldl (fun _ _ _ => ?_) ?_)
    | dsimp only
    | split

/-- `State.retryRepairs` keeps it. -/
theorem Keeps.retryRepairs {s0 s : State} (hs : Keeps s0 s) : Keeps s0 (State.retryRepairs s) := by
  unfold State.retryRepairs
  repeat' first
    | with_reducible assumption
    | with_reducible apply Keeps.requestRepair
    | (with_reducible refine Keeps.foldl (fun _ _ _ => ?_) ?_)
    | dsimp only
    | split
    | with_reducible refine Keeps.mk' ?_ rfl rfl rfl rfl rfl rfl rfl

/-- `State.declareLost` keeps it. -/
theorem Keeps.declareLost {s0 s : State} (hs : Keeps s0 s) (p : Nat) : Keeps s0 (State.declareLost s p) := by
  unfold State.declareLost
  repeat' first
    | with_reducible assumption
    | with_reducible apply Keeps.modFiron
    | with_reducible apply Keeps.modPeer
    | with_reducible apply Keeps.record
    | with_reducible apply Keeps.repairFor
    | with_reducible apply Keeps.retryRepairs
    | with_reducible apply Keeps.settle
    | dsimp only
    | with_reducible refine Keeps.mk' ?_ rfl rfl rfl rfl rfl rfl rfl

/-- `State.countVotes` keeps it. -/
theorem Keeps.countVotes {s0 s : State} (hs : Keeps s0 s) : Keeps s0 (State.countVotes s) := by
  unfold State.countVotes
  repeat' first
    | with_reducible assumption
    | with_reducible apply Keeps.declareLost
    | with_reducible apply Keeps.modFiron
    | with_reducible apply Keeps.record
    | (with_reducible refine Keeps.ite (fun _ => ?_) (fun _ => ?_))
    | (with_reducible refine Keeps.foldl (fun _ _ _ => ?_) ?_)
    | dsimp only
    | split
    | with_reducible refine Keeps.mk' ?_ rfl rfl rfl rfl rfl rfl rfl

/-! ## QueueCmds -/

/-- `State.strayDoorbell` keeps it. -/
theorem Keeps.strayDoorbell {s0 s : State} (hs : Keeps s0 s) (port : Port) (fn : Nat) : Keeps s0
    (State.strayDoorbell s port fn) := by
  unfold State.strayDoorbell
  repeat' first
    | with_reducible assumption
    | with_reducible apply Keeps.modFp
    | dsimp only
    | with_reducible refine Keeps.mk' ?_ rfl rfl rfl rfl rfl rfl rfl

/-- `State.haltQp` keeps it. -/
theorem Keeps.haltQp {s0 s : State} (hs : Keeps s0 s) (q : QueuePair) (reason : Nat) : Keeps s0 (State.haltQp s q reason) := by
  unfold State.haltQp
  repeat' first
    | with_reducible assumption
    | with_reducible apply Keeps.asyncEvent
    | with_reducible apply Keeps.modQp
    | with_reducible apply Keeps.record
    | (with_reducible refine Keeps.ite (fun _ => ?_) (fun _ => ?_))
    | dsimp only
    | split
    | with_reducible refine Keeps.mk' ?_ rfl rfl rfl rfl rfl rfl rfl

/-- `State.sqDoorbell` keeps it. -/
theorem Keeps.sqDoorbell {s0 s : State} (hs : Keeps s0 s) (port : Port) (fn : Nat) (qid : Nat) (v : Nat) : Keeps s0
    (State.sqDoorbell s port fn qid v) := by
  unfold State.sqDoorbell
  repeat' first
    | with_reducible assumption
    | with_reducible apply Keeps.haltQp
    | with_reducible apply Keeps.modQp
    | with_reducible apply Keeps.strayDoorbell
    | (with_reducible refine Keeps.ite (fun _ => ?_) (fun _ => ?_))
    | dsimp only
    | split
    | with_reducible refine Keeps.mk' ?_ rfl rfl rfl rfl rfl rfl rfl

/-- `State.cqDoorbell` keeps it. -/
theorem Keeps.cqDoorbell {s0 s : State} (hs : Keeps s0 s) (port : Port) (fn : Nat) (qid : Nat) (v : Nat) : Keeps s0
    (State.cqDoorbell s port fn qid v) := by
  unfold State.cqDoorbell
  repeat' first
    | with_reducible assumption
    | with_reducible apply Keeps.haltQp
    | with_reducible apply Keeps.modQp
    | with_reducible apply Keeps.strayDoorbell
    | (with_reducible refine Keeps.ite (fun _ => ?_) (fun _ => ?_))
    | dsimp only
    | split
    | with_reducible refine Keeps.mk' ?_ rfl rfl rfl rfl rfl rfl rfl

/-- `State.aqEnable` keeps it. -/
theorem Keeps.aqEnable {s0 s : State} (hs : Keeps s0 s) (port : Port) (fn : Nat) (cfg : Reg) : Keeps s0
    (State.aqEnable s port fn cfg) := by
  unfold State.aqEnable
  repeat' first
    | with_reducible assumption
    | with_reducible apply Keeps.modFp
    | (with_reducible refine Keeps.ite (fun _ => ?_) (fun _ => ?_))
    | dsimp only
    | split
    | with_reducible refine Keeps.mk' ?_ rfl rfl rfl rfl rfl rfl rfl

/-- `State.dropUnstarted` keeps it. -/
theorem Keeps.dropUnstarted {s0 s : State} (hs : Keeps s0 s) (port : Port) (fn : Nat) (qid : Nat) : Keeps s0
    (State.dropUnstarted s port fn qid) := by
  unfold State.dropUnstarted
  repeat' first
    | with_reducible assumption
    | with_reducible apply Keeps.dropCmd
    | (with_reducible refine Keeps.foldl (fun _ _ _ => ?_) ?_)
    | dsimp only

/-- `State.deleteQp` keeps it. -/
theorem Keeps.deleteQp {s0 s : State} (hs : Keeps s0 s) (port : Port) (fn : Nat) (qid : Nat) (waiter : Option Nat) : Keeps
    s0 (State.deleteQp s port fn qid waiter) := by
  unfold State.deleteQp
  repeat' first
    | with_reducible assumption
    | with_reducible apply Keeps.dropUnstarted
    | with_reducible apply Keeps.modQp
    | with_reducible apply Keeps.pump
    | with_reducible apply Keeps.reap
    | dsimp only
    | with_reducible refine Keeps.mk' ?_ rfl rfl rfl rfl rfl rfl rfl

/-- `State.aqDisable` keeps it. -/
theorem Keeps.aqDisable {s0 s : State} (hs : Keeps s0 s) (port : Port) (fn : Nat) : Keeps s0 (State.aqDisable s port fn) := by
  unfold State.aqDisable
  repeat' first
    | with_reducible assumption
    | with_reducible apply Keeps.deleteQp
    | with_reducible apply Keeps.modFp
    | dsimp only
    | with_reducible refine Keeps.mk' ?_ rfl rfl rfl rfl rfl rfl rfl

/-- `State.resourceCheck` keeps it. -/
theorem Keeps.resourceCheck {s0 s : State} (hs : Keeps s0 s) (c : Cmd) : Keeps s0 (State.resourceCheck s c).2 := by
  unfold State.resourceCheck
  repeat' first
    | with_reducible assumption
    | with_reducible apply Keeps.needSpace
    | (with_reducible refine Keeps.needSpace_of (by with_reducible assumption) ?_)
    | (with_reducible refine Keeps.ite (fun _ => ?_) (fun _ => ?_))
    | dsimp only
    | split
    | with_reducible refine Keeps.mk' ?_ rfl rfl rfl rfl rfl rfl rfl

/-- `State.resourceCheck`, by its answer. -/
theorem Keeps.resourceCheck_of {s0 s : State} {c : Cmd} {a0 : Option Status} {t_ : State}
    (eq0 : State.resourceCheck s c = (a0, t_)) (hs : Keeps s0 s) : Keeps s0 t_ := by
  have k := Keeps.resourceCheck hs c
  rw [eq0] at k
  exact k

/-- `State.failFetched` keeps it. -/
theorem Keeps.failFetched {s0 s : State} (hs : Keeps s0 s) (c : Cmd) (e : CheckFail) : Keeps s0 (State.failFetched s c e) := by
  unfold State.failFetched
  repeat' first
    | with_reducible assumption
    | with_reducible apply Keeps.abortStream
    | with_reducible apply Keeps.failCheck
    | with_reducible apply Keeps.record
    | (with_reducible refine Keeps.ite (fun _ => ?_) (fun _ => ?_))
    | dsimp only
    | split

/-- `State.takeCmd` keeps it. -/
theorem Keeps.takeCmd {s0 s : State} (hs : Keeps s0 s) (port : Port) (fn : Nat) (qid : Nat) (tag : Nat) (p : Packet) :
    Keeps s0 (State.takeCmd s port fn qid tag p) := by
  unfold State.takeCmd
  repeat' first
    | with_reducible assumption
    | with_reducible apply Keeps.classify
    | with_reducible apply Keeps.modCmd
    | with_reducible apply Keeps.startCmd
    | with_reducible apply Keeps.takeSeq
    | (with_reducible refine Keeps.classify_of (by with_reducible assumption) ?_)
    | (with_reducible refine Keeps.takeSeq_of (by with_reducible assumption) ?_)
    | with_reducible exact fun _ h => h
    | with_reducible exact fun h => h
    | (with_reducible refine Keeps.getD (fun _ _ => ?_) ?_)
    | (with_reducible refine Keeps.ite (fun _ => ?_) (fun _ => ?_))
    | dsimp only
    | split
    | with_reducible refine Keeps.mk' ?_ rfl rfl rfl rfl rfl rfl rfl

/-- `State.takePacket` keeps it. -/
theorem Keeps.takePacket {s0 s : State} (hs : Keeps s0 s) (port : Port) (fn : Nat) (qid : Nat) (b : List Byte) : Keeps s0
    (State.takePacket s port fn qid b) := by
  unfold State.takePacket
  repeat' first
    | with_reducible assumption
    | with_reducible apply Keeps.failFetched
    | with_reducible apply Keeps.resourceCheck
    | with_reducible apply Keeps.takeCmd
    | (with_reducible refine Keeps.resourceCheck_of (by with_reducible assumption) ?_)
    | refine Keeps.newCmd ?_ _ rfl
    | with_reducible exact fun _ h => h
    | dsimp only
    | split
    | with_reducible refine Keeps.mk' ?_ rfl rfl rfl rfl rfl rfl rfl

/-- `State.takeTurn` keeps it. -/
theorem Keeps.takeTurn {s0 s : State} (hs : Keeps s0 s) (q : QueuePair) (n : Nat) : Keeps s0 (State.takeTurn s q n) := by
  unfold State.takeTurn
  repeat' first
    | with_reducible assumption
    | (with_reducible refine Keeps.ite (fun _ => ?_) (fun _ => ?_))
    | dsimp only
    | split
    | with_reducible refine Keeps.mk' ?_ rfl rfl rfl rfl rfl rfl rfl

/-- `State.hpCount` keeps it. -/
theorem Keeps.hpCount {s0 s : State} (hs : Keeps s0 s) (port : Port) (j : Nat) : Keeps s0 (State.hpCount s port j) := by
  unfold State.hpCount
  repeat' first
    | with_reducible assumption
    | with_reducible apply Keeps.bump

/-- `State.readError` keeps it. -/
theorem Keeps.readError {s0 s : State} (hs : Keeps s0 s) (port : Port) (fn : Nat) (error : String) (j : Nat) : Keeps s0
    (State.readError s port fn error j) := by
  unfold State.readError
  repeat' first
    | with_reducible assumption
    | with_reducible apply Keeps.emit
    | with_reducible apply Keeps.hpCount
    | with_reducible apply Keeps.emit

/-- `State.ringFails` keeps it. -/
theorem Keeps.ringFails {s0 s : State} (hs : Keeps s0 s) (port : Port) (fn : Nat) (qid : Nat) (error : String) (j : Nat) :
    Keeps s0 (State.ringFails s port fn qid error j) := by
  unfold State.ringFails
  repeat' first
    | with_reducible assumption
    | with_reducible apply Keeps.haltQp
    | with_reducible apply Keeps.readError
    | (with_reducible refine Keeps.ite (fun _ => ?_) (fun _ => ?_))
    | dsimp only
    | split
    | with_reducible refine Keeps.mk' ?_ rfl rfl rfl rfl rfl rfl rfl

/-- `State.failStarted` keeps it. -/
theorem Keeps.failStarted {s0 s : State} (hs : Keeps s0 s) (c : Cmd) (st : Status) (check : Nat) (field : Nat) : Keeps s0
    (State.failStarted s c st check field) := by
  unfold State.failStarted
  repeat' first
    | with_reducible assumption
    | with_reducible apply Keeps.failCheck
    | with_reducible apply Keeps.pumpGroup
    | with_reducible apply Keeps.tryCommit
    | (with_reducible refine Keeps.ite (fun _ => ?_) (fun _ => ?_))
    | dsimp only
    | split

/-- `State.unplace` keeps it. -/
theorem Keeps.unplace {s0 s : State} (hs : Keeps s0 s) (c : Cmd) : Keeps s0 (State.unplace s c) := by
  unfold State.unplace
  repeat' first
    | with_reducible assumption
    | with_reducible apply Keeps.modFlash
    | with_reducible apply Keeps.modStream
    | (with_reducible refine Keeps.ite (fun _ => ?_) (fun _ => ?_))
    | dsimp only
    | split
    | with_reducible refine Keeps.mk' ?_ rfl rfl rfl rfl rfl rfl rfl

/-- `State.dmaFails` keeps it. -/
theorem Keeps.dmaFails {s0 s : State} (hs : Keeps s0 s) (tag : Nat) (error : String) (j : Nat) : Keeps s0
    (State.dmaFails s tag error j) := by
  unfold State.dmaFails
  repeat' first
    | with_reducible assumption
    | with_reducible apply Keeps.failStarted
    | with_reducible apply Keeps.readError
    | with_reducible apply Keeps.unplace
    | (with_reducible refine Keeps.ite (fun _ => ?_) (fun _ => ?_))
    | dsimp only
    | split
    | with_reducible refine Keeps.mk' ?_ rfl rfl rfl rfl rfl rfl rfl

/-- `State.hostData` keeps it. -/
theorem Keeps.hostData {s0 s : State} (h : Keeps s0 s) (tag : Nat) (b : List Byte) : Keeps s0 (s.hostData tag b) := by
  unfold State.hostData
  split
  · exact h
  · rename_i c e
    split
    · exact h
    · refine Keeps.ite (fun _ => h) fun _ => Keeps.ite (fun _ => h.failStarted _ _ _ _) fun _ => ?_
      have k : Keeps s0 (s.modCmd tag fun _ =>
          { c with pages := (chunks 8 b).map leNat, want := if c.pkt.inbound then .payload else .nothing }) :=
        h.modCmd _ _ fun _ _ => (tag_of_cmd e : c.tag = tag)
      exact Keeps.ite (fun _ => Keeps.ite (fun _ => k.readPayload _) fun _ => k.failStarted _ _ _ _) fun _ => k
    · exact Keeps.ite (fun _ => h.modCmd _ _ fun _ i => i) fun _ => h

/-- `State.takeTranslation` keeps it. -/
theorem Keeps.takeTranslation {s0 s : State} (hs : Keeps s0 s) (port : Port) (fn : Nat) (page : Nat) (b : List Byte) :
    Keeps s0 (State.takeTranslation s port fn page b) := by
  unfold State.takeTranslation
  repeat' first
    | with_reducible assumption
    | with_reducible apply Keeps.modFp
    | (with_reducible refine Keeps.ite (fun _ => ?_) (fun _ => ?_))
    | dsimp only
    | split
    | with_reducible refine Keeps.mk' ?_ rfl rfl rfl rfl rfl rfl rfl

/-- `State.answerHeld` keeps it. -/
theorem Keeps.answerHeld {s0 s : State} (hs : Keeps s0 s) (c : Cmd) : Keeps s0 (State.answerHeld s c) := by
  unfold State.answerHeld
  repeat' first
    | with_reducible assumption
    | with_reducible apply Keeps.complete
    | with_reducible apply Keeps.modFp
    | dsimp only
    | split
    | with_reducible refine Keeps.mk' ?_ rfl rfl rfl rfl rfl rfl rfl

/-! ## ReadOps -/

/-- `State.beginRead` keeps it. -/
theorem Keeps.beginRead {s0 s : State} (hs : Keeps s0 s) (o : ReadFor) (sec : Nat) : Keeps s0 (State.beginRead s o sec) := by
  unfold State.beginRead
  repeat' first
    | with_reducible assumption
    | with_reducible apply Keeps.modFlash
    | (with_reducible refine Keeps.ite (fun _ => ?_) (fun _ => ?_))
    | dsimp only
    | split
    | with_reducible refine Keeps.mk' ?_ rfl rfl rfl rfl rfl rfl rfl

/-- `State.beginReads` keeps it. -/
theorem Keeps.beginReads {s0 s : State} (hs : Keeps s0 s) (o : ReadFor) (l : List Nat) : Keeps s0 (State.beginReads s o l) := by
  unfold State.beginReads
  repeat' first
    | with_reducible assumption
    | with_reducible apply Keeps.beginRead
    | with_reducible apply Keeps.serve
    | (with_reducible refine Keeps.foldl (fun _ _ _ => ?_) ?_)
    | dsimp only

/-- `State.dropRead` keeps it. -/
theorem Keeps.dropRead {s0 s : State} (hs : Keeps s0 s) (id : Nat) : Keeps s0 (State.dropRead s id) := by
  unfold State.dropRead
  repeat' first
    | with_reducible assumption
    | with_reducible apply Keeps.modFlash
    | dsimp only
    | with_reducible refine Keeps.mk' ?_ rfl rfl rfl rfl rfl rfl rfl

/-- `State.submitPiece` keeps it. -/
theorem Keeps.submitPiece {s0 s : State} (hs : Keeps s0 s) (o : RollerOwner) (tenant : Nat) (p : CodedPiece) : Keeps s0
    (State.submitPiece s o tenant p) := by
  unfold State.submitPiece
  repeat' first
    | with_reducible assumption
    | with_reducible apply Keeps.submitRoller
    | dsimp only
    | split
    | with_reducible refine Keeps.mk' ?_ rfl rfl rfl rfl rfl rfl rfl

/-- `State.beginRebuild` keeps it. -/
theorem Keeps.beginRebuild {s0 s : State} (hs : Keeps s0 s) (o : ReadFor) (sec : Nat) : Keeps s0
    (State.beginRebuild s o sec) := by
  unfold State.beginRebuild
  repeat' first
    | with_reducible assumption
    | with_reducible apply Keeps.modFlash
    | dsimp only
    | split
    | with_reducible refine Keeps.mk' ?_ rfl rfl rfl rfl rfl rfl rfl

/-- `State.beginRebuilds` keeps it. -/
theorem Keeps.beginRebuilds {s0 s : State} (hs : Keeps s0 s) (o : ReadFor) (l : List Nat) : Keeps s0
    (State.beginRebuilds s o l) := by
  unfold State.beginRebuilds
  repeat' first
    | with_reducible assumption
    | with_reducible apply Keeps.beginRebuild
    | with_reducible apply Keeps.serve
    | (with_reducible refine Keeps.foldl (fun _ _ _ => ?_) ?_)
    | dsimp only

/-- `State.dropReads` keeps it. -/
theorem Keeps.dropReads {s0 s : State} (hs : Keeps s0 s) (tag : Nat) : Keeps s0 (State.dropReads s tag) := by
  unfold State.dropReads
  repeat' first
    | with_reducible assumption
    | with_reducible apply Keeps.modFiron
    | with_reducible apply Keeps.modFlash
    | dsimp only
    | split
    | with_reducible refine Keeps.mk' ?_ rfl rfl rfl rfl rfl rfl rfl

/-- `State.finishRead` keeps it. -/
theorem Keeps.finishRead {s0 s : State} (hs : Keeps s0 s) (tag : Nat) : Keeps s0 (State.finishRead s tag) := by
  unfold State.finishRead
  repeat' first
    | with_reducible assumption
    | with_reducible apply Keeps.complete
    | with_reducible apply Keeps.deliver
    | with_reducible apply Keeps.fail
    | with_reducible apply Keeps.modFlash
    | with_reducible apply Keeps.writeBuf
    | (with_reducible refine Keeps.ite (fun _ => ?_) (fun _ => ?_))
    | dsimp only
    | split
    | with_reducible refine Keeps.mk' ?_ rfl rfl rfl rfl rfl rfl rfl

/-- `State.missPiece` keeps it. -/
theorem Keeps.missPiece {s0 s : State} (hs : Keeps s0 s) (tag : Nat) (idx : Nat) : Keeps s0 (State.missPiece s tag idx) := by
  unfold State.missPiece
  repeat' first
    | with_reducible assumption
    | with_reducible apply Keeps.modCmd
    | with_reducible exact fun _ h => h
    | with_reducible exact fun h => h
    | dsimp only
    | with_reducible refine Keeps.mk' ?_ rfl rfl rfl rfl rfl rfl rfl

/-- `State.pieceRead` keeps it. -/
theorem Keeps.pieceRead {s0 s : State} (hs : Keeps s0 s) (tag : Nat) (idx : Nat) : Keeps s0 (State.pieceRead s tag idx) := by
  unfold State.pieceRead
  repeat' first
    | with_reducible assumption
    | with_reducible apply Keeps.submitPiece
    | (with_reducible refine Keeps.ite (fun _ => ?_) (fun _ => ?_))
    | dsimp only
    | split
    | with_reducible refine Keeps.mk' ?_ rfl rfl rfl rfl rfl rfl rfl

/-- `State.sliceArrived` keeps it. -/
theorem Keeps.sliceArrived {s0 s : State} (hs : Keeps s0 s) (buf : Nat) : Keeps s0 (State.sliceArrived s buf) := by
  unfold State.sliceArrived
  repeat' first
    | with_reducible assumption
    | with_reducible apply Keeps.submitPiece
    | (with_reducible refine Keeps.ite (fun _ => ?_) (fun _ => ?_))
    | dsimp only
    | split
    | with_reducible refine Keeps.mk' ?_ rfl rfl rfl rfl rfl rfl rfl

/-- `State.sliceFailed` keeps it. -/
theorem Keeps.sliceFailed {s0 s : State} (hs : Keeps s0 s) (buf : Nat) (st : Status) : Keeps s0
    (State.sliceFailed s buf st) := by
  unfold State.sliceFailed
  repeat' first
    | with_reducible assumption
    | with_reducible apply Keeps.endJob
    | dsimp only
    | split
    | with_reducible refine Keeps.mk' ?_ rfl rfl rfl rfl rfl rfl rfl

/-- `State.gatherStep` keeps it. -/
theorem Keeps.gatherStep {s0 s : State} (hs : Keeps s0 s) (id : Nat) : Keeps s0 (State.gatherStep s id) := by
  unfold State.gatherStep
  repeat' first
    | with_reducible assumption
    | with_reducible apply Keeps.bump
    | with_reducible apply Keeps.dropGather
    | with_reducible apply Keeps.finishRead
    | with_reducible apply Keeps.holdShard
    | with_reducible apply Keeps.modCmd
    | with_reducible apply Keeps.sliceArrived
    | with_reducible apply Keeps.tick
    | with_reducible exact fun _ h => h
    | with_reducible exact fun h => h
    | (with_reducible refine Keeps.ite (fun _ => ?_) (fun _ => ?_))
    | dsimp only
    | split
    | with_reducible refine Keeps.mk' ?_ rfl rfl rfl rfl rfl rfl rfl

/-- `State.gatherSteps` keeps it. -/
theorem Keeps.gatherSteps {s0 s : State} (hs : Keeps s0 s) : Keeps s0 (State.gatherSteps s) := by
  unfold State.gatherSteps
  repeat' first
    | with_reducible assumption
    | with_reducible apply Keeps.gatherStep
    | (with_reducible refine Keeps.foldl (fun _ _ _ => ?_) ?_)

/-- `State.gatherFail` keeps it. -/
theorem Keeps.gatherFail {s0 s : State} (hs : Keeps s0 s) (g : Gather) : Keeps s0 (State.gatherFail s g) := by
  unfold State.gatherFail
  repeat' first
    | with_reducible assumption
    | with_reducible apply Keeps.bump
    | with_reducible apply Keeps.dropGather
    | with_reducible apply Keeps.dropReads
    | with_reducible apply Keeps.fail
    | with_reducible apply Keeps.sliceFailed
    | dsimp only
    | split
    | with_reducible refine Keeps.mk' ?_ rfl rfl rfl rfl rfl rfl rfl

/-! ## KeyOps -/

/-- `State.modKeys` keeps it. -/
theorem Keeps.modKeys {s0 s : State} (hs : Keeps s0 s) (f : KeyStore → KeyStore) : Keeps s0 (State.modKeys s f) := by
  unfold State.modKeys
  repeat' first
    | with_reducible assumption
    | with_reducible refine Keeps.mk' ?_ rfl rfl rfl rfl rfl rfl rfl

/-- `State.installTenant` keeps it. -/
theorem Keeps.installTenant {s0 s : State} (hs : Keeps s0 s) (p : Packet) (b : List Byte) : Keeps s0
    (State.installTenant s p b) := by
  unfold State.installTenant
  repeat' first
    | with_reducible assumption
    | with_reducible apply Keeps.modKeys
    | dsimp only
    | with_reducible refine Keeps.mk' ?_ rfl rfl rfl rfl rfl rfl rfl

/-- `State.installDevice` keeps it. -/
theorem Keeps.installDevice {s0 s : State} (hs : Keeps s0 s) (p : Packet) (b : List Byte) : Keeps s0
    (State.installDevice s p b) := by
  unfold State.installDevice
  repeat' first
    | with_reducible assumption
    | with_reducible apply Keeps.modKeys
    | (with_reducible refine Keeps.ite (fun _ => ?_) (fun _ => ?_))
    | dsimp only
    | split
    | with_reducible refine Keeps.mk' ?_ rfl rfl rfl rfl rfl rfl rfl

/-- `State.failKey` keeps it. -/
theorem Keeps.failKey {s0 s : State} (hs : Keeps s0 s) (c : Cmd) (check : Nat) (st : Status) : Keeps s0
    (State.failKey s c check st) := by
  unfold State.failKey
  repeat' first
    | with_reducible assumption
    | with_reducible apply Keeps.bump
    | with_reducible apply Keeps.fail
    | with_reducible apply Keeps.record
    | (with_reducible refine Keeps.ite (fun _ => ?_) (fun _ => ?_))
    | dsimp only
    | split

/-- `State.keyDurable` keeps it. -/
theorem Keeps.keyDurable {s0 s : State} (hs : Keeps s0 s) (tag : Nat) : Keeps s0 (State.keyDurable s tag) := by
  unfold State.keyDurable
  repeat' first
    | with_reducible assumption
    | with_reducible apply Keeps.complete
    | with_reducible apply Keeps.failKey
    | with_reducible apply Keeps.installTenant
    | dsimp only
    | split
    | with_reducible refine Keeps.mk' ?_ rfl rfl rfl rfl rfl rfl rfl

/-- `State.writeKeyRecord` keeps it. -/
theorem Keeps.writeKeyRecord {s0 s : State} (hs : Keeps s0 s) (sanitize : Bool) (tag : Nat) : Keeps s0
    (State.writeKeyRecord s sanitize tag) := by
  unfold State.writeKeyRecord
  repeat' first
    | with_reducible assumption
    | with_reducible apply Keeps.record
    | with_reducible refine Keeps.mk' ?_ rfl rfl rfl rfl rfl rfl rfl

/-! ## SectorOps -/

/-- `State.layMember` keeps it. -/
theorem Keeps.layMember {s0 s : State} (hs : Keeps s0 s) (r : Row) (slot : Nat) : Keeps s0 (State.layMember s r slot) := by
  unfold State.layMember
  repeat' first
    | with_reducible assumption
    | with_reducible apply Keeps.modFlash
    | dsimp only
    | split
    | with_reducible refine Keeps.mk' ?_ rfl rfl rfl rfl rfl rfl rfl

/-! ## MediaOps -/

/-- `State.cardPower` keeps it. -/
theorem Keeps.cardPower {s0 s : State} (hs : Keeps s0 s) (slot : Nat) (on : Bool) : Keeps s0 (State.cardPower s slot on) := by
  unfold State.cardPower
  repeat' first
    | with_reducible assumption
    | with_reducible apply Keeps.emit
    | with_reducible apply Keeps.modCard
    | with_reducible apply Keeps.emit
    | (with_reducible refine Keeps.ite (fun _ => ?_) (fun _ => ?_))
    | dsimp only
    | split
    | with_reducible refine Keeps.mk' ?_ rfl rfl rfl rfl rfl rfl rfl

/-- `State.offlinePower` keeps it. -/
theorem Keeps.offlinePower {s0 s : State} (hs : Keeps s0 s) (slot : Nat) : Keeps s0 (State.offlinePower s slot) := by
  unfold State.offlinePower
  repeat' first
    | with_reducible assumption
    | with_reducible apply Keeps.cardPower
    | with_reducible apply Keeps.syncOps
    | (with_reducible refine Keeps.ite (fun _ => ?_) (fun _ => ?_))
    | dsimp only
    | split

/-- `State.dropPart` keeps it. -/
theorem Keeps.dropPart {s0 s : State} (hs : Keeps s0 s) (c : Cmd) : Keeps s0 (State.dropPart s c) := by
  unfold State.dropPart
  repeat' first
    | with_reducible assumption
    | with_reducible apply Keeps.modStream
    | dsimp only
    | with_reducible refine Keeps.mk' ?_ rfl rfl rfl rfl rfl rfl rfl

/-- `State.voidWrite` keeps it. -/
theorem Keeps.voidWrite {s0 s : State} (hs : Keeps s0 s) (c : Cmd) : Keeps s0 (State.voidWrite s c) := by
  unfold State.voidWrite
  repeat' first
    | with_reducible assumption
    | with_reducible apply Keeps.fail
    | with_reducible apply Keeps.modFlash
    | dsimp only
    | with_reducible refine Keeps.mk' ?_ rfl rfl rfl rfl rfl rfl rfl

/-- `State.failCommitIds` keeps it. -/
theorem Keeps.failCommitIds {s0 s : State} (hs : Keeps s0 s) (ids : List Nat) : Keeps s0 (State.failCommitIds s ids) := by
  unfold State.failCommitIds
  repeat' first
    | with_reducible assumption
    | with_reducible apply Keeps.commitFail
    | with_reducible apply Keeps.pumpGroup
    | (with_reducible refine Keeps.foldl (fun _ _ _ => ?_) ?_)
    | dsimp only
    | split
    | with_reducible refine Keeps.mk' ?_ rfl rfl rfl rfl rfl rfl rfl

/-- `State.failGroup` keeps it. -/
theorem Keeps.failGroup {s0 s : State} (hs : Keeps s0 s) (g : Group) : Keeps s0 (State.failGroup s g) := by
  unfold State.failGroup
  repeat' first
    | with_reducible assumption
    | with_reducible apply Keeps.dropPart
    | with_reducible apply Keeps.fail
    | with_reducible apply Keeps.failCommitIds
    | with_reducible apply Keeps.finishJob
    | with_reducible apply Keeps.modJob
    | with_reducible apply Keeps.modSet
    | with_reducible apply Keeps.modVersion
    | with_reducible apply Keeps.pumpGroup
    | with_reducible apply Keeps.record
    | with_reducible apply Keeps.refuseShard
    | with_reducible apply Keeps.tryCommit
    | with_reducible apply Keeps.undelete
    | with_reducible apply Keeps.voidWrite
    | (with_reducible refine Keeps.getD (fun _ _ => ?_) ?_)
    | (with_reducible refine Keeps.ite (fun _ => ?_) (fun _ => ?_))
    | dsimp only
    | split
    | with_reducible refine Keeps.mk' ?_ rfl rfl rfl rfl rfl rfl rfl

/-- `State.rewriteGroup` keeps it. -/
theorem Keeps.rewriteGroup {s0 s : State} (hs : Keeps s0 s) (r : Row) (g : Group) : Keeps s0 (State.rewriteGroup s r g) := by
  unfold State.rewriteGroup
  repeat' first
    | with_reducible assumption
    | with_reducible apply Keeps.failGroup
    | with_reducible apply Keeps.placeGroup
    | (with_reducible refine Keeps.placeGroup_of (by with_reducible assumption) ?_)
    | (with_reducible refine Keeps.ite (fun _ => ?_) (fun _ => ?_))
    | dsimp only
    | split
    | with_reducible refine Keeps.mk' ?_ rfl rfl rfl rfl rfl rfl rfl

/-- `State.closeSet` keeps it. -/
theorem Keeps.closeSet {s0 s : State} (hs : Keeps s0 s) (no : Nat) : Keeps s0 (State.closeSet s no) := by
  unfold State.closeSet
  repeat' first
    | with_reducible assumption
    | with_reducible apply Keeps.failGroup
    | with_reducible apply Keeps.modFlash
    | with_reducible apply Keeps.modSet
    | with_reducible apply Keeps.placeGroup
    | (with_reducible refine Keeps.placeGroup_of (by with_reducible assumption) ?_)
    | (with_reducible refine Keeps.foldl (fun _ _ _ => ?_) ?_)
    | dsimp only
    | split
    | with_reducible refine Keeps.mk' ?_ rfl rfl rfl rfl rfl rfl rfl

/-- `State.rowFailed` keeps it. -/
theorem Keeps.rowFailed {s0 s : State} (hs : Keeps s0 s) (id : Nat) : Keeps s0 (State.rowFailed s id) := by
  unfold State.rowFailed
  repeat' first
    | with_reducible assumption
    | with_reducible apply Keeps.closeSet
    | with_reducible apply Keeps.modRow
    | with_reducible apply Keeps.modSet
    | with_reducible apply Keeps.rewriteGroup
    | (with_reducible refine Keeps.ite (fun _ => ?_) (fun _ => ?_))
    | (with_reducible refine Keeps.foldl (fun _ _ _ => ?_) ?_)
    | dsimp only
    | split
    | with_reducible refine Keeps.mk' ?_ rfl rfl rfl rfl rfl rfl rfl

/-- `State.summarise` keeps it. -/
theorem Keeps.summarise {s0 s : State} (hs : Keeps s0 s) (no : Nat) : Keeps s0 (State.summarise s no) := by
  unfold State.summarise
  repeat' first
    | with_reducible assumption
    | with_reducible apply Keeps.issueRow
    | with_reducible apply Keeps.modFlash
    | (with_reducible refine Keeps.ite (fun _ => ?_) (fun _ => ?_))
    | dsimp only
    | split
    | with_reducible refine Keeps.mk' ?_ rfl rfl rfl rfl rfl rfl rfl

/-- `State.endRow` keeps it. -/
theorem Keeps.endRow {s0 s : State} (hs : Keeps s0 s) (id : Nat) : Keeps s0 (State.endRow s id) := by
  unfold State.endRow
  repeat' first
    | with_reducible assumption
    | with_reducible apply Keeps.modFlash
    | (with_reducible refine Keeps.ite (fun _ => ?_) (fun _ => ?_))
    | dsimp only
    | split
    | with_reducible refine Keeps.mk' ?_ rfl rfl rfl rfl rfl rfl rfl

/-- `State.programFails` keeps it. -/
theorem Keeps.programFails {s0 s : State} (hs : Keeps s0 s) (id : Nat) (slot : Nat) : Keeps s0
    (State.programFails s id slot) := by
  unfold State.programFails
  repeat' first
    | with_reducible assumption
    | with_reducible apply Keeps.endRow
    | with_reducible apply Keeps.modFlash
    | with_reducible apply Keeps.modRow
    | with_reducible apply Keeps.rowFailed
    | (with_reducible refine Keeps.ite (fun _ => ?_) (fun _ => ?_))
    | dsimp only
    | split
    | with_reducible refine Keeps.mk' ?_ rfl rfl rfl rfl rfl rfl rfl

/-- `State.purge` keeps it. -/
theorem Keeps.purge {s0 s : State} (hs : Keeps s0 s) : Keeps s0 (State.purge s) := by
  unfold State.purge
  repeat' first
    | with_reducible assumption
    | dsimp only
    | with_reducible refine Keeps.mk' ?_ rfl rfl rfl rfl rfl rfl rfl

/-- `State.retireBlock` keeps it. -/
theorem Keeps.retireBlock {s0 s : State} (hs : Keeps s0 s) (m : Member) : Keeps s0 (State.retireBlock s m) := by
  unfold State.retireBlock
  repeat' first
    | with_reducible assumption
    | with_reducible apply Keeps.bump
    | with_reducible apply Keeps.modCard
    | with_reducible apply Keeps.modFlash
    | with_reducible apply Keeps.record
    | with_reducible apply Keeps.writeRoots
    | dsimp only
    | with_reducible refine Keeps.mk' ?_ rfl rfl rfl rfl rfl rfl rfl

/-- `State.unstall` keeps it. -/
theorem Keeps.unstall {s0 s : State} (hs : Keeps s0 s) : Keeps s0 (State.unstall s) := by
  unfold State.unstall
  repeat' first
    | with_reducible assumption
    | with_reducible apply Keeps.failGroup
    | with_reducible apply Keeps.modFlash
    | with_reducible apply Keeps.placeGroup
    | (with_reducible refine Keeps.placeGroup_of (by with_reducible assumption) ?_)
    | (with_reducible refine Keeps.ite (fun _ => ?_) (fun _ => ?_))
    | (with_reducible refine Keeps.foldl (fun _ _ _ => ?_) ?_)
    | dsimp only
    | split
    | with_reducible refine Keeps.mk' ?_ rfl rfl rfl rfl rfl rfl rfl

/-- `State.freeSet` keeps it. -/
theorem Keeps.freeSet {s0 s : State} (hs : Keeps s0 s) (no : Nat) : Keeps s0 (State.freeSet s no) := by
  unfold State.freeSet
  repeat' first
    | with_reducible assumption
    | with_reducible apply Keeps.bump
    | with_reducible apply Keeps.clearWear
    | with_reducible apply Keeps.modFlash
    | with_reducible apply Keeps.purge
    | with_reducible apply Keeps.serve
    | with_reducible apply Keeps.settle
    | with_reducible apply Keeps.unstall
    | with_reducible apply Keeps.writeRoots
    | (with_reducible refine Keeps.ite (fun _ => ?_) (fun _ => ?_))
    | dsimp only
    | split
    | with_reducible refine Keeps.mk' ?_ rfl rfl rfl rfl rfl rfl rfl

/-- `State.eraseSet` keeps it. -/
theorem Keeps.eraseSet {s0 s : State} (hs : Keeps s0 s) (no : Nat) : Keeps s0 (State.eraseSet s no) := by
  unfold State.eraseSet
  repeat' first
    | with_reducible assumption
    | with_reducible apply Keeps.freeSet
    | with_reducible apply Keeps.modSet
    | with_reducible apply Keeps.serve
    | (with_reducible refine Keeps.ite (fun _ => ?_) (fun _ => ?_))
    | dsimp only
    | split
    | with_reducible refine Keeps.mk' ?_ rfl rfl rfl rfl rfl rfl rfl

/-- `State.tryErase` keeps it. -/
theorem Keeps.tryErase {s0 s : State} (hs : Keeps s0 s) (no : Nat) : Keeps s0 (State.tryErase s no) := by
  unfold State.tryErase
  repeat' first
    | with_reducible assumption
    | with_reducible apply Keeps.eraseSet
    | (with_reducible refine Keeps.ite (fun _ => ?_) (fun _ => ?_))
    | dsimp only
    | split
    | with_reducible refine Keeps.mk' ?_ rfl rfl rfl rfl rfl rfl rfl

/-- `State.tryErases` keeps it. -/
theorem Keeps.tryErases {s0 s : State} (hs : Keeps s0 s) : Keeps s0 (State.tryErases s) := by
  unfold State.tryErases
  repeat' first
    | with_reducible assumption
    | with_reducible apply Keeps.tryErase
    | (with_reducible refine Keeps.foldl (fun _ _ _ => ?_) ?_)

/-- `State.relist` keeps it. -/
theorem Keeps.relist {s0 s : State} (hs : Keeps s0 s) (batch : Nat) (qos : Nat) (p : Version → Bool) : Keeps s0
    (State.relist s batch qos p) := by
  unfold State.relist
  repeat' first
    | with_reducible assumption
    | with_reducible apply Keeps.placeList
    | with_reducible apply Keeps.takeSeq
    | (with_reducible refine Keeps.placeList_of (by with_reducible assumption) ?_)
    | (with_reducible refine Keeps.takeSeq_of (by with_reducible assumption) ?_)
    | (with_reducible refine Keeps.getD (fun _ _ => ?_) ?_)
    | (with_reducible refine Keeps.foldl (fun _ _ _ => ?_) ?_)
    | dsimp only

/-- `State.placeCopies` keeps it. -/
theorem Keeps.placeCopies {s0 s : State} (h : Keeps s0 s) (no : Nat) : Keeps s0 (s.placeCopies no) := by
  unfold State.placeCopies
  split
  · exact h
  · dsimp only
    have k := fun b q p => Keeps.relist h b q p
    split
    · rename_i t e
      refine Keeps.tryErase ?_ _
      refine KeepsO.foldl (p := fun t => t) ?_ (KeepsO.some (k _ _ _)) t e
      intro acc g ha
      refine KeepsO.bind fun a k => ?_
      exact (Keeps.newGroup (ha _ k)).placeGroup _ _ _ _
    · exact (k _ _ _).modSet _ _

/-- `State.switchCopies` keeps it. -/
theorem Keeps.switchCopies {s0 s : State} (hs : Keeps s0 s) (batch : Nat) (qos : Nat) (pairs : List (Nat × Nat)) : Keeps s0
    (State.switchCopies s batch qos pairs) := by
  unfold State.switchCopies
  repeat' first
    | with_reducible assumption
    | with_reducible apply Keeps.modFiron
    | with_reducible apply Keeps.relist
    | dsimp only
    | split
    | with_reducible refine Keeps.mkMap ?_ rfl rfl rfl rfl rfl rfl rfl (fun _ => rfl)
    | with_reducible refine Keeps.mk' ?_ rfl rfl rfl rfl rfl rfl rfl

/-- `State.modDie` keeps it. -/
theorem Keeps.modDie {s0 s : State} (hs : Keeps s0 s) (key : Nat) (f : Die → Die) : Keeps s0 (State.modDie s key f) := by
  unfold State.modDie
  repeat' first
    | with_reducible assumption
    | with_reducible apply Keeps.modFlash
    | dsimp only
    | with_reducible refine Keeps.mk' ?_ rfl rfl rfl rfl rfl rfl rfl

/-- `State.loseUnits` keeps it. -/
theorem Keeps.loseUnits {s0 s : State} (hs : Keeps s0 s) (hit : Member → Bool) (running : Bool) : Keeps s0
    (State.loseUnits s hit running) := by
  unfold State.loseUnits
  repeat' first
    | with_reducible assumption
    | with_reducible apply Keeps.closeSet
    | with_reducible apply Keeps.modFlash
    | with_reducible apply Keeps.programFails
    | with_reducible apply Keeps.serve
    | (with_reducible refine Keeps.getD (fun _ _ => ?_) ?_)
    | (with_reducible refine Keeps.ite (fun _ => ?_) (fun _ => ?_))
    | (with_reducible refine Keeps.foldl (fun _ _ _ => ?_) ?_)
    | dsimp only
    | split
    | with_reducible refine Keeps.mk' ?_ rfl rfl rfl rfl rfl rfl rfl

/-- `State.cardLeaves` keeps it. -/
theorem Keeps.cardLeaves {s0 s : State} (hs : Keeps s0 s) (slot : Nat) (running : Bool) : Keeps s0
    (State.cardLeaves s slot running) := by
  unfold State.cardLeaves
  repeat' first
    | with_reducible assumption
    | with_reducible apply Keeps.freeSet
    | with_reducible apply Keeps.loseUnits
    | with_reducible apply Keeps.settle
    | with_reducible apply Keeps.takeUsable
    | (with_reducible refine Keeps.foldl (fun _ _ _ => ?_) ?_)
    | dsimp only

/-- `State.failCard` keeps it. -/
theorem Keeps.failCard {s0 s : State} (hs : Keeps s0 s) (slot : Nat) (cause : Nat) : Keeps s0 (State.failCard s slot cause)
    := by
  unfold State.failCard
  repeat' first
    | with_reducible assumption
    | with_reducible apply Keeps.cardLeaves
    | with_reducible apply Keeps.cardPower
    | with_reducible apply Keeps.modCard
    | with_reducible apply Keeps.record
    | (with_reducible refine Keeps.ite (fun _ => ?_) (fun _ => ?_))
    | dsimp only
    | split
    | with_reducible refine Keeps.mk' ?_ rfl rfl rfl rfl rfl rfl rfl

/-- `State.failDie` keeps it. -/
theorem Keeps.failDie {s0 s : State} (hs : Keeps s0 s) (slot : Nat) (chan : Nat) (die : Nat) : Keeps s0
    (State.failDie s slot chan die) := by
  unfold State.failDie
  repeat' first
    | with_reducible assumption
    | with_reducible apply Keeps.failCard
    | with_reducible apply Keeps.freeSet
    | with_reducible apply Keeps.loseUnits
    | with_reducible apply Keeps.modDie
    | with_reducible apply Keeps.modFlash
    | with_reducible apply Keeps.record
    | with_reducible apply Keeps.settle
    | (with_reducible refine Keeps.ite (fun _ => ?_) (fun _ => ?_))
    | (with_reducible refine Keeps.foldl (fun _ _ _ => ?_) ?_)
    | dsimp only
    | split
    | with_reducible refine Keeps.mk' ?_ rfl rfl rfl rfl rfl rfl rfl

/-- `State.dieResult` keeps it. -/
theorem Keeps.dieResult {s0 s : State} (hs : Keeps s0 s) (m : Member) (ok : Bool) : Keeps s0 (State.dieResult s m ok) := by
  unfold State.dieResult
  repeat' first
    | with_reducible assumption
    | with_reducible apply Keeps.failDie
    | with_reducible apply Keeps.modDie
    | (with_reducible refine Keeps.ite (fun _ => ?_) (fun _ => ?_))
    | dsimp only
    | split
    | with_reducible refine Keeps.mk' ?_ rfl rfl rfl rfl rfl rfl rfl

/-- `State.readDelivered` keeps it. -/
theorem Keeps.readDelivered {s0 s : State} (hs : Keeps s0 s) (r : FlashRead) : Keeps s0 (State.readDelivered s r) := by
  unfold State.readDelivered
  repeat' first
    | with_reducible assumption
    | with_reducible apply Keeps.dropRead
    | with_reducible apply Keeps.finishRead
    | with_reducible apply Keeps.modCmd
    | with_reducible apply Keeps.pieceRead
    | with_reducible apply Keeps.placeCopies
    | with_reducible apply Keeps.pump
    | with_reducible apply Keeps.reap
    | with_reducible apply Keeps.sliceArrived
    | with_reducible exact fun _ h => h
    | with_reducible exact fun h => h
    | (with_reducible refine Keeps.ite (fun _ => ?_) (fun _ => ?_))
    | dsimp only
    | split
    | with_reducible refine Keeps.mk' ?_ rfl rfl rfl rfl rfl rfl rfl

/-- `State.readLost` keeps it. -/
theorem Keeps.readLost {s0 s : State} (hs : Keeps s0 s) (r : FlashRead) : Keeps s0 (State.readLost s r) := by
  unfold State.readLost
  repeat' first
    | with_reducible assumption
    | with_reducible apply Keeps.bump
    | with_reducible apply Keeps.dropRead
    | with_reducible apply Keeps.finishRead
    | with_reducible apply Keeps.missPiece
    | with_reducible apply Keeps.modCard
    | with_reducible apply Keeps.modFlash
    | with_reducible apply Keeps.modSet
    | with_reducible apply Keeps.pump
    | with_reducible apply Keeps.reap
    | with_reducible apply Keeps.record
    | with_reducible apply Keeps.sliceFailed
    | dsimp only
    | split
    | with_reducible refine Keeps.mk' ?_ rfl rfl rfl rfl rfl rfl rfl

/-- `State.rebuilt` keeps it. -/
theorem Keeps.rebuilt {s0 s : State} (hs : Keeps s0 s) (r : FlashRead) : Keeps s0 (State.rebuilt s r) := by
  unfold State.rebuilt
  repeat' first
    | with_reducible assumption
    | with_reducible apply Keeps.bump
    | with_reducible apply Keeps.modFlash
    | with_reducible apply Keeps.readDelivered
    | dsimp only
    | with_reducible refine Keeps.mk' ?_ rfl rfl rfl rfl rfl rfl rfl

/-- `State.countStep` keeps it. -/
theorem Keeps.countStep {s0 s : State} (hs : Keeps s0 s) (step : Nat) (rr : Nat) : Keeps s0 (State.countStep s step rr) := by
  unfold State.countStep
  repeat' first
    | with_reducible assumption
    | with_reducible apply Keeps.bump
    | with_reducible apply Keeps.modFlash
    | (with_reducible refine Keeps.ite (fun _ => ?_) (fun _ => ?_))
    | dsimp only
    | split
    | with_reducible refine Keeps.mk' ?_ rfl rfl rfl rfl rfl rfl rfl

/-- `State.ladderOk` keeps it. -/
theorem Keeps.ladderOk {s0 s : State} (hs : Keeps s0 s) (r : FlashRead) (x : Sector) (rr : Nat) : Keeps s0
    (State.ladderOk s r x rr) := by
  unfold State.ladderOk
  repeat' first
    | with_reducible assumption
    | with_reducible apply Keeps.modDie
    | with_reducible apply Keeps.modFlash
    | with_reducible apply Keeps.readDelivered
    | (with_reducible refine Keeps.ite (fun _ => ?_) (fun _ => ?_))
    | dsimp only
    | split
    | with_reducible refine Keeps.mk' ?_ rfl rfl rfl rfl rfl rfl rfl

/-- `State.setRead` keeps it. -/
theorem Keeps.setRead {s0 s : State} (hs : Keeps s0 s) (r : FlashRead) : Keeps s0 (State.setRead s r) := by
  unfold State.setRead
  repeat' first
    | with_reducible assumption
    | with_reducible apply Keeps.modFlash
    | with_reducible apply Keeps.serve
    | dsimp only
    | with_reducible refine Keeps.mk' ?_ rfl rfl rfl rfl rfl rfl rfl

/-- `State.ladderNext` keeps it. -/
theorem Keeps.ladderNext {s0 s : State} (hs : Keeps s0 s) (r : FlashRead) (x : Sector) (rr : Nat) : Keeps s0
    (State.ladderNext s r x rr) := by
  unfold State.ladderNext
  repeat' first
    | with_reducible assumption
    | with_reducible apply Keeps.modDie
    | with_reducible apply Keeps.rebuilt
    | with_reducible apply Keeps.setRead
    | with_reducible apply Keeps.tick
    | (with_reducible refine Keeps.ite (fun _ => ?_) (fun _ => ?_))
    | dsimp only
    | split
    | with_reducible refine Keeps.mk' ?_ rfl rfl rfl rfl rfl rfl rfl

/-- `State.readDone` keeps it. -/
theorem Keeps.readDone {s0 s : State} (hs : Keeps s0 s) (r : FlashRead) (ok : Bool) : Keeps s0 (State.readDone s r ok) := by
  unfold State.readDone
  repeat' first
    | with_reducible assumption
    | with_reducible apply Keeps.countStep
    | with_reducible apply Keeps.dropRead
    | with_reducible apply Keeps.ladderNext
    | with_reducible apply Keeps.ladderOk
    | with_reducible apply Keeps.offlinePower
    | with_reducible apply Keeps.readLost
    | with_reducible apply Keeps.rebuilt
    | with_reducible apply Keeps.serve
    | with_reducible apply Keeps.tryErases
    | (with_reducible refine Keeps.ite (fun _ => ?_) (fun _ => ?_))
    | dsimp only
    | split
    | with_reducible refine Keeps.mk' ?_ rfl rfl rfl rfl rfl rfl rfl

/-- `State.toParity` keeps it. -/
theorem Keeps.toParity {s0 s : State} (hs : Keeps s0 s) (r : FlashRead) (alone : Bool) : Keeps s0
    (State.toParity s r alone) := by
  unfold State.toParity
  repeat' first
    | with_reducible assumption
    | with_reducible apply Keeps.setRead
    | (with_reducible refine Keeps.ite (fun _ => ?_) (fun _ => ?_))
    | dsimp only
    | split
    | with_reducible refine Keeps.mk' ?_ rfl rfl rfl rfl rfl rfl rfl

/-- `State.commitJobOut` keeps it. -/
theorem Keeps.commitJobOut {s0 s : State} (hs : Keeps s0 s) (slot : Nat) : Keeps s0 (State.commitJobOut s slot) := by
  unfold State.commitJobOut
  repeat' first
    | with_reducible assumption
    | with_reducible apply Keeps.addCommit
    | with_reducible apply Keeps.failOwner
    | with_reducible apply Keeps.modJob
    | with_reducible apply Keeps.pumpGroup
    | (with_reducible refine Keeps.addCommit_of (by with_reducible assumption) ?_)
    | (with_reducible refine Keeps.ite (fun _ => ?_) (fun _ => ?_))
    | dsimp only
    | split
    | with_reducible refine Keeps.mk' ?_ rfl rfl rfl rfl rfl rfl rfl

/-- `State.shardPlaced` keeps it. -/
theorem Keeps.shardPlaced {s0 s : State} (hs : Keeps s0 s) (key : List Byte) (ids : List Nat) : Keeps s0
    (State.shardPlaced s key ids) := by
  unfold State.shardPlaced
  repeat' first
    | with_reducible assumption
    | with_reducible apply Keeps.bump
    | with_reducible apply Keeps.modFiron
    | with_reducible apply Keeps.modShard
    | with_reducible apply Keeps.override
    | with_reducible apply Keeps.pumpGroup
    | with_reducible apply Keeps.sendMsg
    | with_reducible apply Keeps.settle
    | with_reducible apply Keeps.shardStatus
    | (with_reducible refine Keeps.foldl (fun _ _ _ => ?_) ?_)
    | dsimp only
    | split
    | with_reducible refine Keeps.mk' ?_ rfl rfl rfl rfl rfl rfl rfl

/-- `State.groupOff` keeps it. -/
theorem Keeps.groupOff {s0 s : State} (hs : Keeps s0 s) (tag : Nat) (id : Nat) : Keeps s0 (State.groupOff s tag id) := by
  unfold State.groupOff
  repeat' first
    | with_reducible assumption
    | with_reducible apply Keeps.modCmd
    | with_reducible exact fun _ h => h
    | with_reducible exact fun h => h
    | dsimp only
    | with_reducible refine Keeps.mk' ?_ rfl rfl rfl rfl rfl rfl rfl

/-- `State.appendDurable` keeps it. -/
theorem Keeps.appendDurable {s0 s : State} (hs : Keeps s0 s) (c : Cmd) (g : Group) (first : Nat) : Keeps s0
    (State.appendDurable s c g first) := by
  unfold State.appendDurable
  repeat' first
    | with_reducible assumption
    | with_reducible apply Keeps.complete
    | with_reducible apply Keeps.groupOff
    | with_reducible apply Keeps.modFlash
    | with_reducible apply Keeps.modStream
    | with_reducible apply Keeps.pumpGroup
    | with_reducible apply Keeps.tryCommit
    | (with_reducible refine Keeps.ite (fun _ => ?_) (fun _ => ?_))
    | dsimp only
    | split
    | with_reducible refine Keeps.mk' ?_ rfl rfl rfl rfl rfl rfl rfl

/-- `State.groupDurable` keeps it. -/
theorem Keeps.groupDurable {s0 s : State} (hs : Keeps s0 s) (g : Group) (first : Nat) : Keeps s0
    (State.groupDurable s g first) := by
  unfold State.groupDurable
  repeat' first
    | with_reducible assumption
    | with_reducible apply Keeps.appendDurable
    | with_reducible apply Keeps.commitJobOut
    | with_reducible apply Keeps.keyDurable
    | with_reducible apply Keeps.modCmd
    | with_reducible apply Keeps.modJob
    | with_reducible apply Keeps.modVersion
    | with_reducible apply Keeps.pump
    | with_reducible apply Keeps.pumpGroup
    | with_reducible apply Keeps.reap
    | with_reducible apply Keeps.record
    | with_reducible apply Keeps.recordDurable
    | with_reducible apply Keeps.shardPlaced
    | with_reducible apply Keeps.switchCopies
    | with_reducible exact fun _ h => h
    | with_reducible exact fun h => h
    | (with_reducible refine Keeps.getD (fun _ _ => ?_) ?_)
    | (with_reducible refine Keeps.ite (fun _ => ?_) (fun _ => ?_))
    | dsimp only
    | split
    | with_reducible refine Keeps.mk' ?_ rfl rfl rfl rfl rfl rfl rfl

/-- `State.rowDurable` keeps it. -/
theorem Keeps.rowDurable {s0 s : State} (hs : Keeps s0 s) (r : Row) (x : StripeSet) (geo : CardInfo) : Keeps s0
    (State.rowDurable s r x geo) := by
  unfold State.rowDurable
  repeat' first
    | with_reducible assumption
    | with_reducible apply Keeps.groupDurable
    | with_reducible apply Keeps.modFlash
    | with_reducible apply Keeps.modSet
    | with_reducible apply Keeps.serve
    | with_reducible apply Keeps.summarise
    | with_reducible apply Keeps.tryErases
    | (with_reducible refine Keeps.foldlSnd (fun _ _ _ => ?_) ?_)
    | (with_reducible refine Keeps.ite (fun _ => ?_) (fun _ => ?_))
    | (with_reducible refine Keeps.foldl (fun _ _ _ => ?_) ?_)
    | dsimp only
    | split
    | with_reducible refine Keeps.mk' ?_ rfl rfl rfl rfl rfl rfl rfl

/-! ## TenantOps -/

/-- `State.reopen` keeps it. -/
theorem Keeps.reopen {s0 s : State} (hs : Keeps s0 s) (c : Cmd) : Keeps s0 (State.reopen s c) := by
  unfold State.reopen
  repeat' first
    | with_reducible assumption
    | with_reducible apply Keeps.modStream
    | (with_reducible refine Keeps.ite (fun _ => ?_) (fun _ => ?_))
    | dsimp only
    | split
    | with_reducible refine Keeps.mk' ?_ rfl rfl rfl rfl rfl rfl rfl

/-- `State.resetCmd` keeps it. -/
theorem Keeps.resetCmd {s0 s : State} (hs : Keeps s0 s) (c : Cmd) : Keeps s0 (State.resetCmd s c) := by
  unfold State.resetCmd
  repeat' first
    | with_reducible assumption
    | with_reducible apply Keeps.dropCmd
    | with_reducible apply Keeps.modCmd
    | with_reducible apply Keeps.reopen
    | with_reducible exact fun _ h => h
    | with_reducible exact fun h => h
    | (with_reducible refine Keeps.ite (fun _ => ?_) (fun _ => ?_))
    | dsimp only
    | split
    | with_reducible refine Keeps.mk' ?_ rfl rfl rfl rfl rfl rfl rfl

/-- `State.resetJob` keeps it. -/
theorem Keeps.resetJob {s0 s : State} (hs : Keeps s0 s) (slot : Nat) : Keeps s0 (State.resetJob s slot) := by
  unfold State.resetJob
  repeat' first
    | with_reducible assumption
    | with_reducible apply Keeps.dropJobCommit
    | with_reducible apply Keeps.killJob

/-- `State.pathReset` keeps it. -/
theorem Keeps.pathReset {s0 s : State} (hs : Keeps s0 s) (port : Port) (n : Nat) : Keeps s0 (State.pathReset s port n) := by
  unfold State.pathReset
  repeat' first
    | with_reducible assumption
    | with_reducible apply Keeps.closeCtx
    | with_reducible apply Keeps.dropHeld
    | with_reducible apply Keeps.modFp
    | with_reducible apply Keeps.pruneVersions
    | with_reducible apply Keeps.pump
    | with_reducible apply Keeps.pumpGroup
    | with_reducible apply Keeps.reap
    | with_reducible apply Keeps.resetCmd
    | with_reducible apply Keeps.resetJob
    | with_reducible apply Keeps.sweepCommitted
    | with_reducible apply Keeps.tryCommit
    | (with_reducible refine Keeps.foldl (fun _ _ _ => ?_) ?_)
    | dsimp only
    | split
    | with_reducible refine Keeps.mk' ?_ rfl rfl rfl rfl rfl rfl rfl

/-- `State.mgmtReset` keeps it. -/
theorem Keeps.mgmtReset {s0 s : State} (hs : Keeps s0 s) (port : Port) : Keeps s0 (State.mgmtReset s port) := by
  unfold State.mgmtReset
  repeat' first
    | with_reducible assumption
    | with_reducible apply Keeps.dropCmd
    | with_reducible apply Keeps.dropHeld
    | with_reducible apply Keeps.modCmd
    | with_reducible apply Keeps.modFp
    | with_reducible apply Keeps.pump
    | with_reducible apply Keeps.reap
    | with_reducible exact fun _ h => h
    | with_reducible exact fun h => h
    | (with_reducible refine Keeps.ite (fun _ => ?_) (fun _ => ?_))
    | (with_reducible refine Keeps.foldl (fun _ _ _ => ?_) ?_)
    | dsimp only
    | split
    | with_reducible refine Keeps.mk' ?_ rfl rfl rfl rfl rfl rfl rfl

/-- `State.setVfs` keeps it. -/
theorem Keeps.setVfs {s0 s : State} (hs : Keeps s0 s) (port : Port) (enable : Bool) (num : Nat) : Keeps s0
    (State.setVfs s port enable num) := by
  unfold State.setVfs
  repeat' first
    | with_reducible assumption
    | with_reducible apply Keeps.modFp
    | with_reducible apply Keeps.modHp
    | with_reducible apply Keeps.pathReset
    | (with_reducible refine Keeps.foldl (fun _ _ _ => ?_) ?_)
    | dsimp only
    | with_reducible refine Keeps.mk' ?_ rfl rfl rfl rfl rfl rfl rfl

/-- `State.flrMgmt` keeps it. -/
theorem Keeps.flrMgmt {s0 s : State} (hs : Keeps s0 s) (port : Port) : Keeps s0 (State.flrMgmt s port) := by
  unfold State.flrMgmt
  repeat' first
    | with_reducible assumption
    | with_reducible apply Keeps.mgmtReset
    | with_reducible apply Keeps.modFp
    | with_reducible apply Keeps.modHp
    | with_reducible apply Keeps.setVfs
    | dsimp only
    | with_reducible refine Keeps.mk' ?_ rfl rfl rfl rfl rfl rfl rfl

/-- `State.notifyReset` keeps it. -/
theorem Keeps.notifyReset {s0 s : State} (hs : Keeps s0 s) (n : Nat) : Keeps s0 (State.notifyReset s n) := by
  unfold State.notifyReset
  repeat' first
    | with_reducible assumption
    | with_reducible apply Keeps.finish
    | (with_reducible refine Keeps.foldl (fun _ _ _ => ?_) ?_)
    | dsimp only

/-- `State.tenantReset` keeps it. -/
theorem Keeps.tenantReset {s0 s : State} (hs : Keeps s0 s) (n : Nat) (notify : Bool) : Keeps s0
    (State.tenantReset s n notify) := by
  unfold State.tenantReset
  repeat' first
    | with_reducible assumption
    | with_reducible apply Keeps.abortStream
    | with_reducible apply Keeps.bump
    | with_reducible apply Keeps.modFp
    | with_reducible apply Keeps.modTenant
    | with_reducible apply Keeps.notifyReset
    | with_reducible apply Keeps.pathReset
    | with_reducible apply Keeps.pruneVersions
    | with_reducible apply Keeps.pumpGroup
    | with_reducible apply Keeps.resetJob
    | (with_reducible refine Keeps.ite (fun _ => ?_) (fun _ => ?_))
    | (with_reducible refine Keeps.foldl (fun _ _ _ => ?_) ?_)
    | dsimp only
    | split
    | with_reducible refine Keeps.mk' ?_ rfl rfl rfl rfl rfl rfl rfl

/-- `State.applySettings` keeps it. -/
theorem Keeps.applySettings {s0 s : State} (hs : Keeps s0 s) (n : Nat) : Keeps s0 (State.applySettings s n).2 := by
  unfold State.applySettings
  repeat' first
    | with_reducible assumption
    | with_reducible apply Keeps.modTenant
    | with_reducible apply Keeps.sizeRegion
    | dsimp only
    | split
    | with_reducible refine Keeps.mk' ?_ rfl rfl rfl rfl rfl rfl rfl

/-- Settings that `State.applySettings` applies keep it. -/
theorem Keeps.applySettings_some {s0 s t u : State} (h : Keeps s0 s) {n : Nat} (e : s.applySettings n = (some t, u)) :
    Keeps s0 t := by
  unfold State.applySettings at e
  split at e
  · cases e
  · cases e
    exact (h.modTenant _ _).sizeRegion _ _

/-- `State.applySettings`, by its answer. -/
theorem Keeps.applySettings_of {s0 s : State} {n : Nat} {a0 : Option State} {t_ : State}
    (eq0 : State.applySettings s n = (a0, t_)) (hs : Keeps s0 s) : Keeps s0 t_ := by
  have k := Keeps.applySettings hs n
  rw [eq0] at k
  exact k

/-! ## ModeCmds -/

/-- `State.answerMode` keeps it. -/
theorem Keeps.answerMode {s0 s : State} (hs : Keeps s0 s) (tag : Nat) : Keeps s0 (State.answerMode s tag) := by
  unfold State.answerMode
  repeat' first
    | with_reducible assumption
    | with_reducible apply Keeps.complete
    | dsimp only
    | split
    | with_reducible refine Keeps.mk' ?_ rfl rfl rfl rfl rfl rfl rfl

/-- `State.answerMaint` keeps it. -/
theorem Keeps.answerMaint {s0 s : State} (hs : Keeps s0 s) : Keeps s0 (State.answerMaint s) := by
  unfold State.answerMaint
  repeat' first
    | with_reducible assumption
    | with_reducible apply Keeps.answerMode
    | with_reducible apply Keeps.modModes
    | (with_reducible refine Keeps.ite (fun _ => ?_) (fun _ => ?_))
    | (with_reducible refine Keeps.foldl (fun _ _ _ => ?_) ?_)
    | dsimp only
    | split
    | with_reducible refine Keeps.mk' ?_ rfl rfl rfl rfl rfl rfl rfl

/-- `State.answerQuiesce` keeps it. -/
theorem Keeps.answerQuiesce {s0 s : State} (hs : Keeps s0 s) : Keeps s0 (State.answerQuiesce s) := by
  unfold State.answerQuiesce
  repeat' first
    | with_reducible assumption
    | with_reducible apply Keeps.answerMode
    | with_reducible apply Keeps.modModes
    | (with_reducible refine Keeps.foldl (fun _ _ _ => ?_) ?_)
    | dsimp only
    | with_reducible refine Keeps.mk' ?_ rfl rfl rfl rfl rfl rfl rfl

/-- `State.endQuiesce` keeps it. -/
theorem Keeps.endQuiesce {s0 s : State} (hs : Keeps s0 s) : Keeps s0 (State.endQuiesce s) := by
  unfold State.endQuiesce
  repeat' first
    | with_reducible assumption
    | with_reducible apply Keeps.answerMaint
    | with_reducible apply Keeps.answerQuiesce
    | with_reducible apply Keeps.modModes
    | with_reducible apply Keeps.pump
    | with_reducible apply Keeps.settle
    | dsimp only
    | with_reducible refine Keeps.mk' ?_ rfl rfl rfl rfl rfl rfl rfl

/-- `State.drainDone` keeps it. -/
theorem Keeps.drainDone {s0 s : State} (hs : Keeps s0 s) : Keeps s0 (State.drainDone s) := by
  unfold State.drainDone
  repeat' first
    | with_reducible assumption
    | with_reducible apply Keeps.answerMaint
    | with_reducible apply Keeps.answerQuiesce
    | with_reducible apply Keeps.modModes
    | with_reducible apply Keeps.settle
    | (with_reducible refine Keeps.ite (fun _ => ?_) (fun _ => ?_))
    | dsimp only
    | split
    | with_reducible refine Keeps.mk' ?_ rfl rfl rfl rfl rfl rfl rfl

/-- `State.quiesceFor` keeps it. -/
theorem Keeps.quiesceFor {s0 s : State} (hs : Keeps s0 s) (f : Modes → Modes) : Keeps s0 (State.quiesceFor s f) := by
  unfold State.quiesceFor
  repeat' first
    | with_reducible assumption
    | with_reducible apply Keeps.drainDone
    | with_reducible apply Keeps.modModes
    | with_reducible apply Keeps.settle
    | (with_reducible refine Keeps.ite (fun _ => ?_) (fun _ => ?_))
    | dsimp only
    | split

/-- `State.quiesceRequest` keeps it. -/
theorem Keeps.quiesceRequest {s0 s : State} (hs : Keeps s0 s) (port : Port) : Keeps s0 (State.quiesceRequest s port) := by
  unfold State.quiesceRequest
  repeat' first
    | with_reducible assumption
    | with_reducible apply Keeps.quiesceFor
    | with_reducible apply Keeps.rejectSetting
    | (with_reducible refine Keeps.ite (fun _ => ?_) (fun _ => ?_))
    | dsimp only
    | split
    | with_reducible refine Keeps.mk' ?_ rfl rfl rfl rfl rfl rfl rfl

/-- `State.quiesceRelease` keeps it. -/
theorem Keeps.quiesceRelease {s0 s : State} (hs : Keeps s0 s) (port : Port) : Keeps s0 (State.quiesceRelease s port) := by
  unfold State.quiesceRelease
  repeat' first
    | with_reducible assumption
    | with_reducible apply Keeps.endQuiesce
    | with_reducible apply Keeps.rejectSetting
    | (with_reducible refine Keeps.ite (fun _ => ?_) (fun _ => ?_))
    | dsimp only
    | split

/-! ## Operands -/

/-- `State.modCore` keeps it. -/
theorem Keeps.modCore {s0 s : State} (hs : Keeps s0 s) (k : CoreSel) (f : Core → Core) : Keeps s0 (State.modCore s k f) := by
  unfold State.modCore
  repeat' first
    | with_reducible assumption
    | with_reducible apply Keeps.modCcore
    | with_reducible apply Keeps.modCrumb
    | with_reducible exact fun _ h => h
    | with_reducible exact fun h => h
    | dsimp only
    | split
    | with_reducible refine Keeps.mk' ?_ rfl rfl rfl rfl rfl rfl rfl

/-- `State.setG` keeps it. -/
theorem Keeps.setG {s0 s : State} (hs : Keeps s0 s) (k : CoreSel) (i : Fin 16) (w : Word) : Keeps s0 (State.setG s k i w) := by
  unfold State.setG
  repeat' first
    | with_reducible assumption
    | with_reducible apply Keeps.modCore
    | with_reducible exact fun _ h => h
    | with_reducible exact fun h => h
    | dsimp only

/-- `State.bufRead` keeps it. -/
theorem Keeps.bufRead {s0 s : State} (h : Keeps s0 s) (k : CoreSel) (buf : Bool) (a n : Nat) :
    Keeps s0 (s.bufRead k buf a n).st := by
  unfold State.bufRead
  split
  · split
    · exact h
    · dsimp only
      split
      · exact h.memRead _ _
      · exact (h.memRead _ _).modCrumb _ _ fun _ i => i
  · exact h.memRead _ _

/-- `State.winRead` keeps it. -/
theorem Keeps.winRead {s0 s : State} (hs : Keeps s0 s) (k : CoreSel) (x : Win) (w : Nat) (off : Nat) (n : Nat) : KeepsE s0
    Prod.snd (State.winRead s k x w off n) := by
  unfold State.winRead
  repeat' first
    | with_reducible exact KeepsE.error
    | with_reducible refine KeepsE.ok ?_
    | (with_reducible refine KeepsE.ite (fun _ => ?_) (fun _ => ?_))
    | with_reducible assumption
    | with_reducible apply Keeps.bufRead
    | dsimp only
    | split

/-- `State.winRead`, by its answer. -/
theorem Keeps.winRead_of {s0 s : State} {k : CoreSel} {x : Win} {w : Nat} {off : Nat} {n : Nat} {a0 : List Byte}
    {t_ : State} (eq0 : State.winRead s k x w off n = Except.ok (a0, t_)) (hs : Keeps s0 s) : Keeps s0 t_ :=
  Keeps.winRead hs k x w off n _ eq0

/-- `State.winRead`, by its answer. -/
theorem Keeps.winRead_at {s0 s : State} {k : CoreSel} {x : Win} {w : Nat} {off : Nat} {n : Nat} {r : List Byte × State}
    (eq0 : State.winRead s k x w off n = Except.ok r) (hs : Keeps s0 s) : Keeps s0 r.2 :=
  Keeps.winRead hs k x w off n _ eq0

/-- `State.winWrite` keeps it. -/
theorem Keeps.winWrite {s0 s : State} (hs : Keeps s0 s) (k : CoreSel) (x : Win) (w : Nat) (off : Nat) (b : List Byte) :
    KeepsE s0 (fun t => t) (State.winWrite s k x w off b) := by
  unfold State.winWrite
  repeat' first
    | with_reducible exact KeepsE.error
    | with_reducible refine KeepsE.ok ?_
    | (with_reducible refine KeepsE.ite (fun _ => ?_) (fun _ => ?_))
    | (with_reducible refine KeepsE.bind (fun _ _ => ?_))
    | with_reducible assumption
    | with_reducible apply Keeps.memWrite
    | with_reducible apply Keeps.modCrumb
    | with_reducible exact fun _ h => Memory.wf_write h _ _
    | with_reducible exact fun _ h => h
    | with_reducible exact fun h => h
    | (with_reducible refine Keeps.ite (fun _ => ?_) (fun _ => ?_))
    | dsimp only
    | split
    | with_reducible refine Keeps.mk' ?_ rfl rfl rfl rfl rfl rfl rfl

/-- `State.winWrite`, by its answer. -/
theorem Keeps.winWrite_of {s0 s : State} {k : CoreSel} {x : Win} {w : Nat} {off : Nat} {b : List Byte} {t_ : State}
    (eq0 : State.winWrite s k x w off b = Except.ok t_) (hs : Keeps s0 s) : Keeps s0 t_ :=
  Keeps.winWrite hs k x w off b _ eq0

/-- `State.load` keeps it. -/
theorem Keeps.load {s0 s : State} (hs : Keeps s0 s) (k : CoreSel) (w : Nat) (off : Nat) (n : Nat) (align : Nat) : KeepsE s0
    Prod.snd (State.load s k w off n align) := by
  unfold State.load
  repeat' first
    | with_reducible exact KeepsE.error
    | with_reducible refine KeepsE.ok ?_
    | (with_reducible refine KeepsE.ite (fun _ => ?_) (fun _ => ?_))
    | (with_reducible refine KeepsE.bind (fun _ _ => ?_))
    | with_reducible assumption
    | with_reducible apply Keeps.winRead
    | (with_reducible refine Keeps.winRead_of (by with_reducible assumption) ?_)
    | (with_reducible refine Keeps.winRead_at (by with_reducible assumption) ?_)
    | dsimp only

/-- `State.load`, by its answer. -/
theorem Keeps.load_of {s0 s : State} {k : CoreSel} {w : Nat} {off : Nat} {n : Nat} {align : Nat} {a0 : List Byte}
    {t_ : State} (eq0 : State.load s k w off n align = Except.ok (a0, t_)) (hs : Keeps s0 s) : Keeps s0 t_ :=
  Keeps.load hs k w off n align _ eq0

/-- `State.load`, by its answer. -/
theorem Keeps.load_at {s0 s : State} {k : CoreSel} {w : Nat} {off : Nat} {n : Nat} {align : Nat} {r : List Byte × State}
    (eq0 : State.load s k w off n align = Except.ok r) (hs : Keeps s0 s) : Keeps s0 r.2 :=
  Keeps.load hs k w off n align _ eq0

/-- `State.storeAt` keeps it. -/
theorem Keeps.storeAt {s0 s : State} (hs : Keeps s0 s) (k : CoreSel) (w : Nat) (off : Nat) (b : List Byte) (align : Nat)
    (limit : Option Word) : KeepsE s0 (fun t => t) (State.storeAt s k w off b align limit) := by
  unfold State.storeAt
  repeat' first
    | with_reducible exact KeepsE.error
    | with_reducible refine KeepsE.ok ?_
    | (with_reducible refine KeepsE.ite (fun _ => ?_) (fun _ => ?_))
    | (with_reducible refine KeepsE.bind (fun _ _ => ?_))
    | with_reducible assumption
    | with_reducible apply Keeps.winWrite
    | (with_reducible refine Keeps.winWrite_of (by with_reducible assumption) ?_)
    | dsimp only

/-- `State.storeAt`, by its answer. -/
theorem Keeps.storeAt_of {s0 s : State} {k : CoreSel} {w : Nat} {off : Nat} {b : List Byte} {align : Nat}
    {limit : Option Word} {t_ : State} (eq0 : State.storeAt s k w off b align limit = Except.ok t_) (hs : Keeps s0 s) : Keeps
    s0 t_ :=
  Keeps.storeAt hs k w off b align limit _ eq0

/-- `State.loadFlat` keeps it. -/
theorem Keeps.loadFlat {s0 s : State} (hs : Keeps s0 s) (k : CoreSel) (a : Word) (n : Nat) (align : Nat) : KeepsE s0
    Prod.snd (State.loadFlat s k a n align) := by
  unfold State.loadFlat
  repeat' first
    | with_reducible exact KeepsE.error
    | with_reducible refine KeepsE.ok ?_
    | (with_reducible refine KeepsE.ite (fun _ => ?_) (fun _ => ?_))
    | (with_reducible refine KeepsE.bind (fun _ _ => ?_))
    | with_reducible assumption
    | with_reducible apply Keeps.load
    | (with_reducible refine Keeps.load_of (by with_reducible assumption) ?_)
    | (with_reducible refine Keeps.load_at (by with_reducible assumption) ?_)

/-- `State.loadFlat`, by its answer. -/
theorem Keeps.loadFlat_of {s0 s : State} {k : CoreSel} {a : Word} {n : Nat} {align : Nat} {a0 : List Byte} {t_ : State}
    (eq0 : State.loadFlat s k a n align = Except.ok (a0, t_)) (hs : Keeps s0 s) : Keeps s0 t_ :=
  Keeps.loadFlat hs k a n align _ eq0

/-- `State.loadFlat`, by its answer. -/
theorem Keeps.loadFlat_at {s0 s : State} {k : CoreSel} {a : Word} {n : Nat} {align : Nat} {r : List Byte × State}
    (eq0 : State.loadFlat s k a n align = Except.ok r) (hs : Keeps s0 s) : Keeps s0 r.2 :=
  Keeps.loadFlat hs k a n align _ eq0

/-- `State.storeFlat` keeps it. -/
theorem Keeps.storeFlat {s0 s : State} (hs : Keeps s0 s) (k : CoreSel) (a : Word) (b : List Byte) (align : Nat)
    (limit : Option Word) : KeepsE s0 (fun t => t) (State.storeFlat s k a b align limit) := by
  unfold State.storeFlat
  repeat' first
    | with_reducible exact KeepsE.error
    | with_reducible refine KeepsE.ok ?_
    | (with_reducible refine KeepsE.ite (fun _ => ?_) (fun _ => ?_))
    | (with_reducible refine KeepsE.bind (fun _ _ => ?_))
    | with_reducible assumption
    | with_reducible apply Keeps.storeAt
    | (with_reducible refine Keeps.storeAt_of (by with_reducible assumption) ?_)

/-- `State.storeFlat`, by its answer. -/
theorem Keeps.storeFlat_of {s0 s : State} {k : CoreSel} {a : Word} {b : List Byte} {align : Nat} {limit : Option Word}
    {t_ : State} (eq0 : State.storeFlat s k a b align limit = Except.ok t_) (hs : Keeps s0 s) : Keeps s0 t_ :=
  Keeps.storeFlat hs k a b align limit _ eq0

/-! ## IsaOps -/

/-- `State.raise` keeps it. -/
theorem Keeps.raise {s0 s : State} (hs : Keeps s0 s) (k : CoreSel) (e : Exn) : Keeps s0 (State.raise s k e) := by
  unfold State.raise
  repeat' first
    | with_reducible assumption
    | with_reducible apply Keeps.endJob
    | with_reducible apply Keeps.mendSlice
    | with_reducible apply Keeps.modCcore
    | with_reducible apply Keeps.pushAgain
    | with_reducible exact fun _ h => h
    | with_reducible exact fun h => h
    | (with_reducible refine Keeps.ite (fun _ => ?_) (fun _ => ?_))
    | dsimp only
    | split
    | with_reducible refine Keeps.mk' ?_ rfl rfl rfl rfl rfl rfl rfl

/-- `State.retired` keeps it. -/
theorem Keeps.retired {s0 s : State} (hs : Keeps s0 s) (k : CoreSel) (n : Nat) (target : Word) : Keeps s0
    (State.retired s k n target) := by
  unfold State.retired
  repeat' first
    | with_reducible assumption
    | with_reducible apply Keeps.modCcore
    | with_reducible apply Keeps.modCore
    | with_reducible exact fun _ h => h
    | with_reducible exact fun h => h
    | dsimp only
    | split
    | with_reducible refine Keeps.mk' ?_ rfl rfl rfl rfl rfl rfl rfl

/-- `State.interrupt` keeps it. -/
theorem Keeps.interrupt {s0 s : State} (hs : Keeps s0 s) (core : Fin 4) (irq : Nat) : Keeps s0 (State.interrupt s core irq)
    := by
  unfold State.interrupt
  repeat' first
    | with_reducible assumption
    | with_reducible apply Keeps.modCcore
    | with_reducible apply Keeps.retired
    | with_reducible exact fun _ h => h
    | with_reducible exact fun h => h
    | (with_reducible refine Keeps.ite (fun _ => ?_) (fun _ => ?_))
    | dsimp only
    | split
    | with_reducible refine Keeps.mk' ?_ rfl rfl rfl rfl rfl rfl rfl

/-- `State.countReps` keeps it. -/
theorem Keeps.countReps {s0 s : State} (hs : Keeps s0 s) (k : CoreSel) (before : Nat) (n : Nat) (inside : Bool) : Keeps s0
    (State.countReps s k before n inside) := by
  unfold State.countReps
  repeat' first
    | with_reducible assumption
    | with_reducible apply Keeps.modCore
    | with_reducible exact fun _ h => h
    | with_reducible exact fun h => h
    | dsimp only
    | split
    | with_reducible refine Keeps.mk' ?_ rfl rfl rfl rfl rfl rfl rfl

/-- `State.pureOp` keeps it. -/
theorem Keeps.pureOp {s0 s : State} (hs : Keeps s0 s) (k : CoreSel) (f : Core → Core) : KeepsE s0 (fun t => t)
    (State.pureOp s k f) := by
  unfold State.pureOp
  repeat' first
    | with_reducible exact KeepsE.error
    | with_reducible refine KeepsE.ok ?_
    | (with_reducible refine KeepsE.ite (fun _ => ?_) (fun _ => ?_))
    | (with_reducible refine KeepsE.bind (fun _ _ => ?_))
    | with_reducible assumption
    | with_reducible apply Keeps.modCore
    | with_reducible exact fun _ h => h
    | with_reducible exact fun h => h

/-- `State.pureOp`, by its answer. -/
theorem Keeps.pureOp_of {s0 s : State} {k : CoreSel} {f : Core → Core} {t_ : State}
    (eq0 : State.pureOp s k f = Except.ok t_) (hs : Keeps s0 s) : Keeps s0 t_ :=
  Keeps.pureOp hs k f _ eq0

/-! ## SieveCmds -/

/-- `State.privSearch` keeps it. -/
theorem Keeps.privSearch {s0 s : State} (hs : Keeps s0 s) (key : BitVec 320) : Keeps s0 (State.privSearch s key).2 := by
  unfold State.privSearch
  repeat' first
    | with_reducible assumption
    | with_reducible apply Keeps.bump
    | dsimp only
    | split
    | with_reducible refine Keeps.mk' ?_ rfl rfl rfl rfl rfl rfl rfl

/-- `State.privSearch`, by its answer. -/
theorem Keeps.privSearch_of {s0 s : State} {key : BitVec 320} {a0 : Option (Nat × SieveEntry)} {t_ : State}
    (eq0 : State.privSearch s key = (a0, t_)) (hs : Keeps s0 s) : Keeps s0 t_ := by
  have k := Keeps.privSearch hs key
  rw [eq0] at k
  exact k

/-- `State.bankInsert` keeps it. -/
theorem Keeps.bankInsert {s0 s : State} (hs : Keeps s0 s) (b : Nat) (e : SieveEntry) (want : Option Nat) : Keeps s0
    (State.bankInsert s b e want).2 := by
  unfold State.bankInsert
  repeat' first
    | with_reducible assumption
    | with_reducible apply Keeps.setEntries
    | (with_reducible refine Keeps.getD (fun _ _ => ?_) ?_)
    | (with_reducible refine Keeps.ite (fun _ => ?_) (fun _ => ?_))
    | dsimp only
    | split

/-- `State.bankInsert`, by its answer. -/
theorem Keeps.bankInsert_of {s0 s : State} {b : Nat} {e : SieveEntry} {want : Option Nat} {a0 : Nat} {t_ : State}
    (eq0 : State.bankInsert s b e want = (a0, t_)) (hs : Keeps s0 s) : Keeps s0 t_ := by
  have k := Keeps.bankInsert hs b e want
  rw [eq0] at k
  exact k

/-- `State.bankRemove` keeps it. -/
theorem Keeps.bankRemove {s0 s : State} (hs : Keeps s0 s) (b : Nat) (slot : Nat) : Keeps s0 (State.bankRemove s b slot) := by
  unfold State.bankRemove
  repeat' first
    | with_reducible assumption
    | with_reducible apply Keeps.setEntries
    | (with_reducible refine Keeps.ite (fun _ => ?_) (fun _ => ?_))
    | dsimp only
    | split

/-- `State.sieveError` keeps it. -/
theorem Keeps.sieveError {s0 s : State} (hs : Keeps s0 s) (bank : Nat) (slot : Nat) : Keeps s0
    (State.sieveError s bank slot) := by
  unfold State.sieveError
  repeat' first
    | with_reducible assumption
    | with_reducible apply Keeps.bump
    | with_reducible apply Keeps.modBank
    | with_reducible apply Keeps.record
    | dsimp only
    | with_reducible refine Keeps.mk' ?_ rfl rfl rfl rfl rfl rfl rfl

/-- `State.svsFind` keeps it. -/
theorem Keeps.svsFind {s0 s : State} (hs : Keeps s0 s) (k : CoreSel) (key : BitVec 320) : Keeps s0
    (State.svsFind s k key).2 := by
  unfold State.svsFind
  repeat' first
    | with_reducible assumption
    | with_reducible apply Keeps.privSearch
    | (with_reducible refine Keeps.privSearch_of (by with_reducible assumption) ?_)
    | (with_reducible refine Keeps.ite (fun _ => ?_) (fun _ => ?_))
    | dsimp only
    | split
    | with_reducible refine Keeps.mk' ?_ rfl rfl rfl rfl rfl rfl rfl

/-- `State.svsFind`, by its answer. -/
theorem Keeps.svsFind_of {s0 s : State} {k : CoreSel} {key : BitVec 320} {a0 : Option (Nat × Reg)} {t_ : State}
    (eq0 : State.svsFind s k key = (a0, t_)) (hs : Keeps s0 s) : Keeps s0 t_ := by
  have k := Keeps.svsFind hs k key
  rw [eq0] at k
  exact k

/-- `State.fillScan` keeps it. -/
theorem Keeps.fillScan {s0 s : State} (hs : Keeps s0 s) (c : Nat) : Keeps s0 (State.fillScan s c) := by
  unfold State.fillScan
  repeat' first
    | with_reducible assumption
    | with_reducible apply Keeps.modCrumb
    | with_reducible exact fun _ h => h
    | with_reducible exact fun h => h
    | dsimp only
    | split
    | with_reducible refine Keeps.mk' ?_ rfl rfl rfl rfl rfl rfl rfl

/-- `State.fillScans` keeps it. -/
theorem Keeps.fillScans {s0 s : State} (hs : Keeps s0 s) (b : Nat) : Keeps s0 (State.fillScans s b) := by
  unfold State.fillScans
  repeat' first
    | with_reducible assumption
    | with_reducible apply Keeps.fillScan
    | (with_reducible refine Keeps.foldl (fun _ _ _ => ?_) ?_)
    | dsimp only

/-- `State.scanHit` keeps it. -/
theorem Keeps.scanHit {s0 s : State} (hs : Keeps s0 s) (tenant : Nat) (x : Scan) (i : Nat) : Keeps s0
    (State.scanHit s tenant x i).2 := by
  unfold State.scanHit
  repeat' first
    | with_reducible assumption
    | with_reducible apply Keeps.privSearch
    | (with_reducible refine Keeps.privSearch_of (by with_reducible assumption) ?_)
    | dsimp only
    | split
    | with_reducible refine Keeps.mk' ?_ rfl rfl rfl rfl rfl rfl rfl

/-- `State.scanHit`, by its answer. -/
theorem Keeps.scanHit_of {s0 s : State} {tenant : Nat} {x : Scan} {i : Nat} {a0 : List Byte} {t_ : State}
    (eq0 : State.scanHit s tenant x i = (a0, t_)) (hs : Keeps s0 s) : Keeps s0 t_ := by
  have k := Keeps.scanHit hs tenant x i
  rw [eq0] at k
  exact k

/-- `State.scanEnd` keeps it. -/
theorem Keeps.scanEnd {s0 s : State} (hs : Keeps s0 s) (c : Nat) : Keeps s0 (State.scanEnd s c) := by
  unfold State.scanEnd
  repeat' first
    | with_reducible assumption
    | with_reducible apply Keeps.endLibrary
    | with_reducible apply Keeps.modCrumb
    | with_reducible exact fun _ h => h
    | with_reducible exact fun h => h
    | (with_reducible refine Keeps.ite (fun _ => ?_) (fun _ => ?_))
    | dsimp only
    | split
    | with_reducible refine Keeps.mk' ?_ rfl rfl rfl rfl rfl rfl rfl

/-- `State.scanStep` keeps it. -/
theorem Keeps.scanStep {s0 s : State} (hs : Keeps s0 s) (c : Nat) : Keeps s0 (State.scanStep s c) := by
  unfold State.scanStep
  repeat' first
    | with_reducible assumption
    | with_reducible apply Keeps.fillScans
    | with_reducible apply Keeps.modCrumb
    | with_reducible apply Keeps.scanEnd
    | with_reducible apply Keeps.scanHit
    | (with_reducible refine Keeps.scanHit_of (by with_reducible assumption) ?_)
    | with_reducible exact fun _ h => h
    | with_reducible exact fun h => h
    | dsimp only
    | split
    | with_reducible refine Keeps.mk' ?_ rfl rfl rfl rfl rfl rfl rfl

/-! ## FironCmds -/

/-- `State.restartPeer` keeps it. -/
theorem Keeps.restartPeer {s0 s : State} (hs : Keeps s0 s) (p : Nat) (session : Reg) : Keeps s0
    (State.restartPeer s p session) := by
  unfold State.restartPeer
  repeat' first
    | with_reducible assumption
    | with_reducible apply Keeps.modPeer
    | with_reducible apply Keeps.sendMsg
    | (with_reducible refine Keeps.foldl (fun _ _ _ => ?_) ?_)
    | dsimp only
    | with_reducible refine Keeps.mk' ?_ rfl rfl rfl rfl rfl rfl rfl

/-- `State.sendAgain` keeps it. -/
theorem Keeps.sendAgain {s0 s : State} (hs : Keeps s0 s) (key : List Byte) : Keeps s0 (State.sendAgain s key) := by
  unfold State.sendAgain
  repeat' first
    | with_reducible assumption
    | with_reducible apply Keeps.holdShard
    | with_reducible apply Keeps.sendShard
    | with_reducible apply Keeps.tick
    | (with_reducible refine Keeps.ite (fun _ => ?_) (fun _ => ?_))
    | dsimp only
    | split
    | with_reducible refine Keeps.mk' ?_ rfl rfl rfl rfl rfl rfl rfl

/-- `State.sendDue` keeps it. -/
theorem Keeps.sendDue {s0 s : State} (hs : Keeps s0 s) (p : Nat) : Keeps s0 (State.sendDue s p) := by
  unfold State.sendDue
  repeat' first
    | with_reducible assumption
    | with_reducible apply Keeps.sendAgain
    | with_reducible apply Keeps.sendMsg
    | (with_reducible refine Keeps.foldl (fun _ _ _ => ?_) ?_)
    | dsimp only

/-- `State.learnSession` keeps it. -/
theorem Keeps.learnSession {s0 s : State} (hs : Keeps s0 s) (h : Rx) : Keeps s0 (State.learnSession s h) := by
  unfold State.learnSession
  repeat' first
    | with_reducible assumption
    | with_reducible apply Keeps.restartPeer
    | with_reducible apply Keeps.sendDue
    | (with_reducible refine Keeps.ite (fun _ => ?_) (fun _ => ?_))
    | split

/-- `State.finishAdopt` keeps it. -/
theorem Keeps.finishAdopt {s0 s : State} (hs : Keeps s0 s) : Keeps s0 (State.finishAdopt s) := by
  unfold State.finishAdopt
  repeat' first
    | with_reducible assumption
    | with_reducible apply Keeps.complete
    | with_reducible apply Keeps.gatherSteps
    | with_reducible apply Keeps.modFiron
    | with_reducible apply Keeps.modTenant
    | with_reducible apply Keeps.settle
    | with_reducible apply Keeps.startRepair
    | (with_reducible refine Keeps.ite (fun _ => ?_) (fun _ => ?_))
    | (with_reducible refine Keeps.foldl (fun _ _ _ => ?_) ?_)
    | dsimp only
    | split
    | with_reducible refine Keeps.mk' ?_ rfl rfl rfl rfl rfl rfl rfl

/-- `State.ethDown` keeps it. -/
theorem Keeps.ethDown {s0 s : State} (hs : Keeps s0 s) (eth : Nat) : Keeps s0 (State.ethDown s eth) := by
  unfold State.ethDown
  repeat' first
    | with_reducible assumption
    | with_reducible apply Keeps.modFiron
    | with_reducible apply Keeps.record
    | (with_reducible refine Keeps.ite (fun _ => ?_) (fun _ => ?_))
    | dsimp only
    | split
    | with_reducible refine Keeps.mk' ?_ rfl rfl rfl rfl rfl rfl rfl

/-- `State.setMember` keeps it. -/
theorem Keeps.setMember {s0 s : State} (hs : Keeps s0 s) (p : Nat) (m : GroupMember) : Keeps s0 (State.setMember s p m) := by
  unfold State.setMember
  repeat' first
    | with_reducible assumption
    | with_reducible apply Keeps.modPeer
    | (with_reducible refine Keeps.ite (fun _ => ?_) (fun _ => ?_))
    | dsimp only
    | split
    | with_reducible refine Keeps.mk' ?_ rfl rfl rfl rfl rfl rfl rfl

/-- `State.newSession` keeps it. -/
theorem Keeps.newSession {s0 s : State} (hs : Keeps s0 s) : Keeps s0 (State.newSession s).2 := by
  unfold State.newSession
  repeat' first
    | with_reducible assumption
    | with_reducible apply Keeps.tick
    | (with_reducible refine Keeps.ite (fun _ => ?_) (fun _ => ?_))
    | split

/-- `State.newSession`, by its answer. -/
theorem Keeps.newSession_of {s0 s : State} {a0 : Reg} {t_ : State} (eq0 : State.newSession s = (a0, t_)) (hs : Keeps s0 s)
    : Keeps s0 t_ := by
  have k := Keeps.newSession hs
  rw [eq0] at k
  exact k

/-- `State.enableLink` keeps it. -/
theorem Keeps.enableLink {s0 s : State} (hs : Keeps s0 s) : Keeps s0 (State.enableLink s) := by
  unfold State.enableLink
  repeat' first
    | with_reducible assumption
    | with_reducible apply Keeps.modFiron
    | with_reducible apply Keeps.newSession
    | with_reducible apply Keeps.restartPeer
    | with_reducible apply Keeps.sendDue
    | with_reducible apply Keeps.sendMsg
    | (with_reducible refine Keeps.newSession_of (by with_reducible assumption) ?_)
    | (with_reducible refine Keeps.foldl (fun _ _ _ => ?_) ?_)
    | dsimp only
    | with_reducible refine Keeps.mk' ?_ rfl rfl rfl rfl rfl rfl rfl

/-- `State.disableLink` keeps it. -/
theorem Keeps.disableLink {s0 s : State} (hs : Keeps s0 s) : Keeps s0 (State.disableLink s) := by
  unfold State.disableLink
  repeat' first
    | with_reducible assumption
    | with_reducible apply Keeps.bump
    | with_reducible apply Keeps.commitFail
    | with_reducible apply Keeps.modFiron
    | with_reducible apply Keeps.pumpGroup
    | (with_reducible refine Keeps.ite (fun _ => ?_) (fun _ => ?_))
    | (with_reducible refine Keeps.foldl (fun _ _ _ => ?_) ?_)
    | dsimp only
    | split
    | with_reducible refine Keeps.mk' ?_ rfl rfl rfl rfl rfl rfl rfl

/-! ## BootOps -/

/-- `State.applyBase` keeps it. -/
theorem Keeps.applyBase {s0 s : State} (hs : Keeps s0 s) (e : RegEntry) : Keeps s0 (State.applyBase s e) := by
  unfold State.applyBase
  repeat' first
    | with_reducible assumption
    | with_reducible apply Keeps.applyEntry
    | with_reducible apply Keeps.modBank
    | with_reducible apply Keeps.modTenant
    | dsimp only
    | split
    | with_reducible refine Keeps.mk' ?_ rfl rfl rfl rfl rfl rfl rfl

/-- `State.applySieve` keeps it. -/
theorem Keeps.applySieve {s0 s : State} (hs : Keeps s0 s) : Keeps s0 (State.applySieve s) := by
  unfold State.applySieve
  repeat' first
    | with_reducible assumption
    | with_reducible apply Keeps.bankInsert
    | (with_reducible refine Keeps.bankInsert_of (by with_reducible assumption) ?_)
    | (with_reducible refine Keeps.foldl (fun _ _ _ => ?_) ?_)
    | dsimp only

/-- `State.applyGroup` keeps it. -/
theorem Keeps.applyGroup {s0 s : State} (hs : Keeps s0 s) : Keeps s0 (State.applyGroup s) := by
  unfold State.applyGroup
  repeat' first
    | with_reducible assumption
    | with_reducible apply Keeps.enableLink
    | with_reducible apply Keeps.modFiron
    | with_reducible apply Keeps.record
    | with_reducible apply Keeps.setMember
    | (with_reducible refine Keeps.ite (fun _ => ?_) (fun _ => ?_))
    | (with_reducible refine Keeps.foldl (fun _ _ _ => ?_) ?_)
    | dsimp only
    | split
    | with_reducible refine Keeps.mk' ?_ rfl rfl rfl rfl rfl rfl rfl

/-- `State.modBoot` keeps it. -/
theorem Keeps.modBoot {s0 s : State} (hs : Keeps s0 s) (f : Boot → Boot) : Keeps s0 (State.modBoot s f) := by
  unfold State.modBoot
  repeat' first
    | with_reducible assumption
    | with_reducible refine Keeps.mk' ?_ rfl rfl rfl rfl rfl rfl rfl

/-- `State.modCfg` keeps it. -/
theorem Keeps.modCfg {s0 s : State} (hs : Keeps s0 s) (f : Cfg → Cfg) : Keeps s0 (State.modCfg s f) := by
  unfold State.modCfg
  repeat' first
    | with_reducible assumption
    | with_reducible refine Keeps.mk' ?_ rfl rfl rfl rfl rfl rfl rfl

/-! ## FlashEvents -/

/-- `State.sanitizeErase` keeps it. -/
theorem Keeps.sanitizeErase {s0 s : State} (hs : Keeps s0 s) : Keeps s0 (State.sanitizeErase s) := by
  unfold State.sanitizeErase
  repeat' first
    | with_reducible assumption
    | with_reducible apply Keeps.closeCtx
    | with_reducible apply Keeps.freeSet
    | with_reducible apply Keeps.modFiron
    | with_reducible apply Keeps.modFlash
    | with_reducible apply Keeps.modKeys
    | with_reducible apply Keeps.serve
    | with_reducible apply Keeps.settle
    | (with_reducible refine Keeps.ite (fun _ => ?_) (fun _ => ?_))
    | (with_reducible refine Keeps.foldl (fun _ _ _ => ?_) ?_)
    | dsimp only
    | split
    | with_reducible refine Keeps.mk' ?_ rfl rfl rfl rfl rfl rfl rfl

/-- `State.sanitizeCheck` keeps it. -/
theorem Keeps.sanitizeCheck {s0 s : State} (hs : Keeps s0 s) : Keeps s0 (State.sanitizeCheck s) := by
  unfold State.sanitizeCheck
  repeat' first
    | with_reducible assumption
    | with_reducible apply Keeps.modCmd
    | with_reducible apply Keeps.writeKeyRecord
    | with_reducible apply Keeps.writeRoots
    | with_reducible exact fun _ h => h
    | with_reducible exact fun h => h
    | (with_reducible refine Keeps.ite (fun _ => ?_) (fun _ => ?_))
    | dsimp only
    | split
    | with_reducible refine Keeps.mk' ?_ rfl rfl rfl rfl rfl rfl rfl

/-- `State.repairRows` keeps it. -/
theorem Keeps.repairRows {s0 s : State} (hs : Keeps s0 s) (x : StripeSet) (slot : Nat) : Keeps s0
    (State.repairRows s x slot) := by
  unfold State.repairRows
  repeat' first
    | with_reducible assumption
    | with_reducible apply Keeps.modFlash
    | with_reducible apply Keeps.modSet
    | with_reducible apply Keeps.serve
    | (with_reducible refine Keeps.getD (fun _ _ => ?_) ?_)
    | (with_reducible refine Keeps.ite (fun _ => ?_) (fun _ => ?_))
    | dsimp only
    | split
    | with_reducible refine Keeps.mk' ?_ rfl rfl rfl rfl rfl rfl rfl

/-- `State.regainSet` keeps it. -/
theorem Keeps.regainSet {s0 s : State} (hs : Keeps s0 s) (slot : Nat) (no : Nat) : Keeps s0 (State.regainSet s slot no) := by
  unfold State.regainSet
  repeat' first
    | with_reducible assumption
    | with_reducible apply Keeps.modFlash
    | with_reducible apply Keeps.modSet
    | with_reducible apply Keeps.repairRows
    | with_reducible apply Keeps.serve
    | with_reducible apply Keeps.writeRoots
    | (with_reducible refine Keeps.ite (fun _ => ?_) (fun _ => ?_))
    | dsimp only
    | split
    | with_reducible refine Keeps.mk' ?_ rfl rfl rfl rfl rfl rfl rfl

/-- `State.regain` keeps it. -/
theorem Keeps.regain {s0 s : State} (hs : Keeps s0 s) (slot : Nat) : Keeps s0 (State.regain s slot) := by
  unfold State.regain
  repeat' first
    | with_reducible assumption
    | with_reducible apply Keeps.regainSet
    | (with_reducible refine Keeps.foldl (fun _ _ _ => ?_) ?_)
    | dsimp only

/-- `State.repairDone` keeps it. -/
theorem Keeps.repairDone {s0 s : State} (hs : Keeps s0 s) (r : Row) (m : Member) (ok : Bool) : Keeps s0
    (State.repairDone s r m ok) := by
  unfold State.repairDone
  repeat' first
    | with_reducible assumption
    | with_reducible apply Keeps.modFlash
    | with_reducible apply Keeps.modSet
    | with_reducible apply Keeps.regainSet
    | with_reducible apply Keeps.retireBlock
    | (with_reducible refine Keeps.ite (fun _ => ?_) (fun _ => ?_))
    | dsimp only
    | split
    | with_reducible refine Keeps.mk' ?_ rfl rfl rfl rfl rfl rfl rfl

/-- `State.programDone` keeps it. -/
theorem Keeps.programDone {s0 s : State} (hs : Keeps s0 s) (r : Row) (m : Member) (ok : Bool) : Keeps s0
    (State.programDone s r m ok) := by
  unfold State.programDone
  repeat' first
    | with_reducible assumption
    | with_reducible apply Keeps.bump
    | with_reducible apply Keeps.dieResult
    | with_reducible apply Keeps.endRow
    | with_reducible apply Keeps.layMember
    | with_reducible apply Keeps.modCard
    | with_reducible apply Keeps.modRow
    | with_reducible apply Keeps.modSet
    | with_reducible apply Keeps.offlinePower
    | with_reducible apply Keeps.programFails
    | with_reducible apply Keeps.record
    | with_reducible apply Keeps.repairDone
    | with_reducible apply Keeps.serve
    | (with_reducible refine Keeps.ite (fun _ => ?_) (fun _ => ?_))
    | dsimp only
    | split
    | with_reducible refine Keeps.mk' ?_ rfl rfl rfl rfl rfl rfl rfl

/-- `State.issueDue` keeps it. -/
theorem Keeps.issueDue {s0 s : State} (hs : Keeps s0 s) (no : Nat) : Keeps s0 (State.issueDue s no) := by
  unfold State.issueDue
  repeat' first
    | with_reducible assumption
    | with_reducible apply Keeps.issueRow
    | (with_reducible refine Keeps.foldl (fun _ _ _ => ?_) ?_)
    | dsimp only

/-- `State.firstErased` keeps it. -/
theorem Keeps.firstErased {s0 s : State} (hs : Keeps s0 s) (no : Nat) (m : Member) (ok : Bool) : Keeps s0
    (State.firstErased s no m ok) := by
  unfold State.firstErased
  repeat' first
    | with_reducible assumption
    | with_reducible apply Keeps.issueDue
    | with_reducible apply Keeps.modFlash
    | with_reducible apply Keeps.modSet
    | with_reducible apply Keeps.regainSet
    | with_reducible apply Keeps.repairRows
    | with_reducible apply Keeps.retireBlock
    | (with_reducible refine Keeps.ite (fun _ => ?_) (fun _ => ?_))
    | dsimp only
    | split
    | with_reducible refine Keeps.mk' ?_ rfl rfl rfl rfl rfl rfl rfl

/-- `State.eraseDone` keeps it. -/
theorem Keeps.eraseDone {s0 s : State} (hs : Keeps s0 s) (no : Nat) (m : Member) (ok : Bool) : Keeps s0
    (State.eraseDone s no m ok) := by
  unfold State.eraseDone
  repeat' first
    | with_reducible assumption
    | with_reducible apply Keeps.bump
    | with_reducible apply Keeps.dieResult
    | with_reducible apply Keeps.firstErased
    | with_reducible apply Keeps.freeSet
    | with_reducible apply Keeps.modCard
    | with_reducible apply Keeps.modFlash
    | with_reducible apply Keeps.modSet
    | with_reducible apply Keeps.offlinePower
    | with_reducible apply Keeps.retireBlock
    | with_reducible apply Keeps.sanitizeCheck
    | with_reducible apply Keeps.serve
    | (with_reducible refine Keeps.ite (fun _ => ?_) (fun _ => ?_))
    | dsimp only
    | split
    | with_reducible refine Keeps.mk' ?_ rfl rfl rfl rfl rfl rfl rfl

/-- `State.dieTimeout` keeps it. -/
theorem Keeps.dieTimeout {s0 s : State} (hs : Keeps s0 s) (slot : Nat) (chan : Nat) (die : Nat) : Keeps s0
    (State.dieTimeout s slot chan die) := by
  unfold State.dieTimeout
  repeat' first
    | with_reducible assumption
    | with_reducible apply Keeps.failDie
    | with_reducible apply Keeps.modCard
    | with_reducible apply Keeps.modDie
    | with_reducible apply Keeps.onfi
    | with_reducible apply Keeps.record
    | with_reducible apply Keeps.tick
    | (with_reducible refine Keeps.ite (fun _ => ?_) (fun _ => ?_))
    | dsimp only
    | split
    | with_reducible refine Keeps.mk' ?_ rfl rfl rfl rfl rfl rfl rfl

/-- `State.rejectCard` keeps it. -/
theorem Keeps.rejectCard {s0 s : State} (hs : Keeps s0 s) (slot : Nat) (reason : Nat) : Keeps s0
    (State.rejectCard s slot reason) := by
  unfold State.rejectCard
  repeat' first
    | with_reducible assumption
    | with_reducible apply Keeps.cardPower
    | with_reducible apply Keeps.modCard
    | with_reducible apply Keeps.record
    | dsimp only
    | with_reducible refine Keeps.mk' ?_ rfl rfl rfl rfl rfl rfl rfl

/-- `State.reissueRow` keeps it. -/
theorem Keeps.reissueRow {s0 s : State} (hs : Keeps s0 s) (r : Row) : Keeps s0 (State.reissueRow s r) := by
  unfold State.reissueRow
  repeat' first
    | with_reducible assumption
    | with_reducible apply Keeps.closeSet
    | with_reducible apply Keeps.rewriteGroup
    | (with_reducible refine Keeps.foldl (fun _ _ _ => ?_) ?_)
    | dsimp only

/-- `State.allCes` keeps it. -/
theorem Keeps.allCes {s0 s : State} (hs : Keeps s0 s) (slot : Nat) (g : CardInfo) (codes : List Nat) : Keeps s0
    (State.allCes s slot g codes) := by
  unfold State.allCes
  repeat' first
    | with_reducible assumption
    | with_reducible apply Keeps.emit
    | with_reducible apply Keeps.onfi
    | with_reducible apply Keeps.emit
    | (with_reducible refine Keeps.foldl (fun _ _ _ => ?_) ?_)
    | dsimp only

/-- `State.i2cRead` keeps it. -/
theorem Keeps.i2cRead {s0 s : State} (hs : Keeps s0 s) (slot : Nat) (k : Nat) : Keeps s0 (State.i2cRead s slot k) := by
  unfold State.i2cRead
  repeat' first
    | with_reducible assumption
    | with_reducible apply Keeps.emit
    | with_reducible apply Keeps.emit

/-- `State.identify` keeps it. -/
theorem Keeps.identify {s0 s : State} (hs : Keeps s0 s) (slot : Nat) : Keeps s0 (State.identify s slot) := by
  unfold State.identify
  repeat' first
    | with_reducible assumption
    | with_reducible apply Keeps.cardPower
    | with_reducible apply Keeps.i2cRead
    | with_reducible apply Keeps.modCard
    | (with_reducible refine Keeps.foldl (fun _ _ _ => ?_) ?_)
    | dsimp only
    | with_reducible refine Keeps.mk' ?_ rfl rfl rfl rfl rfl rfl rfl

/-- `State.cardInserted` keeps it. -/
theorem Keeps.cardInserted {s0 s : State} (hs : Keeps s0 s) (slot : Nat) : Keeps s0 (State.cardInserted s slot) := by
  unfold State.cardInserted
  repeat' first
    | with_reducible assumption
    | with_reducible apply Keeps.identify
    | with_reducible apply Keeps.modCard
    | (with_reducible refine Keeps.ite (fun _ => ?_) (fun _ => ?_))
    | dsimp only
    | split
    | with_reducible refine Keeps.mk' ?_ rfl rfl rfl rfl rfl rfl rfl

/-- `State.probeCard` keeps it. -/
theorem Keeps.probeCard {s0 s : State} (hs : Keeps s0 s) (slot : Nat) (r : CardReport) (fails : Option Nat) : Keeps s0
    (State.probeCard s slot r fails) := by
  unfold State.probeCard
  repeat' first
    | with_reducible assumption
    | with_reducible apply Keeps.allCes
    | with_reducible apply Keeps.record
    | (with_reducible refine Keeps.ite (fun _ => ?_) (fun _ => ?_))
    | dsimp only
    | split
    | with_reducible refine Keeps.mk' ?_ rfl rfl rfl rfl rfl rfl rfl

/-- `State.failChannel` keeps it. -/
theorem Keeps.failChannel {s0 s : State} (hs : Keeps s0 s) (slot : Nat) (chan : Nat) (g : CardInfo) : Keeps s0
    (State.failChannel s slot chan g) := by
  unfold State.failChannel
  repeat' first
    | with_reducible assumption
    | with_reducible apply Keeps.modDie
    | with_reducible apply Keeps.record
    | (with_reducible refine Keeps.foldl (fun _ _ _ => ?_) ?_)
    | dsimp only
    | with_reducible refine Keeps.mk' ?_ rfl rfl rfl rfl rfl rfl rfl

/-- `State.newCard` keeps it. -/
theorem Keeps.newCard {s0 s : State} (hs : Keeps s0 s) (slot : Nat) : Keeps s0 (State.newCard s slot) := by
  unfold State.newCard
  repeat' first
    | with_reducible assumption
    | with_reducible apply Keeps.modCard
    | with_reducible apply Keeps.modFlash
    | dsimp only
    | with_reducible refine Keeps.mk' ?_ rfl rfl rfl rfl rfl rfl rfl

/-- `State.cardOnline` keeps it. -/
theorem Keeps.cardOnline {s0 s : State} (hs : Keeps s0 s) (slot : Nat) (g : CardInfo) (rate : Nat)
    (bad : List (Nat × Nat × Nat)) : Keeps s0 (State.cardOnline s slot g rate bad) := by
  unfold State.cardOnline
  repeat' first
    | with_reducible assumption
    | with_reducible apply Keeps.clearWear
    | with_reducible apply Keeps.loseUnits
    | with_reducible apply Keeps.modCard
    | with_reducible apply Keeps.modFlash
    | with_reducible apply Keeps.newCard
    | with_reducible apply Keeps.record
    | with_reducible apply Keeps.regain
    | with_reducible apply Keeps.settle
    | with_reducible apply Keeps.takeUsable
    | with_reducible apply Keeps.unstall
    | with_reducible apply Keeps.writeRoots
    | (with_reducible refine Keeps.ite (fun _ => ?_) (fun _ => ?_))
    | dsimp only
    | split
    | with_reducible refine Keeps.mk' ?_ rfl rfl rfl rfl rfl rfl rfl

/-- `State.cardRemoved` keeps it. -/
theorem Keeps.cardRemoved {s0 s : State} (hs : Keeps s0 s) (slot : Nat) : Keeps s0 (State.cardRemoved s slot) := by
  unfold State.cardRemoved
  repeat' first
    | with_reducible assumption
    | with_reducible apply Keeps.cardLeaves
    | with_reducible apply Keeps.cardPower
    | with_reducible apply Keeps.modCard
    | with_reducible apply Keeps.record
    | with_reducible apply Keeps.sanitizeCheck
    | (with_reducible refine Keeps.ite (fun _ => ?_) (fun _ => ?_))
    | dsimp only
    | split
    | with_reducible refine Keeps.mk' ?_ rfl rfl rfl rfl rfl rfl rfl

/-- `State.cardOffline` keeps it. -/
theorem Keeps.cardOffline {s0 s : State} (hs : Keeps s0 s) (slot : Nat) : Keeps s0 (State.cardOffline s slot) := by
  unfold State.cardOffline
  repeat' first
    | with_reducible assumption
    | with_reducible apply Keeps.cardLeaves
    | with_reducible apply Keeps.modCard
    | with_reducible apply Keeps.offlinePower
    | (with_reducible refine Keeps.ite (fun _ => ?_) (fun _ => ?_))
    | dsimp only
    | split
    | with_reducible refine Keeps.mk' ?_ rfl rfl rfl rfl rfl rfl rfl

/-- `State.cardRestore` keeps it. -/
theorem Keeps.cardRestore {s0 s : State} (hs : Keeps s0 s) (slot : Nat) : Keeps s0 (State.cardRestore s slot) := by
  unfold State.cardRestore
  repeat' first
    | with_reducible assumption
    | with_reducible apply Keeps.identify
    | (with_reducible refine Keeps.ite (fun _ => ?_) (fun _ => ?_))
    | dsimp only
    | split

/-! ## BootCmds -/

/-- `State.endDownload` keeps it. -/
theorem Keeps.endDownload {s0 s : State} (hs : Keeps s0 s) (fail : Nat) : Keeps s0 (State.endDownload s fail) := by
  unfold State.endDownload
  repeat' first
    | with_reducible assumption
    | with_reducible apply Keeps.fail
    | with_reducible apply Keeps.modCfg
    | dsimp only
    | with_reducible refine Keeps.mk' ?_ rfl rfl rfl rfl rfl rfl rfl

/-- `State.checkDownload` keeps it. -/
theorem Keeps.checkDownload {s0 s : State} (hs : Keeps s0 s) (c : Cmd) (b : List Byte) : Keeps s0
    (State.checkDownload s c b) := by
  unfold State.checkDownload
  repeat' first
    | with_reducible assumption
    | with_reducible apply Keeps.complete
    | with_reducible apply Keeps.endDownload
    | with_reducible apply Keeps.fail
    | with_reducible apply Keeps.launch
    | with_reducible apply Keeps.modBoot
    | with_reducible apply Keeps.modCfg
    | exact fun _ h => h
    | (with_reducible refine Keeps.ite (fun _ => ?_) (fun _ => ?_))
    | dsimp only
    | split
    | with_reducible refine Keeps.mk' ?_ rfl rfl rfl rfl rfl rfl rfl

/-- `State.enterFirmware` keeps it. -/
theorem Keeps.enterFirmware {s0 s : State} (hs : Keeps s0 s) : Keeps s0 (State.enterFirmware s) := by
  unfold State.enterFirmware
  repeat' first
    | with_reducible assumption
    | with_reducible apply Keeps.modCcore
    | with_reducible exact fun _ h => h
    | with_reducible exact fun h => h
    | (with_reducible refine Keeps.foldl (fun _ _ _ => ?_) ?_)
    | dsimp only
    | with_reducible refine Keeps.mk' ?_ rfl rfl rfl rfl rfl rfl rfl

/-- `State.endActivation` keeps it. -/
theorem Keeps.endActivation {s0 s : State} (hs : Keeps s0 s) : Keeps s0 (State.endActivation s) := by
  unfold State.endActivation
  repeat' first
    | with_reducible assumption
    | with_reducible apply Keeps.answerHeld
    | with_reducible apply Keeps.answerMaint
    | with_reducible apply Keeps.modModes
    | with_reducible apply Keeps.pump
    | with_reducible apply Keeps.settle
    | (with_reducible refine Keeps.foldl (fun _ _ _ => ?_) ?_)
    | dsimp only
    | with_reducible refine Keeps.mk' ?_ rfl rfl rfl rfl rfl rfl rfl

/-- `State.spiReply` keeps it. -/
theorem Keeps.spiReply {s0 s : State} (hs : Keeps s0 s) (tag : Option Nat) (st : Status) : Keeps s0
    (State.spiReply s tag st) := by
  unfold State.spiReply
  repeat' first
    | with_reducible assumption
    | with_reducible apply Keeps.complete
    | dsimp only
    | split
    | with_reducible refine Keeps.mk' ?_ rfl rfl rfl rfl rfl rfl rfl

/-- `State.keyRecordDone` keeps it. -/
theorem Keeps.keyRecordDone {s0 s : State} (hs : Keeps s0 s) (tag : Option Nat) : Keeps s0 (State.keyRecordDone s tag) := by
  unfold State.keyRecordDone
  repeat' first
    | with_reducible assumption
    | with_reducible apply Keeps.complete
    | with_reducible apply Keeps.modCmd
    | with_reducible apply Keeps.sanitizeCheck
    | with_reducible apply Keeps.sanitizeErase
    | with_reducible exact fun _ h => h
    | with_reducible exact fun h => h
    | (with_reducible refine Keeps.ite (fun _ => ?_) (fun _ => ?_))
    | dsimp only
    | split
    | with_reducible refine Keeps.mk' ?_ rfl rfl rfl rfl rfl rfl rfl

/-- `State.spiDone` keeps it. -/
theorem Keeps.spiDone {s0 s : State} (hs : Keeps s0 s) (o : SpiOp) : Keeps s0 (State.spiDone s o) := by
  unfold State.spiDone
  repeat' first
    | with_reducible assumption
    | with_reducible apply Keeps.keyRecordDone
    | with_reducible apply Keeps.modBoot
    | with_reducible apply Keeps.spiReply
    | dsimp only
    | split
    | with_reducible refine Keeps.mkEvr ?_ rfl rfl rfl rfl rfl ?_ rfl
    | exact fun h => h
    | with_reducible refine Keeps.mk' ?_ rfl rfl rfl rfl rfl rfl rfl

end Sys2Proof.Machine
end

