-- ==== Sys2Proof/Laws/KeepsCmds.lean ====
section
/-! SUPPORT. What keeps the queue, what was sent and the invariant: the operations of digests, memory, rollers, starts, tenants, jobs, housekeeping, the cores and the registers. -/
namespace Sys2Proof.Machine

open Claims

/-! ## DigestCmds -/

/-- `State.retireEngine` keeps it. -/
theorem Keeps.retireEngine {s0 s : State} (hs : Keeps s0 s) (e : Nat) : Keeps s0 (State.retireEngine s e) := by
  unfold State.retireEngine
  repeat' first
    | with_reducible assumption
    | with_reducible apply Keeps.modEngine
    | with_reducible apply Keeps.moveMsgs
    | with_reducible apply Keeps.record
    | with_reducible apply Keeps.settle
    | (with_reducible refine Keeps.ite (fun _ => ?_) (fun _ => ?_))
    | dsimp only
    | split
    | with_reducible refine Keeps.mk' ?_ rfl rfl rfl rfl rfl rfl rfl

/-- `State.restoreEngine` keeps it. -/
theorem Keeps.restoreEngine {s0 s : State} (hs : Keeps s0 s) (e : Nat) : Keeps s0 (State.restoreEngine s e) := by
  unfold State.restoreEngine
  repeat' first
    | with_reducible assumption
    | with_reducible apply Keeps.modEngine
    | with_reducible apply Keeps.settle
    | (with_reducible refine Keeps.ite (fun _ => ?_) (fun _ => ?_))
    | dsimp only
    | split
    | with_reducible refine Keeps.mk' ?_ rfl rfl rfl rfl rfl rfl rfl

/-- `State.askCore` keeps it. -/
theorem Keeps.askCore {s0 s : State} (hs : Keeps s0 s) (k : CoreSel) (h : Nat) (new : Bool) : Keeps s0
    (State.askCore s k h new) := by
  unfold State.askCore
  repeat' first
    | with_reducible assumption
    | with_reducible apply Keeps.addMsg
    | with_reducible apply Keeps.askMsg
    | with_reducible apply Keeps.tick
    | (with_reducible refine Keeps.addMsg_of (by with_reducible assumption) ?_)
    | (with_reducible refine Keeps.ite (fun _ => ?_) (fun _ => ?_))
    | dsimp only
    | split
    | with_reducible refine Keeps.mk' ?_ rfl rfl rfl rfl rfl rfl rfl

/-! ## MemEvents -/

/-- `State.serveReq` keeps it. -/
theorem Keeps.serveReq {s0 s : State} (hs : Keeps s0 s) (c : Nat) (r : MemReq) : Keeps s0 (State.serveReq s c r) := by
  unfold State.serveReq
  repeat' first
    | with_reducible assumption
    | with_reducible apply Keeps.flushMerge
    | with_reducible apply Keeps.modCtrl
    | with_reducible apply Keeps.readBlock
    | with_reducible apply Keeps.writeBlock
    | (with_reducible refine Keeps.readBlock_of (by with_reducible assumption) ?_)
    | with_reducible exact fun _ h => h
    | with_reducible exact fun h => h
    | (with_reducible refine Keeps.ite (fun _ => ?_) (fun _ => ?_))
    | dsimp only
    | split
    | with_reducible refine Keeps.mk' ?_ rfl rfl rfl rfl rfl rfl rfl

/-- `State.modStack` keeps it. -/
theorem Keeps.modStack {s0 s : State} (hs : Keeps s0 s) (n : Nat) (f : MemStack → MemStack) : Keeps s0
    (State.modStack s n f) := by
  unfold State.modStack
  repeat' first
    | with_reducible assumption
    | with_reducible apply Keeps.modMem
    | with_reducible exact fun h => h
    | with_reducible exact fun _ h => h
    | dsimp only
    | with_reducible refine Keeps.mk' ?_ rfl rfl rfl rfl rfl rfl rfl

/-- `State.doubleRefresh` keeps it. -/
theorem Keeps.doubleRefresh {s0 s : State} (hs : Keeps s0 s) (n : Nat) : Keeps s0 (State.doubleRefresh s n) := by
  unfold State.doubleRefresh
  repeat' first
    | with_reducible assumption
    | with_reducible apply Keeps.bump
    | with_reducible apply Keeps.modCtrl
    | with_reducible apply Keeps.modStack
    | with_reducible exact fun _ h => h
    | with_reducible exact fun h => h
    | (with_reducible refine Keeps.ite (fun _ => ?_) (fun _ => ?_))
    | (with_reducible refine Keeps.foldl (fun _ _ _ => ?_) ?_)
    | dsimp only
    | split
    | with_reducible refine Keeps.mk' ?_ rfl rfl rfl rfl rfl rfl rfl

/-- `State.normalRefresh` keeps it. -/
theorem Keeps.normalRefresh {s0 s : State} (hs : Keeps s0 s) (n : Nat) : Keeps s0 (State.normalRefresh s n) := by
  unfold State.normalRefresh
  repeat' first
    | with_reducible assumption
    | with_reducible apply Keeps.modCtrl
    | with_reducible apply Keeps.modStack
    | with_reducible exact fun _ h => h
    | with_reducible exact fun h => h
    | (with_reducible refine Keeps.ite (fun _ => ?_) (fun _ => ?_))
    | (with_reducible refine Keeps.foldl (fun _ _ _ => ?_) ?_)
    | dsimp only
    | split
    | with_reducible refine Keeps.mk' ?_ rfl rfl rfl rfl rfl rfl rfl

/-- `State.fencePc` keeps it. -/
theorem Keeps.fencePc {s0 s : State} (hs : Keeps s0 s) (c : Nat) (cause : Nat) : Keeps s0 (State.fencePc s c cause) := by
  unfold State.fencePc
  repeat' first
    | with_reducible assumption
    | with_reducible apply Keeps.modCtrl
    | with_reducible apply Keeps.serveReq
    | with_reducible exact fun _ h => h
    | with_reducible exact fun h => h
    | (with_reducible refine Keeps.foldl (fun _ _ _ => ?_) ?_)
    | dsimp only
    | with_reducible refine Keeps.mk' ?_ rfl rfl rfl rfl rfl rfl rfl

/-- `State.refetchLost` keeps it. -/
theorem Keeps.refetchLost {s0 s : State} (hs : Keeps s0 s) (tag : Nat) : Keeps s0 (State.refetchLost s tag) := by
  unfold State.refetchLost
  repeat' first
    | with_reducible assumption
    | with_reducible apply Keeps.refetch
    | with_reducible apply Keeps.tick
    | (with_reducible refine Keeps.ite (fun _ => ?_) (fun _ => ?_))
    | dsimp only
    | split
    | with_reducible refine Keeps.mk' ?_ rfl rfl rfl rfl rfl rfl rfl

/-- `State.askAgain` keeps it. -/
theorem Keeps.askAgain {s0 s : State} (hs : Keeps s0 s) (key : List Byte) : Keeps s0 (State.askAgain s key) := by
  unfold State.askAgain
  repeat' first
    | with_reducible assumption
    | with_reducible apply Keeps.refuseShard
    | with_reducible apply Keeps.tick
    | (with_reducible refine Keeps.ite (fun _ => ?_) (fun _ => ?_))
    | dsimp only
    | split
    | with_reducible refine Keeps.mk' ?_ rfl rfl rfl rfl rfl rfl rfl

/-- `State.restage` keeps it. -/
theorem Keeps.restage {s0 s : State} (hs : Keeps s0 s) (n : Nat) : Keeps s0 (State.restage s n) := by
  unfold State.restage
  repeat' first
    | with_reducible assumption
    | with_reducible apply Keeps.askAgain
    | with_reducible apply Keeps.refetchLost
    | (with_reducible refine Keeps.foldl (fun _ _ _ => ?_) ?_)
    | dsimp only
    | with_reducible refine Keeps.mk' ?_ rfl rfl rfl rfl rfl rfl rfl

/-- `State.loseStack` keeps it. -/
theorem Keeps.loseStack {s0 s : State} (hs : Keeps s0 s) (n : Nat) : Keeps s0 (State.loseStack s n) := by
  unfold State.loseStack
  repeat' first
    | with_reducible assumption
    | with_reducible apply Keeps.fencePc
    | with_reducible apply Keeps.modStack
    | with_reducible apply Keeps.record
    | with_reducible apply Keeps.restage
    | with_reducible apply Keeps.settle
    | with_reducible exact fun _ h => h
    | with_reducible exact fun h => h
    | (with_reducible refine Keeps.ite (fun _ => ?_) (fun _ => ?_))
    | (with_reducible refine Keeps.foldl (fun _ _ _ => ?_) ?_)
    | dsimp only
    | split
    | with_reducible refine Keeps.mk' ?_ rfl rfl rfl rfl rfl rfl rfl

/-- `State.failPc` keeps it. -/
theorem Keeps.failPc {s0 s : State} (hs : Keeps s0 s) (c : Nat) (cause : Nat) : Keeps s0 (State.failPc s c cause) := by
  unfold State.failPc
  repeat' first
    | with_reducible assumption
    | with_reducible apply Keeps.fencePc
    | with_reducible apply Keeps.loseStack
    | with_reducible apply Keeps.record
    | with_reducible apply Keeps.settle
    | with_reducible apply Keeps.tick
    | (with_reducible refine Keeps.ite (fun _ => ?_) (fun _ => ?_))
    | dsimp only
    | split

/-- `State.countUncorrectable` keeps it. -/
theorem Keeps.countUncorrectable {s0 s : State} (hs : Keeps s0 s) (c : Nat) : Keeps s0 (State.countUncorrectable s c) := by
  unfold State.countUncorrectable
  repeat' first
    | with_reducible assumption
    | with_reducible apply Keeps.failPc
    | with_reducible apply Keeps.modCtrl
    | with_reducible apply Keeps.tick
    | with_reducible exact fun _ h => h
    | with_reducible exact fun h => h
    | (with_reducible refine Keeps.ite (fun _ => ?_) (fun _ => ?_))
    | dsimp only
    | split
    | with_reducible refine Keeps.mk' ?_ rfl rfl rfl rfl rfl rfl rfl

/-- `State.applyDelays` keeps it. -/
theorem Keeps.applyDelays {s0 s : State} (hs : Keeps s0 s) (port : Port) (stack : Nat) (band : Nat) : Keeps s0
    (State.applyDelays s port stack band) := by
  unfold State.applyDelays
  repeat' first
    | with_reducible assumption
    | with_reducible apply Keeps.modStack
    | with_reducible apply Keeps.rejectSetting
    | with_reducible apply Keeps.setReg
    | with_reducible exact fun _ h => h
    | with_reducible exact fun h => h
    | (with_reducible refine Keeps.ite (fun _ => ?_) (fun _ => ?_))
    | (with_reducible refine Keeps.foldl (fun _ _ _ => ?_) ?_)
    | dsimp only
    | split
    | with_reducible refine Keeps.mk' ?_ rfl rfl rfl rfl rfl rfl rfl

/-- `State.retirePage` keeps it. -/
theorem Keeps.retirePage {s0 s : State} (hs : Keeps s0 s) (port : Port) (stack : Nat) (idx : Nat) (old : Nat) (new : Nat) :
    Keeps s0 (State.retirePage s port stack idx old new) := by
  unfold State.retirePage
  repeat' first
    | with_reducible assumption
    | with_reducible apply Keeps.modMem
    | with_reducible apply Keeps.record
    | with_reducible apply Keeps.rejectSetting
    | with_reducible exact fun h => h
    | with_reducible exact fun _ h => h
    | (with_reducible refine Keeps.ite (fun _ => ?_) (fun _ => ?_))
    | dsimp only
    | split
    | with_reducible refine Keeps.mk' ?_ rfl rfl rfl rfl rfl rfl rfl

/-- `State.copyBlock` keeps it. -/
theorem Keeps.copyBlock {s0 s : State} (hs : Keeps s0 s) (stack : Nat) (old : Nat) (new : Nat) (i : Nat) : Keeps s0
    (State.copyBlock s stack old new i) := by
  unfold State.copyBlock
  repeat' first
    | with_reducible assumption
    | with_reducible apply Keeps.flushMerge
    | with_reducible apply Keeps.modMem
    | with_reducible apply Keeps.readBlock
    | (with_reducible refine Keeps.readBlock_of (by with_reducible assumption) ?_)
    | with_reducible exact fun h => PkgMem.wf_store h _ _ _
    | with_reducible exact fun _ h => h
    | with_reducible exact fun h => h
    | (with_reducible refine Keeps.ite (fun _ => ?_) (fun _ => ?_))
    | dsimp only
    | split

/-! ## RollerOps -/

/-- `State.endRoller` keeps it. -/
theorem Keeps.endRoller {s0 s : State} (hs : Keeps s0 s) (slot : Nat) (status : Nat) (failBlock : Nat) : Keeps s0
    (State.endRoller s slot status failBlock) := by
  unfold State.endRoller
  repeat' first
    | with_reducible assumption
    | with_reducible apply Keeps.freeSlotOf
    | with_reducible apply Keeps.memWrite
    | (with_reducible refine Keeps.ite (fun _ => ?_) (fun _ => ?_))
    | dsimp only
    | split
    | with_reducible refine Keeps.mk' ?_ rfl rfl rfl rfl rfl rfl rfl

/-- `State.closeLink` keeps it. -/
theorem Keeps.closeLink {s0 s : State} (hs : Keeps s0 s) (j : RollerJob) : Keeps s0 (State.closeLink s j) := by
  unfold State.closeLink
  repeat' first
    | with_reducible assumption
    | with_reducible apply Keeps.memWrite
    | (with_reducible refine Keeps.ite (fun _ => ?_) (fun _ => ?_))
    | split

/-- `State.moveOn` keeps it. -/
theorem Keeps.moveOn {s0 s : State} (hs : Keeps s0 s) (j : RollerJob) : Keeps s0 (State.moveOn s j).2 := by
  unfold State.moveOn
  repeat' first
    | with_reducible assumption
    | with_reducible apply Keeps.closeLink
    | with_reducible apply Keeps.memRead
    | (with_reducible refine Keeps.ite (fun _ => ?_) (fun _ => ?_))
    | dsimp only
    | split
    | with_reducible refine Keeps.mk' ?_ rfl rfl rfl rfl rfl rfl rfl

/-- `State.moveOn`, by its answer. -/
theorem Keeps.moveOn_of {s0 s : State} {j : RollerJob} {a0 : NextBuf} {t_ : State} (eq0 : State.moveOn s j = (a0, t_))
    (hs : Keeps s0 s) : Keeps s0 t_ := by
  have k := Keeps.moveOn hs j
  rw [eq0] at k
  exact k

/-- `State.interruptAll` keeps it. -/
theorem Keeps.interruptAll {s0 s : State} (hs : Keeps s0 s) : Keeps s0 (State.interruptAll s) := by
  unfold State.interruptAll
  repeat' first
    | with_reducible assumption
    | with_reducible apply Keeps.interrupt
    | with_reducible apply Keeps.tick
    | (with_reducible refine Keeps.foldl (fun _ _ _ => ?_) ?_)
    | dsimp only

/-- `State.badLink` keeps it. -/
theorem Keeps.badLink {s0 s : State} (hs : Keeps s0 s) (slot : Nat) (blk : Nat) : Keeps s0 (State.badLink s slot blk) := by
  unfold State.badLink
  repeat' first
    | with_reducible assumption
    | with_reducible apply Keeps.endRoller
    | with_reducible apply Keeps.modRjob
    | with_reducible apply Keeps.tick
    | (with_reducible refine Keeps.ite (fun _ => ?_) (fun _ => ?_))
    | dsimp only
    | split
    | with_reducible refine Keeps.mk' ?_ rfl rfl rfl rfl rfl rfl rfl

/-- `State.putPacked` keeps it. -/
theorem Keeps.putPacked {s0 s : State} (hs : Keeps s0 s) (slot : Nat) (j : RollerJob) (code : Nat) (bucket : List Byte) :
    Keeps s0 (State.putPacked s slot j code bucket) := by
  unfold State.putPacked
  repeat' first
    | with_reducible assumption
    | with_reducible apply Keeps.badLink
    | with_reducible apply Keeps.bump
    | with_reducible apply Keeps.closeLink
    | with_reducible apply Keeps.countCoded
    | with_reducible apply Keeps.endRoller
    | with_reducible apply Keeps.interruptAll
    | with_reducible apply Keeps.memWrite
    | with_reducible apply Keeps.modRjob
    | with_reducible apply Keeps.moveOn
    | (with_reducible refine Keeps.moveOn_of (by with_reducible assumption) ?_)
    | (with_reducible refine Keeps.ite (fun _ => ?_) (fun _ => ?_))
    | dsimp only
    | split
    | with_reducible refine Keeps.mk' ?_ rfl rfl rfl rfl rfl rfl rfl

/-- `State.blockDone` keeps it. -/
theorem Keeps.blockDone {s0 s : State} (hs : Keeps s0 s) (slot : Nat) (j : RollerJob) (code : Nat) (size : Nat) : Keeps s0
    (State.blockDone s slot j code size) := by
  unfold State.blockDone
  repeat' first
    | with_reducible assumption
    | with_reducible apply Keeps.countCoded
    | with_reducible apply Keeps.endRoller
    | with_reducible apply Keeps.modRjob
    | (with_reducible refine Keeps.ite (fun _ => ?_) (fun _ => ?_))
    | dsimp only
    | split
    | with_reducible refine Keeps.mk' ?_ rfl rfl rfl rfl rfl rfl rfl

/-- `State.putSlot` keeps it. -/
theorem Keeps.putSlot {s0 s : State} (hs : Keeps s0 s) (slot : Nat) (j : RollerJob) (blk : Nat) (code : Nat)
    (bucket : List Byte) : Keeps s0 (State.putSlot s slot j blk code bucket) := by
  unfold State.putSlot
  repeat' first
    | with_reducible assumption
    | with_reducible apply Keeps.blockDone
    | with_reducible apply Keeps.memWrite

/-- `State.codeRoller` keeps it. -/
theorem Keeps.codeRoller {s0 s : State} (hs : Keeps s0 s) (slot : Nat) (j : RollerJob) (blk : Nat) (own : Bool) : Keeps s0
    (State.codeRoller s slot j blk own).2 := by
  unfold State.codeRoller
  repeat' first
    | with_reducible assumption
    | with_reducible apply Keeps.blockDone
    | with_reducible apply Keeps.memRead
    | with_reducible apply Keeps.modRjob
    | with_reducible apply Keeps.putPacked
    | with_reducible apply Keeps.putSlot
    | (with_reducible refine Keeps.getD (fun _ _ => ?_) ?_)
    | (with_reducible refine Keeps.ite (fun _ => ?_) (fun _ => ?_))
    | dsimp only
    | split
    | with_reducible refine Keeps.mk' ?_ rfl rfl rfl rfl rfl rfl rfl

/-- A block that `State.codeRoller` codes keeps it. -/
theorem Keeps.codeRoller_some {s0 s t : State} (h : Keeps s0 s) {slot : Nat} {j : RollerJob} {blk : Nat} {own : Bool}
    (e : (s.codeRoller slot j blk own).1 = some t) : Keeps s0 t := by
  unfold State.codeRoller at e
  dsimp only at e
  have m := h.memRead (j.desc.inAddr + 4096 * blk) 4096
  split at e
  · split at e
    · cases e
    · split at e
      · cases e
        exact m.putPacked _ _ _ _
      · cases e
        refine Keeps.putSlot ?_ _ _ _ _ _
        exact Keeps.ite (fun _ => m.modRjob _ _) fun _ => m
  · cases e
    exact Keeps.blockDone (Keeps.ite (fun _ => h.modRjob _ _) fun _ => h) _ _ _ _

/-- `State.codeRoller`, by its answer. -/
theorem Keeps.codeRoller_of {s0 s : State} {slot : Nat} {j : RollerJob} {blk : Nat} {own : Bool} {a0 : Option State}
    {t_ : State} (eq0 : State.codeRoller s slot j blk own = (a0, t_)) (hs : Keeps s0 s) : Keeps s0 t_ := by
  have k := Keeps.codeRoller hs slot j blk own
  rw [eq0] at k
  exact k

/-- `State.rollerError` keeps it. -/
theorem Keeps.rollerError {s0 s : State} (hs : Keeps s0 s) (p : Nat) (slot : Nat) (blk : Nat) (e : RollerError) : Keeps s0
    (State.rollerError s p slot blk e) := by
  unfold State.rollerError
  repeat' first
    | with_reducible assumption
    | with_reducible apply Keeps.bump
    | with_reducible apply Keeps.modRoller
    | with_reducible apply Keeps.record
    | dsimp only
    | with_reducible refine Keeps.mk' ?_ rfl rfl rfl rfl rfl rfl rfl

/-- `State.nextBucket` keeps it. -/
theorem Keeps.nextBucket {s0 s : State} (hs : Keeps s0 s) (j : RollerJob) (code : Nat) : Keeps s0
    (State.nextBucket s j code).2 := by
  unfold State.nextBucket
  repeat' first
    | with_reducible assumption
    | with_reducible apply Keeps.memRead
    | with_reducible apply Keeps.moveOn
    | with_reducible apply Keeps.tick
    | (with_reducible refine Keeps.moveOn_of (by with_reducible assumption) ?_)
    | (with_reducible refine Keeps.ite (fun _ => ?_) (fun _ => ?_))
    | dsimp only
    | split
    | with_reducible refine Keeps.mk' ?_ rfl rfl rfl rfl rfl rfl rfl

/-- `State.nextBucket`, by its answer. -/
theorem Keeps.nextBucket_of {s0 s : State} {j : RollerJob} {code : Nat} {a0 : Option (List Byte × Bool × RollerJob)}
    {t_ : State} (eq0 : State.nextBucket s j code = (a0, t_)) (hs : Keeps s0 s) : Keeps s0 t_ := by
  have k := Keeps.nextBucket hs j code
  rw [eq0] at k
  exact k

/-- `State.blockDecoded` keeps it. -/
theorem Keeps.blockDecoded {s0 s : State} (hs : Keeps s0 s) (slot : Nat) (j : RollerJob) : Keeps s0
    (State.blockDecoded s slot j) := by
  unfold State.blockDecoded
  repeat' first
    | with_reducible assumption
    | with_reducible apply Keeps.bump
    | with_reducible apply Keeps.endRoller
    | with_reducible apply Keeps.modRjob
    | (with_reducible refine Keeps.ite (fun _ => ?_) (fun _ => ?_))
    | dsimp only
    | split
    | with_reducible refine Keeps.mk' ?_ rfl rfl rfl rfl rfl rfl rfl

/-- `State.decodeRoller` keeps it. -/
theorem Keeps.decodeRoller {s0 s : State} (hs : Keeps s0 s) (p : Nat) (slot : Nat) (j : RollerJob) : Keeps s0
    (State.decodeRoller s p slot j) := by
  unfold State.decodeRoller
  repeat' first
    | with_reducible assumption
    | with_reducible apply Keeps.badLink
    | with_reducible apply Keeps.blockDecoded
    | with_reducible apply Keeps.endRoller
    | with_reducible apply Keeps.memRead
    | with_reducible apply Keeps.memWrite
    | with_reducible apply Keeps.nextBucket
    | with_reducible apply Keeps.rollerError
    | (with_reducible refine Keeps.nextBucket_of (by with_reducible assumption) ?_)
    | (with_reducible refine Keeps.ite (fun _ => ?_) (fun _ => ?_))
    | dsimp only
    | split
    | with_reducible refine Keeps.mk' ?_ rfl rfl rfl rfl rfl rfl rfl

/-- `State.moveRoller` keeps it. -/
theorem Keeps.moveRoller {s0 s : State} (hs : Keeps s0 s) (p : Nat) (i : Nat) (comp : Bool) : Keeps s0
    (State.moveRoller s p i comp) := by
  unfold State.moveRoller
  repeat' first
    | with_reducible assumption
    | with_reducible apply Keeps.modRjob
    | with_reducible apply Keeps.modRoller
    | with_reducible apply Keeps.placeJob
    | dsimp only
    | split
    | with_reducible refine Keeps.mk' ?_ rfl rfl rfl rfl rfl rfl rfl

/-- `State.moveJobs` keeps it. -/
theorem Keeps.moveJobs {s0 s : State} (hs : Keeps s0 s) (p : Nat) (comp : Bool) : Keeps s0 (State.moveJobs s p comp) := by
  unfold State.moveJobs
  repeat' first
    | with_reducible assumption
    | with_reducible apply Keeps.moveRoller
    | (with_reducible refine Keeps.foldl (fun _ _ _ => ?_) ?_)
    | dsimp only

/-- `State.moveWork` keeps it. -/
theorem Keeps.moveWork {s0 s : State} (hs : Keeps s0 s) (p : Nat) (comp : Bool) : Keeps s0 (State.moveWork s p comp) := by
  unfold State.moveWork
  repeat' first
    | with_reducible assumption
    | with_reducible apply Keeps.modRjob
    | with_reducible apply Keeps.modRoller
    | with_reducible apply Keeps.moveJobs
    | (with_reducible refine Keeps.ite (fun _ => ?_) (fun _ => ?_))
    | (with_reducible refine Keeps.foldl (fun _ _ _ => ?_) ?_)
    | dsimp only
    | split
    | with_reducible refine Keeps.mk' ?_ rfl rfl rfl rfl rfl rfl rfl

/-- `State.rollerFails` keeps it. -/
theorem Keeps.rollerFails {s0 s : State} (hs : Keeps s0 s) (p : Nat) (comp : Bool) : Keeps s0 (State.rollerFails s p comp) := by
  unfold State.rollerFails
  repeat' first
    | with_reducible assumption
    | with_reducible apply Keeps.bump
    | with_reducible apply Keeps.modRoller
    | with_reducible apply Keeps.moveWork
    | with_reducible apply Keeps.record
    | with_reducible apply Keeps.settle
    | dsimp only

/-- `State.retireHalf` keeps it. -/
theorem Keeps.retireHalf {s0 s : State} (hs : Keeps s0 s) (p : Nat) (comp : Bool) : Keeps s0 (State.retireHalf s p comp) := by
  unfold State.retireHalf
  repeat' first
    | with_reducible assumption
    | with_reducible apply Keeps.modRoller
    | with_reducible apply Keeps.moveWork
    | with_reducible apply Keeps.record
    | with_reducible apply Keeps.retired
    | with_reducible apply Keeps.settle
    | (with_reducible refine Keeps.ite (fun _ => ?_) (fun _ => ?_))
    | dsimp only
    | split

/-- `State.restoreHalf` keeps it. -/
theorem Keeps.restoreHalf {s0 s : State} (hs : Keeps s0 s) (p : Nat) (comp : Bool) : Keeps s0 (State.restoreHalf s p comp) := by
  unfold State.restoreHalf
  repeat' first
    | with_reducible assumption
    | with_reducible apply Keeps.modRoller
    | with_reducible apply Keeps.retired
    | (with_reducible refine Keeps.ite (fun _ => ?_) (fun _ => ?_))
    | dsimp only
    | split

/-- `State.resumeRoller` keeps it. -/
theorem Keeps.resumeRoller {s0 s : State} (hs : Keeps s0 s) (slot : Nat) : Keeps s0 (State.resumeRoller s slot) := by
  unfold State.resumeRoller
  repeat' first
    | with_reducible assumption
    | with_reducible apply Keeps.modRjob
    | with_reducible apply Keeps.tick
    | (with_reducible refine Keeps.ite (fun _ => ?_) (fun _ => ?_))
    | dsimp only
    | split
    | with_reducible refine Keeps.mk' ?_ rfl rfl rfl rfl rfl rfl rfl

/-! ## StartOps -/

/-- `State.layInterrupted` keeps it. -/
theorem Keeps.layInterrupted {s0 s : State} (hs : Keeps s0 s) : Keeps s0 (State.layInterrupted s) := by
  unfold State.layInterrupted
  repeat' first
    | with_reducible assumption
    | with_reducible apply Keeps.layMember
    | with_reducible apply Keeps.tick
    | (with_reducible refine Keeps.ite (fun _ => ?_) (fun _ => ?_))
    | (with_reducible refine Keeps.foldl (fun _ _ _ => ?_) ?_)
    | dsimp only
    | split

/-- `State.foundGroup` keeps it. -/
theorem Keeps.foundGroup {s0 s : State} (hs : Keeps s0 s) (g : Group) (first : Nat) : Keeps s0 (State.foundGroup s g first)
    := by
  unfold State.foundGroup
  repeat' first
    | with_reducible assumption
    | with_reducible apply Keeps.groupDurable
    | with_reducible apply Keeps.modFiron
    | with_reducible apply Keeps.modKeys
    | with_reducible apply Keeps.modShard
    | with_reducible apply Keeps.record
    | dsimp only
    | split
    | with_reducible refine Keeps.mk' ?_ rfl rfl rfl rfl rfl rfl rfl

/-- `State.settleRows` keeps it. -/
theorem Keeps.settleRows {s0 s : State} (hs : Keeps s0 s) : Keeps s0 (State.settleRows s) := by
  unfold State.settleRows
  repeat' first
    | with_reducible assumption
    | with_reducible apply Keeps.foundGroup
    | with_reducible apply Keeps.layInterrupted
    | (with_reducible refine Keeps.ite (fun _ => ?_) (fun _ => ?_))
    | (with_reducible refine Keeps.foldl (fun _ _ _ => ?_) ?_)
    | dsimp only
    | split
    | with_reducible refine Keeps.mk' ?_ rfl rfl rfl rfl rfl rfl rfl

/-- `State.settleCommits` keeps it. -/
theorem Keeps.settleCommits {s0 s : State} (h : Keeps s0 s) : Keeps s0 s.settleCommits := by
  unfold State.settleCommits
  refine Keeps.foldl (fun _ _ k => k.commitVisible _) (Keeps.settleRows ?_)
  exact h.cmds rfl rfl rfl rfl (List.nil_sublist _) rfl rfl

/-- `State.deviceReset` keeps it. -/
theorem Keeps.deviceReset {s0 s : State} (h : Keeps s0 s) : Keeps s0 s.deviceReset := by
  refine h.trans ⟨?_, ?_, ?_⟩
  · unfold State.deviceReset
    rfl
  · have a : Keeps s ((List.range 24).foldl (fun s n => s.cardPower n false) s) :=
      Keeps.foldl (fun _ _ k => k.cardPower _ _) (Keeps.refl s)
    have b := a.settleCommits
    have c : ∀ x, Keeps s x → Keeps s ({ x with ctxs := [], commits := [] } : State).pruneVersions :=
      fun x k => Keeps.pruneVersions (k.frame rfl rfl rfl rfl rfl rfl rfl)
    refine (c _ b).sent.trans ?_
    unfold State.deviceReset
    simp only [List.append_assoc]
    exact List.prefix_append _ _
  · rintro ⟨-, -, -, -, e1, e2, e3, e4, e5, e6, e7⟩
    unfold State.deviceReset
    refine ⟨rfl, ?_, ?_, ?_, e1, e2, ?_, ?_, ?_, ?_, e7⟩
    · intro x hx
      cases hx
    · exact List.nodup_nil
    · intro x hx
      cases hx
    · intro r hr
      exact e3 r (List.mem_append_right _ hr)
    · exact List.Pairwise.nil
    · exact (List.pairwise_append.1 e5).2.1
    · exact Nat.zero_le _

/-- `State.recoverEvents` keeps it. -/
theorem Keeps.recoverEvents {s0 s : State} (h : Keeps s0 s) : Keeps s0 s.recoverEvents := by
  unfold State.recoverEvents
  have k : Keeps s0 (State.tick { s with evr := { s.evr with next := s.evr.durableRun * 4096 + 1, nonce := s.free } }) := by
    refine Keeps.tick (h.evr rfl rfl rfl rfl rfl rfl ?_)
    intro ⟨h1, h2, h3, h4, h5, h6, h7⟩
    refine ⟨by dsimp only; omega, by dsimp only; omega, fun r hr => ?_, h4, h5, h6, h7⟩
    have := h3 r hr
    dsimp only
    omega
  exact Keeps.ite (fun _ => k.record _ _ _) fun _ => k

/-- `State.readPark` keeps it. -/
theorem Keeps.readPark {s0 s : State} (hs : Keeps s0 s) : Keeps s0 (State.readPark s) := by
  unfold State.readPark
  repeat' first
    | with_reducible assumption
    | with_reducible apply Keeps.modBoot
    | with_reducible apply Keeps.modModes
    | (with_reducible refine Keeps.getD (fun _ _ => ?_) ?_)
    | (with_reducible refine Keeps.ite (fun _ => ?_) (fun _ => ?_))
    | (with_reducible refine Keeps.foldl (fun _ _ _ => ?_) ?_)
    | dsimp only
    | split
    | with_reducible refine Keeps.mk' ?_ rfl rfl rfl rfl rfl rfl rfl

/-- `State.halt` keeps it. -/
theorem Keeps.halt {s0 s : State} (hs : Keeps s0 s) (code : Nat) : Keeps s0 (State.halt s code) := by
  unfold State.halt
  repeat' first
    | with_reducible assumption
    | with_reducible apply Keeps.modModes
    | dsimp only
    | with_reducible refine Keeps.mk' ?_ rfl rfl rfl rfl rfl rfl rfl

/-- `State.bootFirmware` keeps it. -/
theorem Keeps.bootFirmware {s0 s : State} (hs : Keeps s0 s) : Keeps s0 (State.bootFirmware s) := by
  unfold State.bootFirmware
  repeat' first
    | with_reducible assumption
    | with_reducible apply Keeps.halt
    | with_reducible apply Keeps.modCfg
    | with_reducible apply Keeps.modModes
    | with_reducible apply Keeps.record
    | dsimp only
    | split
    | with_reducible refine Keeps.mk' ?_ rfl rfl rfl rfl rfl rfl rfl

/-- `State.loadKeys` keeps it. -/
theorem Keeps.loadKeys {s0 s : State} (hs : Keeps s0 s) : Keeps s0 (State.loadKeys s) := by
  unfold State.loadKeys
  repeat' first
    | with_reducible assumption
    | with_reducible apply Keeps.modKeys
    | with_reducible apply Keeps.record
    | (with_reducible refine Keeps.ite (fun _ => ?_) (fun _ => ?_))
    | dsimp only
    | split
    | with_reducible refine Keeps.mk' ?_ rfl rfl rfl rfl rfl rfl rfl

/-- `State.loadCfg` keeps it. -/
theorem Keeps.loadCfg {s0 s : State} (hs : Keeps s0 s) : Keeps s0 (State.loadCfg s) := by
  unfold State.loadCfg
  repeat' first
    | with_reducible assumption
    | with_reducible apply Keeps.modCfg
    | with_reducible apply Keeps.modModes
    | with_reducible apply Keeps.record
    | dsimp only
    | split
    | with_reducible refine Keeps.mk' ?_ rfl rfl rfl rfl rfl rfl rfl

/-- `State.starter` keeps it. -/
theorem Keeps.starter {s0 s : State} (hs : Keeps s0 s) (rep : StarterReport) (cause : Nat) : Keeps s0
    (State.starter s rep cause) := by
  unfold State.starter
  repeat' first
    | with_reducible assumption
    | with_reducible apply Keeps.bootFirmware
    | with_reducible apply Keeps.halt
    | with_reducible apply Keeps.loadCfg
    | with_reducible apply Keeps.loadKeys
    | with_reducible apply Keeps.modCfg
    | with_reducible apply Keeps.modFlash
    | with_reducible apply Keeps.modKeys
    | with_reducible apply Keeps.modModes
    | with_reducible apply Keeps.readPark
    | with_reducible apply Keeps.record
    | with_reducible apply Keeps.recoverEvents
    | with_reducible apply Keeps.tick
    | (with_reducible refine Keeps.ite (fun _ => ?_) (fun _ => ?_))
    | dsimp only
    | split
    | with_reducible refine Keeps.mk' ?_ rfl rfl rfl rfl rfl rfl rfl

/-- `State.restart` keeps it. -/
theorem Keeps.restart {s0 s : State} (hs : Keeps s0 s) (cause : Nat) : Keeps s0 (State.restart s cause) := by
  unfold State.restart
  repeat' first
    | with_reducible assumption
    | with_reducible apply Keeps.starter
    | with_reducible apply Keeps.tick

/-- `State.writeDelays` keeps it. -/
theorem Keeps.writeDelays {s0 s : State} (hs : Keeps s0 s) (stack : Nat) (t : Nat) (b : Nat) : Keeps s0
    (State.writeDelays s stack t b) := by
  unfold State.writeDelays
  repeat' first
    | with_reducible assumption
    | with_reducible apply Keeps.modStack
    | with_reducible apply Keeps.record
    | with_reducible apply Keeps.setReg
    | with_reducible exact fun _ h => h
    | with_reducible exact fun h => h
    | (with_reducible refine Keeps.ite (fun _ => ?_) (fun _ => ?_))
    | (with_reducible refine Keeps.foldl (fun _ _ _ => ?_) ?_)
    | dsimp only
    | split
    | with_reducible refine Keeps.mk' ?_ rfl rfl rfl rfl rfl rfl rfl

/-- `State.bringUpStack` keeps it. -/
theorem Keeps.bringUpStack {s0 s : State} (hs : Keeps s0 s) (stack : Nat) : Keeps s0 (State.bringUpStack s stack) := by
  unfold State.bringUpStack
  repeat' first
    | with_reducible assumption
    | with_reducible apply Keeps.loseStack
    | with_reducible apply Keeps.modCtrl
    | with_reducible apply Keeps.modStack
    | with_reducible apply Keeps.record
    | with_reducible apply Keeps.tick
    | with_reducible apply Keeps.writeDelays
    | with_reducible exact fun _ h => h
    | with_reducible exact fun h => h
    | (with_reducible refine Keeps.foldl (fun _ _ _ => ?_) ?_)
    | dsimp only
    | split
    | with_reducible refine Keeps.mk' ?_ rfl rfl rfl rfl rfl rfl rfl

/-- `State.loadRetired` keeps it. -/
theorem Keeps.loadRetired {s0 s : State} (hs : Keeps s0 s) : Keeps s0 (State.loadRetired s) := by
  unfold State.loadRetired
  repeat' first
    | with_reducible assumption
    | with_reducible apply Keeps.modMem
    | with_reducible apply Keeps.retired
    | with_reducible exact fun h => h
    | with_reducible exact fun _ h => h
    | (with_reducible refine Keeps.foldl (fun _ _ _ => ?_) ?_)
    | dsimp only
    | with_reducible refine Keeps.mk' ?_ rfl rfl rfl rfl rfl rfl rfl

/-- `State.bringUpUnits` keeps it. -/
theorem Keeps.bringUpUnits {s0 s : State} (hs : Keeps s0 s) : Keeps s0 (State.bringUpUnits s) := by
  unfold State.bringUpUnits
  repeat' first
    | with_reducible assumption
    | with_reducible apply Keeps.enterFirmware
    | with_reducible apply Keeps.modCrumb
    | with_reducible apply Keeps.modRoller
    | with_reducible exact fun _ h => h
    | with_reducible exact fun h => h
    | (with_reducible refine Keeps.foldl (fun _ _ _ => ?_) ?_)
    | dsimp only
    | with_reducible refine Keeps.mk' ?_ rfl rfl rfl rfl rfl rfl rfl

/-- `State.beginDiscovery` keeps it. -/
theorem Keeps.beginDiscovery {s0 s : State} (hs : Keeps s0 s) (ms : Nat) : Keeps s0 (State.beginDiscovery s ms) := by
  unfold State.beginDiscovery
  repeat' first
    | with_reducible assumption
    | with_reducible apply Keeps.applyBase
    | with_reducible apply Keeps.bringUpStack
    | with_reducible apply Keeps.bringUpUnits
    | with_reducible apply Keeps.changeMode
    | with_reducible apply Keeps.identify
    | with_reducible apply Keeps.loadRetired
    | with_reducible apply Keeps.modModes
    | (with_reducible refine Keeps.ite (fun _ => ?_) (fun _ => ?_))
    | (with_reducible refine Keeps.foldl (fun _ _ _ => ?_) ?_)
    | dsimp only
    | split
    | with_reducible refine Keeps.mk' ?_ rfl rfl rfl rfl rfl rfl rfl

/-- `State.rebuildMaps` keeps it. -/
theorem Keeps.rebuildMaps {s0 s : State} (hs : Keeps s0 s) : Keeps s0 (State.rebuildMaps s) := by
  unfold State.rebuildMaps
  repeat' first
    | with_reducible assumption
    | dsimp only
    | with_reducible refine Keeps.mk' ?_ rfl rfl rfl rfl rfl rfl rfl

/-- `State.reclaimOpen` keeps it. -/
theorem Keeps.reclaimOpen {s0 s : State} (hs : Keeps s0 s) : Keeps s0 (State.reclaimOpen s) := by
  unfold State.reclaimOpen
  repeat' first
    | with_reducible assumption
    | with_reducible apply Keeps.modFlash
    | with_reducible apply Keeps.placeCopies
    | (with_reducible refine Keeps.foldl (fun _ _ _ => ?_) ?_)
    | dsimp only
    | with_reducible refine Keeps.mk' ?_ rfl rfl rfl rfl rfl rfl rfl

/-- `State.rebuild` keeps it. -/
theorem Keeps.rebuild {s0 s : State} (hs : Keeps s0 s) (ms : Nat) : Keeps s0 (State.rebuild s ms) := by
  unfold State.rebuild
  repeat' first
    | with_reducible assumption
    | with_reducible apply Keeps.modFlash
    | with_reducible apply Keeps.purge
    | with_reducible apply Keeps.rebuildMaps
    | with_reducible apply Keeps.reclaimOpen
    | with_reducible apply Keeps.record
    | with_reducible apply Keeps.tick
    | with_reducible apply Keeps.writeRoots
    | (with_reducible refine Keeps.ite (fun _ => ?_) (fun _ => ?_))
    | dsimp only
    | split
    | with_reducible refine Keeps.mk' ?_ rfl rfl rfl rfl rfl rfl rfl

/-- `State.enterService` keeps it. -/
theorem Keeps.enterService {s0 s : State} (hs : Keeps s0 s) (ms : Nat) : Keeps s0 (State.enterService s ms) := by
  unfold State.enterService
  repeat' first
    | with_reducible assumption
    | with_reducible apply Keeps.applyGroup
    | with_reducible apply Keeps.modModes
    | with_reducible apply Keeps.record
    | with_reducible apply Keeps.settle
    | dsimp only
    | with_reducible refine Keeps.mk' ?_ rfl rfl rfl rfl rfl rfl rfl

/-! ## TenantCmds -/

/-- `State.settle?` keeps it. -/
theorem Keeps.settle_q {s0 s : State} (h : Keeps s0 s) (c : Cmd) (n : Nat) : Keeps s0 (s.settle? c n) := by
  unfold State.settle?
  split
  · rename_i e
    exact ((((h.applySettings_some e).complete _ _ _ _ _).release _ _).release _ _).sweepCommitted
  · rename_i e
    exact (Keeps.applySettings_of e h).fail _ _

/-- `State.changeVfs` keeps it. -/
theorem Keeps.changeVfs {s0 s : State} (hs : Keeps s0 s) (port : Port) (enable : Bool) (numVfs : Nat) : Keeps s0
    (State.changeVfs s port enable numVfs) := by
  unfold State.changeVfs
  repeat' first
    | with_reducible assumption
    | with_reducible apply Keeps.releasePort
    | with_reducible apply Keeps.setVfs
    | with_reducible apply Keeps.sweepCommitted

/-- `State.changeCommand` keeps it. -/
theorem Keeps.changeCommand {s0 s : State} (hs : Keeps s0 s) (port : Port) (fn : Nat) (mse : Bool) (bme : Bool) : Keeps s0
    (State.changeCommand s port fn mse bme) := by
  unfold State.changeCommand
  repeat' first
    | with_reducible assumption
    | with_reducible apply Keeps.modFp
    | with_reducible apply Keeps.release
    | with_reducible apply Keeps.sweepCommitted
    | dsimp only
    | with_reducible refine Keeps.mk' ?_ rfl rfl rfl rfl rfl rfl rfl

/-- `State.changePower` keeps it. -/
theorem Keeps.changePower {s0 s : State} (hs : Keeps s0 s) (port : Port) (fn : Nat) (d3 : Bool) : Keeps s0
    (State.changePower s port fn d3) := by
  unfold State.changePower
  repeat' first
    | with_reducible assumption
    | with_reducible apply Keeps.modFp
    | with_reducible apply Keeps.release
    | with_reducible apply Keeps.sweepCommitted
    | dsimp only
    | with_reducible refine Keeps.mk' ?_ rfl rfl rfl rfl rfl rfl rfl

/-- `State.openVectors` keeps it. -/
theorem Keeps.openVectors {s0 s : State} (hs : Keeps s0 s) (port : Port) (fn : Nat) : Keeps s0
    (State.openVectors s port fn) := by
  unfold State.openVectors
  repeat' first
    | with_reducible assumption
    | with_reducible apply Keeps.modFp
    | with_reducible apply Keeps.msix
    | with_reducible apply Keeps.sendOrHold
    | (with_reducible refine Keeps.ite (fun _ => ?_) (fun _ => ?_))
    | (with_reducible refine Keeps.foldl (fun _ _ _ => ?_) ?_)
    | dsimp only
    | split
    | with_reducible refine Keeps.mk' ?_ rfl rfl rfl rfl rfl rfl rfl

/-- `State.configWrite` keeps it. -/
theorem Keeps.configWrite {s0 s : State} (hs : Keeps s0 s) (port : Port) (fn : Nat) (reg : CfgReg) (v : Nat) : Keeps s0
    (State.configWrite s port fn reg v) := by
  unfold State.configWrite
  repeat' first
    | with_reducible assumption
    | with_reducible apply Keeps.changeCommand
    | with_reducible apply Keeps.changePower
    | with_reducible apply Keeps.changeVfs
    | with_reducible apply Keeps.modFp
    | with_reducible apply Keeps.modHp
    | with_reducible apply Keeps.openVectors
    | (with_reducible refine Keeps.ite (fun _ => ?_) (fun _ => ?_))
    | dsimp only
    | split
    | with_reducible refine Keeps.mk' ?_ rfl rfl rfl rfl rfl rfl rfl

/-- `State.linkDown` keeps it. -/
theorem Keeps.linkDown {s0 s : State} (hs : Keeps s0 s) (port : Port) : Keeps s0 (State.linkDown s port) := by
  unfold State.linkDown
  repeat' first
    | with_reducible assumption
    | with_reducible apply Keeps.hpCount
    | with_reducible apply Keeps.modHp
    | with_reducible apply Keeps.record
    | (with_reducible refine Keeps.ite (fun _ => ?_) (fun _ => ?_))
    | dsimp only
    | split
    | with_reducible refine Keeps.mk' ?_ rfl rfl rfl rfl rfl rfl rfl

/-! ## StartCmds -/

/-- `State.loseAbsent` keeps it. -/
theorem Keeps.loseAbsent {s0 s : State} (hs : Keeps s0 s) : Keeps s0 (State.loseAbsent s) := by
  unfold State.loseAbsent
  repeat' first
    | with_reducible assumption
    | with_reducible apply Keeps.loseUnits
    | dsimp only

/-- `State.clearMarker` keeps it. -/
theorem Keeps.clearMarker {s0 s : State} (hs : Keeps s0 s) : Keeps s0 (State.clearMarker s) := by
  unfold State.clearMarker
  repeat' first
    | with_reducible assumption
    | with_reducible apply Keeps.modBoot
    | with_reducible apply Keeps.record
    | dsimp only

/-- `State.startPark` keeps it. -/
theorem Keeps.startPark {s0 s : State} (hs : Keeps s0 s) : Keeps s0 (State.startPark s) := by
  unfold State.startPark
  repeat' first
    | with_reducible assumption
    | with_reducible apply Keeps.modBoot
    | (with_reducible refine Keeps.ite (fun _ => ?_) (fun _ => ?_))
    | dsimp only
    | split
    | with_reducible refine Keeps.mk' ?_ rfl rfl rfl rfl rfl rfl rfl

/-- `State.enterPowerFail` keeps it. -/
theorem Keeps.enterPowerFail {s0 s : State} (h : Keeps s0 s) (cause : Nat) : Keeps s0 (s.enterPowerFail cause) := by
  unfold State.enterPowerFail
  refine Keeps.mkCrumbs ?_ rfl rfl rfl rfl rfl rfl rfl ?_
  · refine Keeps.foldl (fun _ _ k => k.resetJob _) (Keeps.modFlash ?_ _)
    exact Keeps.foldl (fun _ _ k => k.onfi _ _) ((h.startPark.tick.modModes _).changeMode _)
  · intro c k i
    split
    · exact i
    · exact i

/-! ## ObjectCmds -/

/-- `State.failResource` keeps it. -/
theorem Keeps.failResource {s0 s : State} (hs : Keeps s0 s) (c : Cmd) (st : Status) : Keeps s0 (State.failResource s c st) := by
  unfold State.failResource
  repeat' first
    | with_reducible assumption
    | with_reducible apply Keeps.failCheck

/-- `State.placeWrite` keeps it. -/
theorem Keeps.placeWrite {s0 s : State} (hs : Keeps s0 s) (tag : Nat) : Keeps s0 (State.placeWrite s tag) := by
  unfold State.placeWrite
  split
  · exact hs
  · dsimp only
    split
    · exact hs.voidWrite _
    · rename_i p e
      refine Keeps.modCmd ?_ _ _ fun _ h => h
      refine KeepsO.foldl (p := fun a : List Nat × State => a.2) ?_ (KeepsO.some hs) p e
      intro acc u ha
      refine KeepsO.bind fun a k => KeepsO.map fun r i => ?_
      exact Keeps.placeBlocks_at i (ha a k)

/-- `State.receive` keeps it. -/
theorem Keeps.receive {s0 s : State} (hs : Keeps s0 s) (c : Cmd) : Keeps s0 (State.receive s c) := by
  unfold State.receive
  repeat' first
    | with_reducible assumption
    | with_reducible apply Keeps.feedStream
    | with_reducible apply Keeps.launch
    | with_reducible apply Keeps.modStream
    | with_reducible exact fun _ h => h
    | exact fun _ h => h
    | dsimp only
    | with_reducible refine Keeps.mk' ?_ rfl rfl rfl rfl rfl rfl rfl

/-- `State.placeAppend` keeps it. -/
theorem Keeps.placeAppend {s0 s : State} (hs : Keeps s0 s) (tag : Nat) : Keeps s0 (State.placeAppend s tag) := by
  unfold State.placeAppend
  repeat' first
    | with_reducible assumption
    | with_reducible apply Keeps.dropPart
    | with_reducible apply Keeps.fail
    | with_reducible apply Keeps.modCmd
    | with_reducible apply Keeps.placeObject
    | with_reducible apply Keeps.pumpGroup
    | with_reducible apply Keeps.tryCommit
    | (with_reducible refine Keeps.placeObject_of (by with_reducible assumption) ?_)
    | (with_reducible refine Keeps.placeObject_at (by with_reducible assumption) ?_)
    | with_reducible exact fun _ h => h
    | with_reducible exact fun h => h
    | dsimp only
    | split
    | with_reducible refine Keeps.mk' ?_ rfl rfl rfl rfl rfl rfl rfl

/-- `State.readRange` keeps it. -/
theorem Keeps.readRange {s0 s : State} (hs : Keeps s0 s) (c : Cmd) (v : Version) (lo : Nat) (hi : Nat) : Keeps s0
    (State.readRange s c v lo hi) := by
  unfold State.readRange
  repeat' first
    | with_reducible assumption
    | with_reducible apply Keeps.beginGather
    | with_reducible apply Keeps.beginReads
    | with_reducible apply Keeps.finishRead
    | with_reducible apply Keeps.gatherSteps
    | with_reducible apply Keeps.launch
    | with_reducible apply Keeps.tick
    | with_reducible exact fun _ h => h
    | (with_reducible refine Keeps.getD (fun _ _ => ?_) ?_)
    | (with_reducible refine Keeps.foldl (fun _ _ _ => ?_) ?_)
    | dsimp only
    | split
    | with_reducible refine Keeps.mk' ?_ rfl rfl rfl rfl rfl rfl rfl

/-! ## JobCmds -/

/-- `State.loadRange` keeps it. -/
theorem Keeps.loadRange {s0 s : State} (hs : Keeps s0 s) (buf : Nat) (v : Version) (lo : Nat) (hi : Nat) : Keeps s0
    (State.loadRange s buf v lo hi) := by
  unfold State.loadRange
  repeat' first
    | with_reducible assumption
    | with_reducible apply Keeps.beginGather
    | with_reducible apply Keeps.beginReads
    | with_reducible apply Keeps.gatherSteps
    | with_reducible apply Keeps.tick
    | (with_reducible refine Keeps.foldl (fun _ _ _ => ?_) ?_)
    | dsimp only
    | split
    | with_reducible refine Keeps.mk' ?_ rfl rfl rfl rfl rfl rfl rfl

/-- `State.loadTable` keeps it. -/
theorem Keeps.loadTable {s0 s : State} (hs : Keeps s0 s) (slot : Nat) (tenant : Nat) (v : Version) : Keeps s0
    (State.loadTable s slot tenant v) := by
  unfold State.loadTable
  repeat' first
    | with_reducible assumption
    | with_reducible apply Keeps.loadRange
    | dsimp only
    | with_reducible refine Keeps.mk' ?_ rfl rfl rfl rfl rfl rfl rfl

/-- `State.enterJob` keeps it. -/
theorem Keeps.enterJob {s0 s : State} (hs : Keeps s0 s) (j : Job) : Keeps s0 (State.enterJob s j) := by
  unfold State.enterJob
  repeat' first
    | with_reducible assumption
    | with_reducible refine Keeps.mk' ?_ rfl rfl rfl rfl rfl rfl rfl

/-- `State.acceptJob` keeps it. -/
theorem Keeps.acceptJob {s0 s : State} (h : Keeps s0 s) (c : Cmd) (d : JobDesc) (p : Program) (table : Option Version) :
    Keeps s0 (s.acceptJob c d p table) := by
  unfold State.acceptJob
  split
  · exact h
  · split
    · exact h.fail _ _
    · rename_i slot _ _ x t e
      have k := ((Keeps.openCtx_of e h).launch c.tag (fun c => { c with ref := slot }) fun _ i => i).enterJob
        (t.newJob c slot x d p table)
      split
      · exact k.loadTable _ _ _
      · exact k

/-! ## JobEvents -/

/-- `State.reserveSlice` keeps it. -/
theorem Keeps.reserveSlice {s0 s : State} (hs : Keeps s0 s) (j : Job) (first : Option Nat) (input : Nat) (off : Nat)
    (len : Nat) : KeepsO s0 Prod.snd (State.reserveSlice s j first input off len) := by
  unfold State.reserveSlice
  repeat' first
    | with_reducible exact KeepsO.none
    | with_reducible refine KeepsO.some ?_
    | (with_reducible refine KeepsO.ite (fun _ => ?_) (fun _ => ?_))
    | (with_reducible refine KeepsO.map (fun _ _ => ?_))
    | with_reducible assumption
    | with_reducible apply Keeps.moveArea
    | (with_reducible refine Keeps.ite (fun _ => ?_) (fun _ => ?_))
    | dsimp only
    | split
    | with_reducible refine Keeps.mk' ?_ rfl rfl rfl rfl rfl rfl rfl

/-- `State.reserveSlice`, by its answer. -/
theorem Keeps.reserveSlice_of {s0 s : State} {j : Job} {first : Option Nat} {input : Nat} {off : Nat} {len : Nat}
    {a0 : Nat} {t_ : State} (eq0 : State.reserveSlice s j first input off len = some (a0, t_)) (hs : Keeps s0 s) : Keeps s0 t_ :=
  Keeps.reserveSlice hs j first input off len _ eq0

/-- `State.reserveSlice`, by its answer. -/
theorem Keeps.reserveSlice_at {s0 s : State} {j : Job} {first : Option Nat} {input : Nat} {off : Nat} {len : Nat}
    {r : Nat × State} (eq0 : State.reserveSlice s j first input off len = some r) (hs : Keeps s0 s) : Keeps s0 r.2 :=
  Keeps.reserveSlice hs j first input off len _ eq0

/-- `State.issueObject` keeps it. -/
theorem Keeps.issueObject {s0 s : State} (hs : Keeps s0 s) (j : Job) (x : NextSlice) : Keeps s0 (State.issueObject s j x) := by
  unfold State.issueObject
  repeat' first
    | with_reducible assumption
    | with_reducible apply Keeps.endJob
    | with_reducible apply Keeps.loadRange
    | with_reducible apply Keeps.modJob
    | with_reducible apply Keeps.reserveSlice
    | (with_reducible refine Keeps.reserveSlice_of (by with_reducible assumption) ?_)
    | (with_reducible refine Keeps.reserveSlice_at (by with_reducible assumption) ?_)
    | (with_reducible refine Keeps.ite (fun _ => ?_) (fun _ => ?_))
    | dsimp only
    | split
    | with_reducible refine Keeps.mk' ?_ rfl rfl rfl rfl rfl rfl rfl

/-- `State.issueLba` keeps it. -/
theorem Keeps.issueLba {s0 s : State} (hs : Keeps s0 s) (j : Job) (x : NextSlice) : Keeps s0 (State.issueLba s j x) := by
  unfold State.issueLba
  repeat' first
    | with_reducible assumption
    | with_reducible apply Keeps.beginReads
    | with_reducible apply Keeps.endJob
    | with_reducible apply Keeps.modJob
    | with_reducible apply Keeps.reserveSlice
    | (with_reducible refine Keeps.reserveSlice_of (by with_reducible assumption) ?_)
    | (with_reducible refine Keeps.reserveSlice_at (by with_reducible assumption) ?_)
    | (with_reducible refine Keeps.ite (fun _ => ?_) (fun _ => ?_))
    | dsimp only
    | split
    | with_reducible refine Keeps.mk' ?_ rfl rfl rfl rfl rfl rfl rfl

/-- `State.runLibrary` keeps it. -/
theorem Keeps.runLibrary {s0 s : State} (hs : Keeps s0 s) (c : Nat) (e : Entry) (j : Job) : Keeps s0
    (State.runLibrary s c e j) := by
  unfold State.runLibrary
  repeat' first
    | with_reducible assumption
    | with_reducible apply Keeps.endLibrary
    | with_reducible apply Keeps.fillScan
    | with_reducible apply Keeps.memRead
    | with_reducible apply Keeps.mendSlice
    | with_reducible apply Keeps.modCrumb
    | with_reducible apply Keeps.pushAgain
    | with_reducible apply Keeps.scanEnd
    | with_reducible exact fun _ h => h
    | with_reducible exact fun h => h
    | (with_reducible refine Keeps.ite (fun _ => ?_) (fun _ => ?_))
    | dsimp only
    | split
    | with_reducible refine Keeps.mk' ?_ rfl rfl rfl rfl rfl rfl rfl

/-- `State.startEntry` keeps it. -/
theorem Keeps.startEntry {s0 s : State} (hs : Keeps s0 s) (c : Nat) : Keeps s0 (State.startEntry s c) := by
  unfold State.startEntry
  repeat' first
    | with_reducible assumption
    | with_reducible apply Keeps.runLibrary
    | with_reducible apply Keeps.startReduce
    | with_reducible apply Keeps.startSlice
    | with_reducible apply Keeps.stopCrumb
    | (with_reducible refine Keeps.ite (fun _ => ?_) (fun _ => ?_))
    | dsimp only
    | split
    | with_reducible refine Keeps.mk' ?_ rfl rfl rfl rfl rfl rfl rfl

/-- `State.takeEntry` keeps it. -/
theorem Keeps.takeEntry {s0 s : State} (hs : Keeps s0 s) (c : Nat) (e : Entry) (reducing : Bool) : Keeps s0
    (State.takeEntry s c e reducing) := by
  unfold State.takeEntry
  repeat' first
    | with_reducible assumption
    | with_reducible apply Keeps.bump
    | with_reducible apply Keeps.modCrumb
    | with_reducible apply Keeps.modJob
    | with_reducible apply Keeps.startEntry
    | with_reducible exact fun _ h => h
    | with_reducible exact fun h => h
    | (with_reducible refine Keeps.ite (fun _ => ?_) (fun _ => ?_))
    | dsimp only
    | split
    | with_reducible refine Keeps.mk' ?_ rfl rfl rfl rfl rfl rfl rfl

/-- `State.placeJobOut` keeps it. -/
theorem Keeps.placeJobOut {s0 s : State} (hs : Keeps s0 s) (j : Job) : Keeps s0 (State.placeJobOut s j) := by
  unfold State.placeJobOut
  repeat' first
    | with_reducible assumption
    | with_reducible apply Keeps.commitJobOut
    | with_reducible apply Keeps.endJob
    | with_reducible apply Keeps.finishJob
    | with_reducible apply Keeps.modJob
    | with_reducible apply Keeps.placeObject
    | with_reducible apply Keeps.takeSeq
    | (with_reducible refine Keeps.placeObject_of (by with_reducible assumption) ?_)
    | (with_reducible refine Keeps.placeObject_at (by with_reducible assumption) ?_)
    | (with_reducible refine Keeps.takeSeq_of (by with_reducible assumption) ?_)
    | (with_reducible refine Keeps.ite (fun _ => ?_) (fun _ => ?_))
    | dsimp only
    | split
    | with_reducible refine Keeps.mk' ?_ rfl rfl rfl rfl rfl rfl rfl

/-- `State.writeJobOut` keeps it. -/
theorem Keeps.writeJobOut {s0 s : State} (hs : Keeps s0 s) (j : Job) : Keeps s0 (State.writeJobOut s j) := by
  unfold State.writeJobOut
  repeat' first
    | with_reducible assumption
    | with_reducible apply Keeps.endJob
    | with_reducible apply Keeps.finishJob
    | with_reducible apply Keeps.modJob
    | with_reducible apply Keeps.needSpace
    | with_reducible apply Keeps.placeJobOut
    | with_reducible apply Keeps.submitCoding
    | (with_reducible refine Keeps.needSpace_of (by with_reducible assumption) ?_)
    | (with_reducible refine Keeps.ite (fun _ => ?_) (fun _ => ?_))
    | dsimp only
    | split
    | with_reducible refine Keeps.mk' ?_ rfl rfl rfl rfl rfl rfl rfl

/-- `State.crumbFails` keeps it. -/
theorem Keeps.crumbFails {s0 s : State} (hs : Keeps s0 s) (c : Nat) : Keeps s0 (State.crumbFails s c) := by
  unfold State.crumbFails
  repeat' first
    | with_reducible assumption
    | with_reducible apply Keeps.bump
    | with_reducible apply Keeps.dropCoreDigests
    | with_reducible apply Keeps.modCrumb
    | with_reducible apply Keeps.placeEntry
    | with_reducible apply Keeps.record
    | exact fun _ _ => rfl
    | with_reducible exact fun _ h => h
    | with_reducible exact fun h => h
    | (with_reducible refine Keeps.getD (fun _ _ => ?_) ?_)
    | (with_reducible refine Keeps.ite (fun _ => ?_) (fun _ => ?_))
    | (with_reducible refine Keeps.foldl (fun _ _ _ => ?_) ?_)
    | dsimp only
    | split
    | with_reducible refine Keeps.mk' ?_ rfl rfl rfl rfl rfl rfl rfl

/-- `State.passedTest` keeps it. -/
theorem Keeps.passedTest {s0 s : State} (hs : Keeps s0 s) (job : Nat) (slice : Nat) : Keeps s0
    (State.passedTest s job slice) := by
  unfold State.passedTest
  repeat' first
    | with_reducible assumption
    | with_reducible apply Keeps.endJob
    | (with_reducible refine Keeps.ite (fun _ => ?_) (fun _ => ?_))
    | refine Keeps.mkCrumbs ?_ rfl rfl rfl rfl rfl rfl rfl
        (by intro c k h; exact h)

/-- `State.retireCrumb` keeps it. -/
theorem Keeps.retireCrumb {s0 s : State} (hs : Keeps s0 s) (c : Nat) : Keeps s0 (State.retireCrumb s c) := by
  unfold State.retireCrumb
  repeat' first
    | with_reducible assumption
    | with_reducible apply Keeps.modCrumb
    | with_reducible apply Keeps.placeEntry
    | with_reducible apply Keeps.record
    | with_reducible apply Keeps.retired
    | with_reducible apply Keeps.settle
    | with_reducible exact fun _ h => h
    | with_reducible exact fun h => h
    | (with_reducible refine Keeps.ite (fun _ => ?_) (fun _ => ?_))
    | (with_reducible refine Keeps.foldl (fun _ _ _ => ?_) ?_)
    | dsimp only
    | split
    | with_reducible refine Keeps.mk' ?_ rfl rfl rfl rfl rfl rfl rfl

/-- `State.restoreCrumb` keeps it. -/
theorem Keeps.restoreCrumb {s0 s : State} (hs : Keeps s0 s) (c : Nat) : Keeps s0 (State.restoreCrumb s c) := by
  unfold State.restoreCrumb
  repeat' first
    | with_reducible assumption
    | with_reducible apply Keeps.modCrumb
    | with_reducible apply Keeps.retired
    | exact fun _ _ => rfl
    | with_reducible exact fun _ h => h
    | with_reducible exact fun h => h
    | (with_reducible refine Keeps.ite (fun _ => ?_) (fun _ => ?_))
    | dsimp only
    | split
    | with_reducible refine Keeps.mk' ?_ rfl rfl rfl rfl rfl rfl rfl

/-! ## RollerCmds -/

/-- `State.writeOut` keeps it. -/
theorem Keeps.writeOut {s0 s : State} (hs : Keeps s0 s) (c : Cmd) (b : List Byte) : Keeps s0 (State.writeOut s c b) := by
  unfold State.writeOut
  repeat' first
    | with_reducible assumption
    | with_reducible apply Keeps.hostWrite
    | (with_reducible refine Keeps.ite (fun _ => ?_) (fun _ => ?_))
    | split

/-- `State.directOut` keeps it. -/
theorem Keeps.directOut {s0 s : State} (hs : Keeps s0 s) (c : Cmd) (b : List Byte) (st : Status) : Keeps s0
    (State.directOut s c b st) := by
  unfold State.directOut
  repeat' first
    | with_reducible assumption
    | with_reducible apply Keeps.complete
    | with_reducible apply Keeps.fail
    | with_reducible apply Keeps.writeOut
    | (with_reducible refine Keeps.ite (fun _ => ?_) (fun _ => ?_))
    | split

/-- `State.rolled` keeps it. -/
theorem Keeps.rolled {s0 s : State} (hs : Keeps s0 s) (j : RollerJob) (out : List (List Byte)) : Keeps s0
    (State.rolled s j out) := by
  unfold State.rolled
  repeat' first
    | with_reducible assumption
    | with_reducible apply Keeps.directOut
    | with_reducible apply Keeps.finishRead
    | with_reducible apply Keeps.modCmd
    | with_reducible apply Keeps.placeAppend
    | with_reducible apply Keeps.placeJobOut
    | with_reducible apply Keeps.placeWrite
    | with_reducible apply Keeps.pump
    | with_reducible apply Keeps.reap
    | with_reducible exact fun _ h => h
    | with_reducible exact fun h => h
    | (with_reducible refine Keeps.ite (fun _ => ?_) (fun _ => ?_))
    | dsimp only
    | split
    | with_reducible refine Keeps.mk' ?_ rfl rfl rfl rfl rfl rfl rfl

/-- `State.afterBlock` keeps it. -/
theorem Keeps.afterBlock {s0 s : State} (hs : Keeps s0 s) (slot : Nat) (j : RollerJob) (out : List (List Byte)) : Keeps s0
    (State.afterBlock s slot j out) := by
  unfold State.afterBlock
  repeat' first
    | with_reducible assumption
    | with_reducible apply Keeps.rolled
    | (with_reducible refine Keeps.ite (fun _ => ?_) (fun _ => ?_))
    | dsimp only
    | split

/-- `State.compressorStep` keeps it. -/
theorem Keeps.compressorStep {s0 s : State} (h : Keeps s0 s) (p : Nat) : Keeps s0 (s.compressorStep p) := by
  unfold State.compressorStep
  dsimp only
  split
  · split
    · rename_i e
      exact (h.codeRoller_some e).afterBlock _ _ _
    · exact h.codeRoller _ _ _ _
  · split
    · exact h
    · split
      · split
        · exact h.codeRoller _ _ _ _
        · rename_i e
          exact ((h.codeRoller_some e).modRoller _ _).afterBlock _ _ _
      · exact h.modRoller _ _

/-- `State.decodeAgain` keeps it. -/
theorem Keeps.decodeAgain {s0 s : State} (hs : Keeps s0 s) (j : RollerJob) : Keeps s0 (State.decodeAgain s j) := by
  unfold State.decodeAgain
  repeat' first
    | with_reducible assumption
    | with_reducible apply Keeps.beginRebuilds
    | with_reducible apply Keeps.finishRead
    | with_reducible apply Keeps.missPiece
    | with_reducible apply Keeps.modCmd
    | with_reducible apply Keeps.pieceRead
    | with_reducible apply Keeps.pump
    | with_reducible apply Keeps.reap
    | with_reducible apply Keeps.sliceFailed
    | with_reducible exact fun _ h => h
    | with_reducible exact fun h => h
    | (with_reducible refine Keeps.getD (fun _ _ => ?_) ?_)
    | (with_reducible refine Keeps.ite (fun _ => ?_) (fun _ => ?_))
    | dsimp only
    | split
    | with_reducible refine Keeps.mk' ?_ rfl rfl rfl rfl rfl rfl rfl

/-- `State.decodeOwned` keeps it. -/
theorem Keeps.decodeOwned {s0 s : State} (hs : Keeps s0 s) (p : Nat) (slot : Nat) (j : RollerJob) : Keeps s0
    (State.decodeOwned s p slot j) := by
  unfold State.decodeOwned
  repeat' first
    | with_reducible assumption
    | with_reducible apply Keeps.afterBlock
    | with_reducible apply Keeps.blockDecoded
    | with_reducible apply Keeps.decodeAgain
    | with_reducible apply Keeps.directOut
    | with_reducible apply Keeps.endRoller
    | with_reducible apply Keeps.rollerError
    | with_reducible apply Keeps.tick
    | (with_reducible refine Keeps.getD (fun _ _ => ?_) ?_)
    | dsimp only
    | split
    | with_reducible refine Keeps.mk' ?_ rfl rfl rfl rfl rfl rfl rfl

/-- `State.regainHalf` keeps it. -/
theorem Keeps.regainHalf {s0 s : State} (hs : Keeps s0 s) (comp : Bool) : Keeps s0 (State.regainHalf s comp) := by
  unfold State.regainHalf
  repeat' first
    | with_reducible assumption
    | with_reducible apply Keeps.drainRings
    | with_reducible apply Keeps.moveJobs
    | (with_reducible refine Keeps.foldl (fun _ _ _ => ?_) ?_)
    | dsimp only

/-! ## HouseCmds -/

/-- `State.modHk` keeps it. -/
theorem Keeps.modHk {s0 s : State} (hs : Keeps s0 s) (f : Housekeeping → Housekeeping) : Keeps s0 (State.modHk s f) := by
  unfold State.modHk
  repeat' first
    | with_reducible assumption
    | with_reducible refine Keeps.mk' ?_ rfl rfl rfl rfl rfl rfl rfl

/-- `State.alertPin` keeps it. -/
theorem Keeps.alertPin {s0 t : State} (h : Keeps s0 t) (s : State) : Keeps s0 (s.alertPin t) := by
  unfold State.alertPin
  exact Keeps.ite (fun _ => h) fun _ => h.emit _

/-- `State.takeTj` keeps it. -/
theorem Keeps.takeTj {s0 s : State} (hs : Keeps s0 s) : Keeps s0 (State.takeTj s) := by
  unfold State.takeTj
  repeat' first
    | with_reducible assumption
    | with_reducible apply Keeps.modHk
    | (with_reducible refine Keeps.ite (fun _ => ?_) (fun _ => ?_))
    | (with_reducible refine Keeps.foldl (fun _ _ _ => ?_) ?_)
    | dsimp only
    | split
    | with_reducible refine Keeps.mk' ?_ rfl rfl rfl rfl rfl rfl rfl

/-- `State.readJunction` keeps it. -/
theorem Keeps.readJunction {s0 s : State} (hs : Keeps s0 s) (i : Nat) (reading : Option Int) : Keeps s0
    (State.readJunction s i reading) := by
  unfold State.readJunction
  repeat' first
    | with_reducible assumption
    | with_reducible apply Keeps.count
    | with_reducible apply Keeps.modHk
    | with_reducible apply Keeps.record
    | with_reducible apply Keeps.takeTj
    | with_reducible apply Keeps.tick
    | (with_reducible refine Keeps.getD (fun _ _ => ?_) ?_)
    | (with_reducible refine Keeps.ite (fun _ => ?_) (fun _ => ?_))
    | dsimp only
    | split
    | with_reducible refine Keeps.mk' ?_ rfl rfl rfl rfl rfl rfl rfl

/-- `State.readCardTemp` keeps it. -/
theorem Keeps.readCardTemp {s0 s : State} (hs : Keeps s0 s) (n : Nat) (reading : Option Int) : Keeps s0
    (State.readCardTemp s n reading) := by
  unfold State.readCardTemp
  repeat' first
    | with_reducible assumption
    | with_reducible apply Keeps.emit
    | with_reducible apply Keeps.failCard
    | with_reducible apply Keeps.i2cRead
    | with_reducible apply Keeps.modCard
    | with_reducible apply Keeps.modHk
    | with_reducible apply Keeps.record
    | with_reducible apply Keeps.emit
    | (with_reducible refine Keeps.ite (fun _ => ?_) (fun _ => ?_))
    | dsimp only
    | split
    | with_reducible refine Keeps.mk' ?_ rfl rfl rfl rfl rfl rfl rfl

/-- `State.readStack` keeps it. -/
theorem Keeps.readStack {s0 s : State} (hs : Keeps s0 s) (n : Nat) (reading : Option Int) : Keeps s0
    (State.readStack s n reading) := by
  unfold State.readStack
  repeat' first
    | with_reducible assumption
    | with_reducible apply Keeps.doubleRefresh
    | with_reducible apply Keeps.modHk
    | with_reducible apply Keeps.modStack
    | with_reducible apply Keeps.normalRefresh
    | with_reducible apply Keeps.writeDelays
    | with_reducible exact fun _ h => h
    | with_reducible exact fun h => h
    | (with_reducible refine Keeps.ite (fun _ => ?_) (fun _ => ?_))
    | dsimp only
    | split
    | with_reducible refine Keeps.mk' ?_ rfl rfl rfl rfl rfl rfl rfl

/-- `State.readRail` keeps it. -/
theorem Keeps.readRail {s0 s : State} (hs : Keeps s0 s) (r : Nat) (current : Bool) (reading : Option Int) : Keeps s0
    (State.readRail s r current reading) := by
  unfold State.readRail
  repeat' first
    | with_reducible assumption
    | with_reducible apply Keeps.alarm
    | with_reducible apply Keeps.modHk
    | with_reducible apply Keeps.raise
    | with_reducible apply Keeps.record
    | (with_reducible refine Keeps.ite (fun _ => ?_) (fun _ => ?_))
    | (with_reducible refine Keeps.foldl (fun _ _ _ => ?_) ?_)
    | dsimp only
    | split
    | with_reducible refine Keeps.mk' ?_ rfl rfl rfl rfl rfl rfl rfl

/-- `State.readPresence` keeps it. -/
theorem Keeps.readPresence {s0 s : State} (hs : Keeps s0 s) (n : Nat) (reading : Option Int) : Keeps s0
    (State.readPresence s n reading) := by
  unfold State.readPresence
  repeat' first
    | with_reducible assumption
    | with_reducible apply Keeps.cardInserted
    | with_reducible apply Keeps.cardRemoved
    | (with_reducible refine Keeps.ite (fun _ => ?_) (fun _ => ?_))
    | dsimp only
    | split
    | with_reducible refine Keeps.mk' ?_ rfl rfl rfl rfl rfl rfl rfl

/-- `State.visit` keeps it. -/
theorem Keeps.visit {s0 s : State} (hs : Keeps s0 s) (chan : Nat) (reading : Option Int) : Keeps s0
    (State.visit s chan reading) := by
  unfold State.visit
  repeat' first
    | with_reducible assumption
    | with_reducible apply Keeps.readCardTemp
    | with_reducible apply Keeps.readJunction
    | with_reducible apply Keeps.readPresence
    | with_reducible apply Keeps.readRail
    | with_reducible apply Keeps.readStack
    | (with_reducible refine Keeps.ite (fun _ => ?_) (fun _ => ?_))
    | split

/-- `State.evalWarn` keeps it. -/
theorem Keeps.evalWarn {s0 s : State} (hs : Keeps s0 s) : Keeps s0 (State.evalWarn s) := by
  unfold State.evalWarn
  repeat' first
    | with_reducible assumption
    | with_reducible apply Keeps.modHk
    | with_reducible apply Keeps.record
    | (with_reducible refine Keeps.ite (fun _ => ?_) (fun _ => ?_))
    | dsimp only
    | split
    | with_reducible refine Keeps.mk' ?_ rfl rfl rfl rfl rfl rfl rfl

/-- `State.evalStep` keeps it. -/
theorem Keeps.evalStep {s0 s : State} (hs : Keeps s0 s) : Keeps s0 (State.evalStep s) := by
  unfold State.evalStep
  repeat' first
    | with_reducible assumption
    | with_reducible apply Keeps.modHk
    | with_reducible apply Keeps.record
    | (with_reducible refine Keeps.ite (fun _ => ?_) (fun _ => ?_))
    | dsimp only
    | split
    | with_reducible refine Keeps.mk' ?_ rfl rfl rfl rfl rfl rfl rfl

/-- `State.evalTrip` keeps it. -/
theorem Keeps.evalTrip {s0 s : State} (hs : Keeps s0 s) : Keeps s0 (State.evalTrip s) := by
  unfold State.evalTrip
  repeat' first
    | with_reducible assumption
    | with_reducible apply Keeps.emit
    | with_reducible apply Keeps.modHk
    | with_reducible apply Keeps.record
    | with_reducible apply Keeps.emit
    | (with_reducible refine Keeps.ite (fun _ => ?_) (fun _ => ?_))
    | dsimp only
    | split
    | with_reducible refine Keeps.mk' ?_ rfl rfl rfl rfl rfl rfl rfl

/-- `State.crumbSram` keeps it. -/
theorem Keeps.crumbSram {s0 s : State} (hs : Keeps s0 s) (c : Nat) : Keeps s0 (State.crumbSram s c) := by
  unfold State.crumbSram
  repeat' first
    | with_reducible assumption
    | with_reducible apply Keeps.crumbFails
    | (with_reducible refine Keeps.ite (fun _ => ?_) (fun _ => ?_))
    | split

/-- `State.mergeSram` keeps it. -/
theorem Keeps.mergeSram {s0 s : State} (hs : Keeps s0 s) (c : Nat) : Keeps s0 (State.mergeSram s c) := by
  unfold State.mergeSram
  repeat' first
    | with_reducible assumption
    | with_reducible apply Keeps.bump
    | with_reducible apply Keeps.modCtrl
    | with_reducible apply Keeps.modMem
    | with_reducible apply Keeps.retireMerge
    | with_reducible apply Keeps.tick
    | with_reducible exact fun h => PkgMem.wf_store h _ _ _
    | with_reducible exact fun _ h => h
    | with_reducible exact fun h => h
    | (with_reducible refine Keeps.ite (fun _ => ?_) (fun _ => ?_))
    | dsimp only
    | split
    | with_reducible refine Keeps.mk' ?_ rfl rfl rfl rfl rfl rfl rfl

/-- `State.ringSram` keeps it. -/
theorem Keeps.ringSram {s0 s : State} (hs : Keeps s0 s) (p : Nat) : Keeps s0 (State.ringSram s p) := by
  unfold State.ringSram
  repeat' first
    | with_reducible assumption
    | with_reducible apply Keeps.rollerFails
    | (with_reducible refine Keeps.ite (fun _ => ?_) (fun _ => ?_))
    | dsimp only
    | split

/-- `State.modEvr` keeps it, if the change keeps the records in order. -/
theorem Keeps.modEvr {s0 s : State} (h : Keeps s0 s) (f : EvRecorder → EvRecorder)
    (hf : EventsOrdered s.evr → EventsOrdered (f s.evr)) : Keeps s0 (s.modEvr f) :=
  h.evr rfl rfl rfl rfl rfl rfl hf

/-- `State.evrFetch` keeps it. -/
theorem Keeps.evrFetch {s0 s : State} (hs : Keeps s0 s) (value : Reg) : Keeps s0 (State.evrFetch s value) := by
  unfold State.evrFetch
  repeat' first
    | with_reducible assumption
    | with_reducible apply Keeps.modEvr
    | exact fun h => h
    | with_reducible exact fun _ h => h
    | with_reducible exact fun h => h
    | (with_reducible refine Keeps.ite (fun _ => ?_) (fun _ => ?_))
    | dsimp only
    | split
    | with_reducible refine Keeps.mk' ?_ rfl rfl rfl rfl rfl rfl rfl

/-! ## Isa16 -/

/-- `ldfOp` keeps it. -/
theorem keeps_ldfOp {s0 s : State} (hs : Keeps s0 s) (k : CoreSel) (d : Fin 16) (a : Fin 16) (x : Fin 16) (sc : Fin 4)
    (mode : Fin 4) (size : Fin 4) (sgn : Bool) : KeepsE s0 (fun t => t) (ldfOp k d a x sc mode size sgn s) := by
  unfold ldfOp
  repeat' first
    | with_reducible exact KeepsE.error
    | with_reducible refine KeepsE.ok ?_
    | (with_reducible refine KeepsE.ite (fun _ => ?_) (fun _ => ?_))
    | (with_reducible refine KeepsE.bind (fun _ _ => ?_))
    | with_reducible assumption
    | with_reducible apply Keeps.loadFlat
    | with_reducible apply Keeps.setG
    | (with_reducible refine Keeps.loadFlat_of (by with_reducible assumption) ?_)
    | (with_reducible refine Keeps.loadFlat_at (by with_reducible assumption) ?_)
    | dsimp only

/-- `ldfOp`, by its answer. -/
theorem keeps_ldfOp_of {s0 s : State} {k : CoreSel} {d : Fin 16} {a : Fin 16} {x : Fin 16} {sc : Fin 4} {mode : Fin 4}
    {size : Fin 4} {sgn : Bool} {t_ : State} (eq0 : ldfOp k d a x sc mode size sgn s = Except.ok t_) (hs : Keeps s0 s) : Keeps
    s0 t_ :=
  keeps_ldfOp hs k d a x sc mode size sgn _ eq0

/-- `stfOp` keeps it. -/
theorem keeps_stfOp {s0 s : State} (hs : Keeps s0 s) (k : CoreSel) (d : Fin 16) (a : Fin 16) (x : Fin 16) (sc : Fin 4)
    (mode : Fin 4) (size : Fin 4) : KeepsE s0 (fun t => t) (stfOp k d a x sc mode size s) := by
  unfold stfOp
  repeat' first
    | with_reducible exact KeepsE.error
    | with_reducible refine KeepsE.ok ?_
    | (with_reducible refine KeepsE.ite (fun _ => ?_) (fun _ => ?_))
    | (with_reducible refine KeepsE.bind (fun _ _ => ?_))
    | with_reducible assumption
    | with_reducible apply Keeps.setG
    | with_reducible apply Keeps.storeFlat
    | (with_reducible refine Keeps.storeFlat_of (by with_reducible assumption) ?_)
    | dsimp only

/-- `stfOp`, by its answer. -/
theorem keeps_stfOp_of {s0 s : State} {k : CoreSel} {d : Fin 16} {a : Fin 16} {x : Fin 16} {sc : Fin 4} {mode : Fin 4}
    {size : Fin 4} {t_ : State} (eq0 : stfOp k d a x sc mode size s = Except.ok t_) (hs : Keeps s0 s) : Keeps s0 t_ :=
  keeps_stfOp hs k d a x sc mode size _ eq0

/-- `vldOp` keeps it. -/
theorem keeps_vldOp {s0 s : State} (hs : Keeps s0 s) (k : CoreSel) (d : Fin 16) (a : Fin 16) (bk : Fin 4) (f : Bool)
    (disp : BitVec 12) : KeepsE s0 (fun t => t) (vldOp k d a bk f disp s) := by
  unfold vldOp
  repeat' first
    | with_reducible exact KeepsE.error
    | with_reducible refine KeepsE.ok ?_
    | (with_reducible refine KeepsE.ite (fun _ => ?_) (fun _ => ?_))
    | (with_reducible refine KeepsE.bind (fun _ _ => ?_))
    | with_reducible assumption
    | with_reducible apply Keeps.load
    | with_reducible apply Keeps.modCore
    | with_reducible apply Keeps.setG
    | (with_reducible refine Keeps.load_of (by with_reducible assumption) ?_)
    | (with_reducible refine Keeps.load_at (by with_reducible assumption) ?_)
    | with_reducible exact fun _ h => h
    | with_reducible exact fun h => h
    | dsimp only

/-- `vldOp`, by its answer. -/
theorem keeps_vldOp_of {s0 s : State} {k : CoreSel} {d : Fin 16} {a : Fin 16} {bk : Fin 4} {f : Bool} {disp : BitVec 12}
    {t_ : State} (eq0 : vldOp k d a bk f disp s = Except.ok t_) (hs : Keeps s0 s) : Keeps s0 t_ :=
  keeps_vldOp hs k d a bk f disp _ eq0

/-- `vstOp` keeps it. -/
theorem keeps_vstOp {s0 s : State} (hs : Keeps s0 s) (k : CoreSel) (d : Fin 16) (a : Fin 16) (bk : Fin 4) (f : Bool)
    (disp : BitVec 12) : KeepsE s0 (fun t => t) (vstOp k d a bk f disp s) := by
  unfold vstOp
  repeat' first
    | with_reducible exact KeepsE.error
    | with_reducible refine KeepsE.ok ?_
    | (with_reducible refine KeepsE.ite (fun _ => ?_) (fun _ => ?_))
    | (with_reducible refine KeepsE.bind (fun _ _ => ?_))
    | with_reducible assumption
    | with_reducible apply Keeps.setG
    | with_reducible apply Keeps.storeAt
    | (with_reducible refine Keeps.storeAt_of (by with_reducible assumption) ?_)
    | dsimp only

/-- `vstOp`, by its answer. -/
theorem keeps_vstOp_of {s0 s : State} {k : CoreSel} {d : Fin 16} {a : Fin 16} {bk : Fin 4} {f : Bool} {disp : BitVec 12}
    {t_ : State} (eq0 : vstOp k d a bk f disp s = Except.ok t_) (hs : Keeps s0 s) : Keeps s0 t_ :=
  keeps_vstOp hs k d a bk f disp _ eq0

/-- `cpyOp` keeps it. -/
theorem keeps_cpyOp {s0 s : State} (hs : Keeps s0 s) (k : CoreSel) (d : Fin 16) (a : Fin 16) (size : Fin 4) : KeepsE s0
    (fun t => t) (cpyOp k d a size s) := by
  unfold cpyOp
  repeat' first
    | with_reducible exact KeepsE.error
    | with_reducible refine KeepsE.ok ?_
    | (with_reducible refine KeepsE.ite (fun _ => ?_) (fun _ => ?_))
    | (with_reducible refine KeepsE.bind (fun _ _ => ?_))
    | with_reducible assumption
    | with_reducible apply Keeps.loadFlat
    | with_reducible apply Keeps.setG
    | with_reducible apply Keeps.storeFlat
    | (with_reducible refine Keeps.loadFlat_of (by with_reducible assumption) ?_)
    | (with_reducible refine Keeps.loadFlat_at (by with_reducible assumption) ?_)
    | (with_reducible refine Keeps.storeFlat_of (by with_reducible assumption) ?_)
    | dsimp only

/-- `cpyOp`, by its answer. -/
theorem keeps_cpyOp_of {s0 s : State} {k : CoreSel} {d : Fin 16} {a : Fin 16} {size : Fin 4} {t_ : State}
    (eq0 : cpyOp k d a size s = Except.ok t_) (hs : Keeps s0 s) : Keeps s0 t_ :=
  keeps_cpyOp hs k d a size _ eq0

/-- `repEffect` keeps it. -/
theorem keeps_repEffect {s0 s : State} (hs : Keeps s0 s) (k : CoreSel) (body : RepBody) : KeepsE s0 (fun t => t)
    (repEffect k body s) := by
  unfold repEffect
  repeat' first
    | with_reducible exact KeepsE.error
    | with_reducible refine KeepsE.ok ?_
    | (with_reducible refine KeepsE.ite (fun _ => ?_) (fun _ => ?_))
    | (with_reducible refine KeepsE.bind (fun _ _ => ?_))
    | with_reducible assumption
    | with_reducible apply keeps_cpyOp
    | with_reducible apply keeps_ldfOp
    | with_reducible apply Keeps.pureOp
    | with_reducible apply keeps_stfOp
    | with_reducible apply keeps_vldOp
    | with_reducible apply keeps_vstOp
    | (with_reducible refine keeps_cpyOp_of (by with_reducible assumption) ?_)
    | (with_reducible refine keeps_ldfOp_of (by with_reducible assumption) ?_)
    | (with_reducible refine Keeps.pureOp_of (by with_reducible assumption) ?_)
    | (with_reducible refine keeps_stfOp_of (by with_reducible assumption) ?_)
    | (with_reducible refine keeps_vldOp_of (by with_reducible assumption) ?_)
    | (with_reducible refine keeps_vstOp_of (by with_reducible assumption) ?_)
    | dsimp only
    | split
    | with_reducible refine Keeps.mk' ?_ rfl rfl rfl rfl rfl rfl rfl

/-- `repEffect`, by its answer. -/
theorem keeps_repEffect_of {s0 s : State} {k : CoreSel} {body : RepBody} {t_ : State}
    (eq0 : repEffect k body s = Except.ok t_) (hs : Keeps s0 s) : Keeps s0 t_ :=
  keeps_repEffect hs k body _ eq0

/-- `popRegs` keeps it. -/
theorem keeps_popRegs {s0 : State} (k : CoreSel) (l : List (Fin 16)) (a : Word) {s : State} (h : Keeps s0 s) :
    KeepsE s0 (fun t => t) (popRegs k l a s) := by
  induction l generalizing a s with
  | nil => exact KeepsE.ok h
  | cons i r ih => exact KeepsE.bind fun x e => ih _ ((Keeps.loadFlat_at e h).setG _ _ _)

/-- `retFrame` keeps it. -/
theorem keeps_retFrame {s0 s : State} (h : Keeps s0 s) (k : CoreSel) : KeepsE s0 (fun t => t) (retFrame k s) := by
  unfold retFrame
  dsimp only
  split
  · exact KeepsE.error
  · refine KeepsE.bind fun x e => KeepsE.bind fun _ _ => KeepsE.bind fun t g => KeepsE.bind fun y f => ?_
    exact KeepsE.ok (((Keeps.loadFlat_at f (keeps_popRegs k _ _ (Keeps.loadFlat_at e h) _ g)).setG _ _ _).setG _ _ _)

/-- `retFrame`, by its answer. -/
theorem keeps_retFrame_of {s0 s : State} {k : CoreSel} {t_ : State} (eq0 : retFrame k s = Except.ok t_) (hs : Keeps s0 s) :
    Keeps s0 t_ :=
  keeps_retFrame hs k _ eq0

/-! ## IsaMem -/

/-- `bankedLoad` keeps it. -/
theorem keeps_bankedLoad {s0 s : State} (hs : Keeps s0 s) (k : CoreSel) (d : Fin 16) (bk : Fin 4) (size : Fin 4)
    (sgn : Bool) (base : Word) (disp : BitVec 16) : KeepsE s0 (fun t => t) (bankedLoad k d bk size sgn base disp s) := by
  unfold bankedLoad
  repeat' first
    | with_reducible exact KeepsE.error
    | with_reducible refine KeepsE.ok ?_
    | (with_reducible refine KeepsE.ite (fun _ => ?_) (fun _ => ?_))
    | (with_reducible refine KeepsE.bind (fun _ _ => ?_))
    | with_reducible assumption
    | with_reducible apply Keeps.load
    | with_reducible apply Keeps.setG
    | (with_reducible refine Keeps.load_of (by with_reducible assumption) ?_)
    | (with_reducible refine Keeps.load_at (by with_reducible assumption) ?_)
    | dsimp only

/-- `bankedLoad`, by its answer. -/
theorem keeps_bankedLoad_of {s0 s : State} {k : CoreSel} {d : Fin 16} {bk : Fin 4} {size : Fin 4} {sgn : Bool}
    {base : Word} {disp : BitVec 16} {t_ : State} (eq0 : bankedLoad k d bk size sgn base disp s = Except.ok t_)
    (hs : Keeps s0 s) : Keeps s0 t_ :=
  keeps_bankedLoad hs k d bk size sgn base disp _ eq0

/-- `bankedStore` keeps it. -/
theorem keeps_bankedStore {s0 s : State} (hs : Keeps s0 s) (k : CoreSel) (d : Fin 16) (bk : Fin 4) (size : Fin 4)
    (base : Word) (disp : BitVec 16) : KeepsE s0 (fun t => t) (bankedStore k d bk size base disp s) := by
  unfold bankedStore
  repeat' first
    | with_reducible exact KeepsE.error
    | with_reducible refine KeepsE.ok ?_
    | (with_reducible refine KeepsE.ite (fun _ => ?_) (fun _ => ?_))
    | (with_reducible refine KeepsE.bind (fun _ _ => ?_))
    | with_reducible assumption
    | with_reducible apply Keeps.storeAt
    | (with_reducible refine Keeps.storeAt_of (by with_reducible assumption) ?_)

/-- `bankedStore`, by its answer. -/
theorem keeps_bankedStore_of {s0 s : State} {k : CoreSel} {d : Fin 16} {bk : Fin 4} {size : Fin 4} {base : Word}
    {disp : BitVec 16} {t_ : State} (eq0 : bankedStore k d bk size base disp s = Except.ok t_) (hs : Keeps s0 s) : Keeps s0 t_ :=
  keeps_bankedStore hs k d bk size base disp _ eq0

/-- `amoOp` keeps it. -/
theorem keeps_amoOp {s0 s : State} (hs : Keeps s0 s) (k : CoreSel) (d : Fin 16) (a : Fin 16) (bk : Fin 4)
    (new : Word → Word) : KeepsE s0 (fun t => t) (amoOp k d a bk new s) := by
  unfold amoOp
  repeat' first
    | with_reducible exact KeepsE.error
    | with_reducible refine KeepsE.ok ?_
    | (with_reducible refine KeepsE.ite (fun _ => ?_) (fun _ => ?_))
    | (with_reducible refine KeepsE.bind (fun _ _ => ?_))
    | with_reducible assumption
    | with_reducible apply Keeps.load
    | with_reducible apply Keeps.setG
    | with_reducible apply Keeps.winRead
    | with_reducible apply Keeps.winWrite
    | (with_reducible refine Keeps.load_of (by with_reducible assumption) ?_)
    | (with_reducible refine Keeps.load_at (by with_reducible assumption) ?_)
    | (with_reducible refine Keeps.winRead_of (by with_reducible assumption) ?_)
    | (with_reducible refine Keeps.winRead_at (by with_reducible assumption) ?_)
    | (with_reducible refine Keeps.winWrite_of (by with_reducible assumption) ?_)
    | dsimp only

/-- `amoOp`, by its answer. -/
theorem keeps_amoOp_of {s0 s : State} {k : CoreSel} {d : Fin 16} {a : Fin 16} {bk : Fin 4} {new : Word → Word} {t_ : State}
    (eq0 : amoOp k d a bk new s = Except.ok t_) (hs : Keeps s0 s) : Keeps s0 t_ :=
  keeps_amoOp hs k d a bk new _ eq0

/-- `saveRegs` keeps it. -/
theorem keeps_saveRegs {s0 : State} (k : CoreSel) (l : List (Fin 16)) (a : Word) {s : State} (h : Keeps s0 s) :
    KeepsE s0 (fun t => t) (saveRegs k l a s) := by
  induction l generalizing a s with
  | nil => exact KeepsE.ok h
  | cons i r ih => exact KeepsE.bind fun x e => ih _ (Keeps.storeFlat_of e h)

/-- `callFrame` keeps it. -/
theorem keeps_callFrame {s0 s : State} (h : Keeps s0 s) (k : CoreSel) (mask : BitVec 16) (next : Word) :
    KeepsE s0 (fun t => t) (callFrame k mask next s) := by
  unfold callFrame
  refine KeepsE.bind fun _ _ => KeepsE.bind fun x e => KeepsE.bind fun y f => KeepsE.bind fun t g => ?_
  exact KeepsE.ok (((keeps_saveRegs k _ _ (Keeps.storeFlat_of f (Keeps.storeFlat_of e h)) _ g).setG _ _ _).setG _ _ _)

/-- `callFrame`, by its answer. -/
theorem keeps_callFrame_of {s0 s : State} {k : CoreSel} {mask : BitVec 16} {next : Word} {t_ : State}
    (eq0 : callFrame k mask next s = Except.ok t_) (hs : Keeps s0 s) : Keeps s0 t_ :=
  keeps_callFrame hs k mask next _ eq0

/-! ## KeyCmds -/

/-- `State.emptyTenantKeys` keeps it. -/
theorem Keeps.emptyTenantKeys {s0 s : State} (hs : Keeps s0 s) (t : Nat) : Keeps s0 (State.emptyTenantKeys s t) := by
  unfold State.emptyTenantKeys
  repeat' first
    | with_reducible assumption
    | with_reducible apply Keeps.modKeys
    | dsimp only
    | with_reducible refine Keeps.mk' ?_ rfl rfl rfl rfl rfl rfl rfl

/-- `State.deleteAll` keeps it. -/
theorem Keeps.deleteAll {s0 s : State} (h : Keeps s0 s) (tag t : Nat) : KeepsO s0 (fun t => t) (s.deleteAll tag t) := by
  unfold State.deleteAll
  have add : ∀ (k : RecordKind) (acc : Option State) (n : Nat), KeepsO s0 (fun t => t) acc →
      KeepsO s0 (fun t => t) (acc.bind fun s => (s.takeSeq.2).addRecord tag t n k s.takeSeq.1) :=
    fun _ _ _ ha => KeepsO.bind fun a e => (ha a e).takeSeq.addRecord _ _ _ _ _
  exact KeepsO.foldl (add .nsDelete) (KeepsO.foldl (add .spaceDelete) (KeepsO.some h))

/-- `State.deleteAll`, by its answer. -/
theorem Keeps.deleteAll_of {s0 s : State} {tag : Nat} {t : Nat} {t_ : State} (eq0 : State.deleteAll s tag t = some t_)
    (hs : Keeps s0 s) : Keeps s0 t_ :=
  Keeps.deleteAll hs tag t _ eq0

/-! ## MediaCmds -/

/-- `State.poweredFor` keeps it, if what it runs does. -/
theorem Keeps.poweredFor {s0 s : State} (hs : Keeps s0 s) (r : MediaRef) (codes : List Nat) (f : State → State)
    (hf : ∀ t, Keeps s0 t → Keeps s0 (f t)) : Keeps s0 (State.poweredFor s r codes f) := by
  unfold State.poweredFor
  dsimp only
  exact Keeps.ite (fun _ => (hf _ ((hs.cardPower _ _).onfi _ _)).cardPower _ _) fun _ => hf _ (hs.onfi _ _)

/-! ## RegCmds -/

/-- `State.clearRc` keeps it. -/
theorem Keeps.clearRc {s0 s : State} (hs : Keeps s0 s) (port : Port) (fn : Nat) (p : Place) : Keeps s0 (State.clearRc s port fn p) := by
  unfold State.clearRc
  repeat' first
    | with_reducible assumption
    | with_reducible apply Keeps.modFp
    | with_reducible apply Keeps.setReg
    | (with_reducible refine Keeps.ite (fun _ => ?_) (fun _ => ?_))
    | split

/-- `State.answer` keeps it. -/
theorem Keeps.answer {s0 s : State} (hs : Keeps s0 s) (port : Port) (fn : Nat) (v : Reg) : Keeps s0
    (State.answer s port fn v) := by
  unfold State.answer
  repeat' first
    | with_reducible assumption
    | with_reducible apply Keeps.emit
    | with_reducible apply Keeps.tick
    | with_reducible apply Keeps.emit

/-- `State.badAccess` keeps it. -/
theorem Keeps.badAccess {s0 s : State} (hs : Keeps s0 s) (port : Port) (fn : Nat) (bar : Bar) (off : Nat) (width : Nat) :
    Keeps s0 (State.badAccess s port fn bar off width) := by
  unfold State.badAccess
  repeat' first
    | with_reducible assumption
    | with_reducible apply Keeps.otherAccess
    | with_reducible apply Keeps.regAccess

/-- `State.readAt` keeps it. -/
theorem Keeps.readAt {s0 s : State} (hs : Keeps s0 s) (port : Port) (fn : Nat) (bar : Bar) (off : Nat) (width : Nat)
    (p : Place × Nat × Nat) : Keeps s0 (State.readAt s port fn bar off width p) := by
  unfold State.readAt
  repeat' first
    | with_reducible assumption
    | with_reducible apply Keeps.answer
    | with_reducible apply Keeps.clearRc
    | with_reducible apply Keeps.otherAccess
    | with_reducible apply Keeps.setLatch
    | (with_reducible refine Keeps.getD (fun _ _ => ?_) ?_)
    | (with_reducible refine Keeps.ite (fun _ => ?_) (fun _ => ?_))
    | dsimp only
    | split

/-- `State.regRead` keeps it. -/
theorem Keeps.regRead {s0 s : State} (hs : Keeps s0 s) (port : Port) (fn : Nat) (bar : Bar) (off : Nat) (width : Nat) :
    Keeps s0 (State.regRead s port fn bar off width) := by
  unfold State.regRead
  repeat' first
    | with_reducible assumption
    | with_reducible apply Keeps.answer
    | with_reducible apply Keeps.badAccess
    | with_reducible apply Keeps.otherAccess
    | with_reducible apply Keeps.readAt
    | (with_reducible refine Keeps.ite (fun _ => ?_) (fun _ => ?_))
    | dsimp only
    | split
    | with_reducible refine Keeps.mk' ?_ rfl rfl rfl rfl rfl rfl rfl

/-- `State.writeUnder` keeps it. -/
theorem Keeps.writeUnder {s0 s : State} (hs : Keeps s0 s) (n : RegName) (i : Nat) (v : Reg) : Keeps s0
    (State.writeUnder s n i v) := by
  unfold State.writeUnder
  repeat' first
    | with_reducible assumption
    | with_reducible apply Keeps.modModes
    | with_reducible apply Keeps.setReg
    | (with_reducible refine Keeps.ite (fun _ => ?_) (fun _ => ?_))
    | (with_reducible refine Keeps.foldl (fun _ _ _ => ?_) ?_)
    | dsimp only
    | split
    | with_reducible refine Keeps.mk' ?_ rfl rfl rfl rfl rfl rfl rfl

/-- `State.rebank` keeps it. -/
theorem Keeps.rebank {s0 s : State} (hs : Keeps s0 s) (b : Nat) (f : Bank → Bank) : Keeps s0 (State.rebank s b f) := by
  unfold State.rebank
  repeat' first
    | with_reducible assumption
    | with_reducible apply Keeps.delPriv
    | with_reducible apply Keeps.modBank
    | with_reducible apply Keeps.modTenant
    | with_reducible apply Keeps.putPriv
    | (with_reducible refine Keeps.foldlFst (fun _ _ _ => ?_) ?_)
    | (with_reducible refine Keeps.foldl (fun _ _ _ => ?_) ?_)
    | dsimp only
    | with_reducible refine Keeps.mk' ?_ rfl rfl rfl rfl rfl rfl rfl

/-- `State.writeSetting` keeps it. -/
theorem Keeps.writeSetting {s0 s : State} (hs : Keeps s0 s) (port : Port) (d : RegDef) (i : Nat) (v : Reg) : Keeps s0
    (State.writeSetting s port d i v) := by
  unfold State.writeSetting
  repeat' first
    | with_reducible assumption
    | with_reducible apply Keeps.rebank
    | with_reducible apply Keeps.rejectSetting
    | with_reducible apply Keeps.writeUnder
    | (with_reducible refine Keeps.ite (fun _ => ?_) (fun _ => ?_))
    | dsimp only
    | split
    | with_reducible refine Keeps.mk' ?_ rfl rfl rfl rfl rfl rfl rfl

/-- `State.writeHash` keeps it. -/
theorem Keeps.writeHash {s0 s : State} (hs : Keeps s0 s) (port : Port) (d : RegDef) (i : Nat) (v : Reg) : Keeps s0
    (State.writeHash s port d i v) := by
  unfold State.writeHash
  repeat' first
    | with_reducible assumption
    | with_reducible apply Keeps.record
    | with_reducible apply Keeps.rejectSetting
    | with_reducible apply Keeps.setReg
    | (with_reducible refine Keeps.ite (fun _ => ?_) (fun _ => ?_))
    | dsimp only
    | split

/-- `State.oneOf` keeps it. -/
theorem Keeps.oneOf {s0 s : State} (hs : Keeps s0 s) (v : Nat) (lo : Nat) (hi : Nat) (f : State → State) (g : State → State)
    (hf : ∀ t, Keeps s0 t → Keeps s0 (f t)) (hg : ∀ t, Keeps s0 t → Keeps s0 (g t)) : Keeps s0 (State.oneOf s v lo hi f g) := by
  unfold State.oneOf
  repeat' first
    | with_reducible assumption
    | with_reducible refine hf _ ?_
    | with_reducible refine hg _ ?_
    | (with_reducible refine Keeps.ite (fun _ => ?_) (fun _ => ?_))

/-- `State.writeW1c` keeps it. -/
theorem Keeps.writeW1c {s0 s : State} (hs : Keeps s0 s) (n : RegName) (i : Nat) (v : Nat) : Keeps s0
    (State.writeW1c s n i v) := by
  unfold State.writeW1c
  repeat' first
    | with_reducible assumption
    | with_reducible apply Keeps.alarm
    | with_reducible apply Keeps.linkDown
    | with_reducible apply Keeps.modCard
    | with_reducible apply Keeps.modEngine
    | with_reducible apply Keeps.modEvr
    | with_reducible apply Keeps.modFiron
    | with_reducible apply Keeps.modHk
    | with_reducible apply Keeps.modHp
    | with_reducible apply Keeps.modModes
    | with_reducible apply Keeps.modRoller
    | with_reducible apply Keeps.modTenant
    | exact fun h => h
    | with_reducible exact fun _ h => h
    | with_reducible exact fun h => h
    | dsimp only
    | split
    | with_reducible refine Keeps.mk' ?_ rfl rfl rfl rfl rfl rfl rfl

/-- `State.writeAct` keeps it. -/
theorem Keeps.writeAct {s0 s : State} (hs : Keeps s0 s) (port : Port) (n : RegName) (i : Nat) (v : Nat) : Keeps s0
    (State.writeAct s port n i v) := by
  unfold State.writeAct
  repeat' first
    | with_reducible assumption
    | with_reducible apply Keeps.applyDelays
    | with_reducible apply Keeps.cardOffline
    | with_reducible apply Keeps.cardRestore
    | with_reducible apply Keeps.evrFetch
    | with_reducible apply Keeps.oneOf
    | with_reducible apply Keeps.quiesceRelease
    | with_reducible apply Keeps.quiesceRequest
    | with_reducible apply Keeps.rejectSetting
    | with_reducible apply Keeps.restoreCrumb
    | with_reducible apply Keeps.restoreEngine
    | with_reducible apply Keeps.restoreHalf
    | with_reducible apply Keeps.resumeRoller
    | with_reducible apply Keeps.retireCrumb
    | with_reducible apply Keeps.retireEngine
    | with_reducible apply Keeps.retireHalf
    | with_reducible apply Keeps.retirePage
    | with_reducible intro _
    | (with_reducible refine Keeps.ite (fun _ => ?_) (fun _ => ?_))
    | dsimp only
    | split
    | with_reducible refine Keeps.mk' ?_ rfl rfl rfl rfl rfl rfl rfl

/-- `State.writeFn` keeps it. -/
theorem Keeps.writeFn {s0 s : State} (hs : Keeps s0 s) (n : RegName) (i : Nat) (v : Reg) : Keeps s0 (State.writeFn s n i v)
    := by
  unfold State.writeFn
  repeat' first
    | with_reducible assumption
    | with_reducible apply Keeps.modTenant
    | dsimp only
    | split
    | with_reducible refine Keeps.mk' ?_ rfl rfl rfl rfl rfl rfl rfl

/-- `State.writeReg` keeps it. -/
theorem Keeps.writeReg {s0 s : State} (hs : Keeps s0 s) (port : Port) (d : RegDef) (i : Nat) (v : Reg) : Keeps s0
    (State.writeReg s port d i v) := by
  unfold State.writeReg
  repeat' first
    | with_reducible assumption
    | with_reducible apply Keeps.evrFetch
    | with_reducible apply Keeps.setReg
    | with_reducible apply Keeps.writeAct
    | with_reducible apply Keeps.writeFn
    | with_reducible apply Keeps.writeHash
    | with_reducible apply Keeps.writeSetting
    | with_reducible apply Keeps.writeW1c
    | (with_reducible refine Keeps.ite (fun _ => ?_) (fun _ => ?_))
    | dsimp only
    | split
    | with_reducible refine Keeps.mk' ?_ rfl rfl rfl rfl rfl rfl rfl

/-- `State.writeTf` keeps it. -/
theorem Keeps.writeTf {s0 s : State} (hs : Keeps s0 s) (port : Port) (fn : Nat) (r : TfReg) (v : Reg) : Keeps s0
    (State.writeTf s port fn r v) := by
  unfold State.writeTf
  repeat' first
    | with_reducible assumption
    | with_reducible apply Keeps.aqDisable
    | with_reducible apply Keeps.aqEnable
    | with_reducible apply Keeps.cqDoorbell
    | with_reducible apply Keeps.modFp
    | with_reducible apply Keeps.sqDoorbell
    | (with_reducible refine Keeps.ite (fun _ => ?_) (fun _ => ?_))
    | dsimp only
    | split
    | with_reducible refine Keeps.mk' ?_ rfl rfl rfl rfl rfl rfl rfl

/-- `State.writePlace` keeps it. -/
theorem Keeps.writePlace {s0 s : State} (hs : Keeps s0 s) (port : Port) (fn : Nat) (p : Place) (v : Reg) : Keeps s0
    (State.writePlace s port fn p v) := by
  unfold State.writePlace
  repeat' first
    | with_reducible assumption
    | with_reducible apply Keeps.writeReg
    | with_reducible apply Keeps.writeTf
    | dsimp only
    | split
    | with_reducible refine Keeps.mk' ?_ rfl rfl rfl rfl rfl rfl rfl

/-- `State.writeMsix` keeps it. -/
theorem Keeps.writeMsix {s0 s : State} (hs : Keeps s0 s) (port : Port) (fn : Nat) (w : Nat) (v : Nat) : Keeps s0
    (State.writeMsix s port fn w v) := by
  unfold State.writeMsix
  repeat' first
    | with_reducible assumption
    | with_reducible apply Keeps.modFp
    | with_reducible apply Keeps.msix
    | with_reducible apply Keeps.sendOrHold
    | (with_reducible refine Keeps.ite (fun _ => ?_) (fun _ => ?_))
    | dsimp only
    | split
    | with_reducible refine Keeps.mk' ?_ rfl rfl rfl rfl rfl rfl rfl

/-- `State.writeWindow` keeps it. -/
theorem Keeps.writeWindow {s0 s : State} (hs : Keeps s0 s) (port : Port) (fn : Nat) (bar : Bar) (off : Nat) (width : Nat)
    (v : Reg) : Keeps s0 (State.writeWindow s port fn bar off width v) := by
  unfold State.writeWindow
  repeat' first
    | with_reducible assumption
    | with_reducible apply Keeps.writeMsix
    | (with_reducible refine Keeps.ite (fun _ => ?_) (fun _ => ?_))
    | dsimp only
    | split

/-- `State.writeAt` keeps it. -/
theorem Keeps.writeAt {s0 s : State} (hs : Keeps s0 s) (port : Port) (fn : Nat) (bar : Bar) (off : Nat) (width : Nat)
    (v : Reg) (p : Place × Nat × Nat) : Keeps s0 (State.writeAt s port fn bar off width v p) := by
  unfold State.writeAt
  repeat' first
    | with_reducible assumption
    | with_reducible apply Keeps.otherAccess
    | with_reducible apply Keeps.setLatch
    | with_reducible apply Keeps.writePlace
    | (with_reducible refine Keeps.ite (fun _ => ?_) (fun _ => ?_))
    | dsimp only
    | split
    | with_reducible refine Keeps.mk' ?_ rfl rfl rfl rfl rfl rfl rfl

/-- `State.regWrite` keeps it. -/
theorem Keeps.regWrite {s0 s : State} (hs : Keeps s0 s) (port : Port) (fn : Nat) (bar : Bar) (off : Nat) (width : Nat)
    (v : Reg) : Keeps s0 (State.regWrite s port fn bar off width v) := by
  unfold State.regWrite
  repeat' first
    | with_reducible assumption
    | with_reducible apply Keeps.badAccess
    | with_reducible apply Keeps.otherAccess
    | with_reducible apply Keeps.writeAt
    | with_reducible apply Keeps.writeWindow
    | (with_reducible refine Keeps.ite (fun _ => ?_) (fun _ => ?_))
    | dsimp only
    | split
    | with_reducible refine Keeps.mk' ?_ rfl rfl rfl rfl rfl rfl rfl

/-! ## SideCmds -/

/-- `State.sideAnswer` keeps it. -/
theorem Keeps.sideAnswer {s0 s : State} (hs : Keeps s0 s) (b : List Byte) : Keeps s0 (State.sideAnswer s b) := by
  unfold State.sideAnswer
  repeat' first
    | with_reducible assumption
    | with_reducible apply Keeps.emit
    | with_reducible apply Keeps.tick
    | with_reducible apply Keeps.emit
    | (with_reducible refine Keeps.ite (fun _ => ?_) (fun _ => ?_))
    | split

end Sys2Proof.Machine
end

