-- ==== Sys2Proof/WellFormed.lean ====
section
/-! DEFINITION. Which commands are well formed: function numbers, queue numbers, offsets and sizes within what
the device has. -/
namespace Sys2Proof

/-- The size of a BAR in bytes: 64 MiB for BAR0 of function 0, 16 MiB otherwise (01 R24, 04 R123). -/
def barSize (fn : Nat) : Bar → Nat
  | .bar0 => if fn = 0 then 0x4000000 else 0x1000000
  | .bar2 => if fn = 0 then 0x1000000 else 0

/-- Is the command well formed? -/
def Instr.wf : Instr → Bool
  | .registerWrite _ fn bar off _ _ => decide (fn ≤ 4096) && decide (off < barSize fn bar)
  | .rcRegisterRead _ fn bar off _ => decide (fn ≤ 4096) && decide (off < barSize fn bar)
  | .submissionTailDoorbell _ fn qid _ => decide (fn ≤ 4096) && decide (qid < 64)
  | .completionHeadDoorbell _ fn qid _ => decide (fn ≤ 4096) && decide (qid < 64)
  | .adminQpEnable _ fn _ => decide (fn ≤ 4096)
  | .adminQpDisable _ fn => decide (fn ≤ 4096)
  | .commandFetch _ fn qid bytes => decide (fn ≤ 4096) && decide (qid < 64) && (bytes.length % 64 == 0 && decide (0 < bytes.length) && decide (bytes.length ≤ 512))
  | .commandStart _ => true
  | .ringFetchTimeout _ fn qid => decide (fn ≤ 4096) && decide (qid < 64)
  | .hostDmaTimeout _ => true
  | .hostReadCompletion _ _ => true
  | .irqCoalesceTimeout _ fn qid => decide (fn ≤ 4096) && decide (qid < 64)
  | .nop _ => true
  | .identifyDevice _ => true
  | .identifyFunction _ => true
  | .identifyContainers _ => true
  | .identifyUsage _ => true
  | .createQp _ => true
  | .deleteQp _ => true
  | .getLogError _ => true
  | .getLogHealth _ => true
  | .abort _ => true
  | .asyncEvent _ => true
  | .blockRead _ => true
  | .blockWrite _ => true
  | .flush _ => true
  | .deallocate _ => true
  | .openWrite _ => true
  | .append _ => true
  | .commit _ => true
  | .abortStream _ => true
  | .objectRead _ => true
  | .openRead _ => true
  | .closeRead _ => true
  | .delete _ => true
  | .stat _ => true
  | .statStreamQuery _ => true
  | .logTrim _ => true
  | .list _ => true
  | .programLoad _ => true
  | .programUnload _ => true
  | .jobSubmit _ => true
  | .jobStatus _ => true
  | .jobCancel _ => true
  | .digestDirect _ => true
  | .compressDirect _ => true
  | .decompressDirect _ => true
  | .sieveInsert _ => true
  | .sieveRemove _ => true
  | .sieveLookup _ => true
  | .sieveRead _ => true
  | .fnControlEnable _ => true
  | .fnControlDisable _ => true
  | .fnControlStop _ => true
  | .fnControlRestart _ => true
  | .fnControlReset _ => true
  | .spaceCreate _ => true
  | .spaceDelete _ => true
  | .nsCreate _ => true
  | .nsDelete _ => true
  | .fwDownload _ => true
  | .fwActivate _ => true
  | .firmwareReady => true
  | .activationTimeout => true
  | .modeRequestEnterMaint _ => true
  | .modeRequestExitMaint _ => true
  | .modeRequestEnterQuiesce _ => true
  | .modeRequestQuery _ => true
  | .keyLoad _ => true
  | .eraseTenant _ => true
  | .eraseDevice _ => true
  | .dirtyLogStart _ => true
  | .dirtyLogStop _ => true
  | .dirtyLogSync _ => true
  | .eventClear _ => true
  | .readSector _ => true
  | .readRaw _ => true
  | .readParam _ => true
  | .readId _ => true
  | .programRaw _ => true
  | .erase _ => true
  | .sanitize _ => true
  | .digestRaw _ => true
  | .setSelf _ => true
  | .setMember _ => true
  | .removeMember _ => true
  | .groupConfigEnable _ => true
  | .groupConfigDisable _ => true
  | .adopt _ => true
  | .sieveAdminInsert _ => true
  | .sieveAdminRemove _ => true
  | .sieveAdminRead _ => true
  | .sieveAdminLookup _ => true
  | .sieveAdminClear _ => true
  | .streamInactivityTimeout _ => true
  | .commitPageProgram => true
  | .commitRecordDurable _ => true
  | .functionLevelReset _ fn => decide (fn ≤ 4096)
  | .vfEnableChange _ _ numVfs => decide (numVfs ≤ 4096)
  | .vfCommandChange _ fn _ _ => decide (fn ≤ 4096)
  | .pciePowerStateChange _ fn _ => decide (fn ≤ 4096)
  | .hotReset _ => true
  | .perstAssert _ => true
  | .perstRelease _ => true
  | .pcieLinkDown _ => true
  | .pcieLinkUp _ speed lanes _ => decide (speed ≤ 6) && decide (lanes ≤ 16)
  | .pathResetComplete _ fn => decide (fn ≤ 4096)
  | .tenantStopDrained tenant => (decide (1 ≤ tenant) && decide (tenant ≤ 4096))
  | .stopJobTimeout _ => true
  | .quiesceJobTimeout _ => true
  | .contextCacheLoad _ => true
  | .jobEnterRunning _ => true
  | .jobTimeout _ => true
  | .sliceReadIssue _ => true
  | .slicePush _ => true
  | .sliceTake _ => true
  | .steal _ => true
  | .tenantTurnExpiry _ => true
  | .scrubDone _ => true
  | .reductionStep _ _ => true
  | .jobFinish _ => true
  | .budgetExhausted _ => true
  | .crumbWatchdog _ => true
  | .crumbSelfTestEnd _ _ => true
  | .crumbRetire _ _ => true
  | .crumbRestore _ _ => true
  | .ill _ => true
  | .mov _ _ _ => true
  | .add _ _ _ => true
  | .sub _ _ _ => true
  | .and16 _ _ _ => true
  | .or16 _ _ _ => true
  | .xor16 _ _ _ => true
  | .cmp _ _ _ => true
  | .tst _ _ _ => true
  | .addq _ _ _ => true
  | .subq _ _ _ => true
  | .movq _ _ _ => true
  | .neg _ _ _ => true
  | .not16 _ _ _ => true
  | .push _ _ => true
  | .pop _ _ => true
  | .jr _ _ => true
  | .ret _ => true
  | .rep _ _ _ => true
  | .repi _ _ _ => true
  | .mtb _ _ _ => true
  | .mfb _ _ _ => true
  | .nopInstruction _ => true
  | .fence _ => true
  | .brk _ => true
  | .clz _ _ _ => true
  | .popc _ _ _ => true
  | .svr _ _ => true
  | .rft _ => true
  | .idle _ => true
  | .aluAdd _ _ _ _ => true
  | .aluAdc _ _ _ _ => true
  | .aluSub _ _ _ _ => true
  | .aluSbc _ _ _ _ => true
  | .aluAnd _ _ _ _ => true
  | .aluOr _ _ _ _ => true
  | .aluXor _ _ _ _ => true
  | .aluAndn _ _ _ _ => true
  | .aluShl _ _ _ _ => true
  | .aluShr _ _ _ _ => true
  | .aluSar _ _ _ _ => true
  | .aluRor _ _ _ _ => true
  | .aluMul _ _ _ _ => true
  | .aluMulhu _ _ _ _ => true
  | .aluMulhs _ _ _ _ => true
  | .aluDivu _ _ _ _ => true
  | .aluRemu _ _ _ _ => true
  | .aluDivs _ _ _ _ => true
  | .aluRems _ _ _ _ => true
  | .aluMinu _ _ _ _ => true
  | .aluMaxu _ _ _ _ => true
  | .aluMins _ _ _ _ => true
  | .aluMaxs _ _ _ _ => true
  | .aluBswap _ _ _ => true
  | .addi _ _ _ _ => true
  | .andi _ _ _ _ => true
  | .ori _ _ _ _ => true
  | .xori _ _ _ _ => true
  | .cmpi _ _ _ => true
  | .shi _ _ _ _ _ => true
  | .bfx _ _ _ _ _ _ => true
  | .bfi _ _ _ _ _ => true
  | .perm _ _ _ _ => true
  | .setcc _ _ _ => true
  | .csel _ _ _ _ _ => true
  | .flat _ _ _ _ => true
  | .mtbi _ _ _ => true
  | .bcc _ _ _ => true
  | .callr _ _ _ => true
  | .call _ _ _ => true
  | .ld _ _ _ _ _ _ _ => true
  | .st _ _ _ _ _ _ => true
  | .ldf _ _ _ _ _ _ _ _ => true
  | .stf _ _ _ _ _ _ _ => true
  | .ldx _ _ _ _ _ _ _ _ => true
  | .stx _ _ _ _ _ _ _ => true
  | .vld _ _ _ _ _ _ => true
  | .vst _ _ _ _ _ _ => true
  | .cpy _ _ _ _ => true
  | .aadd _ _ _ _ _ => true
  | .aswp _ _ _ _ _ => true
  | .acas _ _ _ _ _ => true
  | .aand _ _ _ _ _ => true
  | .aor _ _ _ _ _ => true
  | .amaxu _ _ _ _ _ => true
  | .vadd _ _ _ _ _ => true
  | .vsub _ _ _ _ _ => true
  | .vand _ _ _ _ _ => true
  | .vor _ _ _ _ _ => true
  | .vxor _ _ _ _ _ => true
  | .vandn _ _ _ _ _ => true
  | .vcmpeq _ _ _ _ _ => true
  | .vcmpgtu _ _ _ _ _ => true
  | .vcmpgts _ _ _ _ _ => true
  | .vminu _ _ _ _ _ => true
  | .vmaxu _ _ _ _ _ => true
  | .vshl _ _ _ _ _ => true
  | .vshr _ _ _ _ _ => true
  | .vsar _ _ _ _ _ => true
  | .vperm _ _ _ _ _ => true
  | .vmov _ _ _ _ => true
  | .vsplat _ _ _ _ => true
  | .vext _ _ _ _ => true
  | .vins _ _ _ _ => true
  | .vmask _ _ _ _ => true
  | .movi _ _ _ => true
  | .addiw _ _ _ _ => true
  | .andiw _ _ _ _ => true
  | .cmpiw _ _ _ => true
  | .svs _ _ _ _ => true
  | .svsResult _ => true
  | .dgo _ _ _ => true
  | .dgf _ _ _ _ _ => true
  | .dge _ _ _ _ => true
  | .mfc _ _ _ => true
  | .mtc _ _ _ => true
  | .controlCoreInterrupt _ _ => true
  | .ibudgetTrap _ => true
  | .rollerJobSubmit _ desc => desc.length == 64
  | .rollerBlockCode _ _ => true
  | .rollerSteal _ => true
  | .outWaitTimeout slot => decide (slot < 4096)
  | .rlrResume _ slot => decide (slot < 4096)
  | .rollerWatchdog _ _ => true
  | .rollerSelfTestEnd _ _ _ => true
  | .retireC _ _ => true
  | .restoreC _ _ => true
  | .retireD _ _ => true
  | .restoreD _ _ => true
  | .digestContextGrant _ => true
  | .digestQuantumExpiry _ _ => true
  | .digestWaitTimeout _ => true
  | .digestCheckpoint _ => true
  | .digestAlarm _ _ => true
  | .digestSelfTestEnd _ _ => true
  | .digestRetire _ _ => true
  | .digestRestore _ _ => true
  | .sieveEntryScrub _ slot _ => decide (slot < 65536)
  | .sieveEntryRewritten _ slot => decide (slot < 65536)
  | .sieveRegionMove tenant _ => (decide (1 ≤ tenant) && decide (tenant ≤ 4096))
  | .cardInserted _ => true
  | .cardIdentified _ _ => true
  | .cardRemoved _ => true
  | .cardOffline _ _ => true
  | .cardRestore _ _ => true
  | .cardRebuildComplete _ => true
  | .i2cTimeout _ => true
  | .flashReadDone _ _ => true
  | .flashProgramDone _ _ _ => true
  | .flashEraseDone _ _ _ => true
  | .flashOpTimeout _ => true
  | .flashOpAging _ => true
  | .programEarlyReissue _ _ => true
  | .rowFillTimeout _ => true
  | .rowDurable _ => true
  | .gcStart _ => true
  | .patrolRead _ _ _ => true
  | .zqCalibration _ => true
  | .memoryAccess _ _ => true
  | .requestAgeRaise _ _ => true
  | .refreshDue _ => true
  | .mergeEntryRetire _ _ => true
  | .memoryScrub _ => true
  | .sramScrub _ _ _ => true
  | .memoryReadTimeout _ => true
  | .caParityError _ _ => true
  | .delayApply _ _ band => decide (band ≤ 4)
  | .pageRetireStart _ _ idx _ _ => decide (idx < 4096)
  | .pageCopyDone _ idx => decide (idx < 4096)
  | .heartbeat _ => true
  | .ack _ => true
  | .shardPut _ => true
  | .shardDurable _ => true
  | .shardGet _ => true
  | .shardData _ => true
  | .shardRelease _ => true
  | .releaseDone _ => true
  | .repairReq _ => true
  | .repairDone _ => true
  | .vrecPull _ => true
  | .vrecList _ => true
  | .heartbeatSend => true
  | .ackTimer _ => true
  | .retransmitTimeout _ _ => true
  | .peerSuspect _ => true
  | .lossVote _ => true
  | .quorumTimeout _ => true
  | .shardReadTimeout _ => true
  | .readGatherTimeout _ => true
  | .keyOverlapExpiry => true
  | .ethLinkDown _ => true
  | .ethLinkUp _ => true
  | .rootLol => true
  | .rootLockRegained => true
  | .serdesLol _ => true
  | .auxPowerOn => true
  | .auxPowerLoss => true
  | .resetNAssert => true
  | .resetNRelease _ => true
  | .discoveryStart _ => true
  | .discoveryComplete _ => true
  | .rebuildComplete _ => true
  | .pwrFailAssert => true
  | .parkRecordProgrammed => true
  | .park _ => true
  | .powerRestart => true
  | .brownOut _ => true
  | .quiesceEnter _ => true
  | .quiesceExit _ => true
  | .quiesceDrained => true
  | .quiesceLimit => true
  | .housekeepingVisit _ _ => true
  | .throttleEvaluation => true
  | .ccoreWatchdog _ => true
  | .ccoreSelfTestEnd _ _ => true
  | .ecuFault _ => true
  | .spiTimeout _ => true
  | .suppressionWindowEnd code source => decide (code < 65536) && decide (source < 65536)
  | .eventRecordFlush => true
  | .evrFetch _ _ => true
  | .evrFetchDone => true
  | .setEndpointId _ _ => true
  | .getEndpointId => true
  | .getMctpVersionSupport _ => true
  | .getMessageTypeSupport => true
  | .getTid => true
  | .getPldmVersion _ => true
  | .getPldmTypes => true
  | .getPldmCommands _ => true
  | .getSensorReading _ => true
  | .getStateSensorReadings _ => true
  | .getPdrRepositoryInfo => true
  | .getPdr _ => true
  | .registerRead _ fn bar off _ => decide (fn ≤ 4096) && decide (off < barSize fn bar)
  | .serdesLockRegained _ => true
  | .frameDropped _ => true
  | .configurationRequest _ req => decide (req.fn ≤ 4096) && decide (req.bus < 256)
  | .atsInvalidateRequest _ fn _ _ => decide (fn ≤ 4096)
  | .malformedTlp _ fn _ => decide (fn ≤ 4096)
  | .flitRetry _ => true
  | .xtsSelfCheckFailure _ => true
  | .erasePastHalfTime _ _ => true
  | .digestBlockDone _ _ => true
  | .spiOperationDone => true
  | .dynamicAddressAssignment _ => true

end Sys2Proof
end

