-- ==== Sys2Proof/Tests/Slice0.lean ====
section
/-! SUPPORT. The model's own tests: the checks of WellFormed, a few values of the spec, and for every statement with
hypotheses a state and operands that meet them. -/
namespace Sys2Proof.Tests

open Sys2Proof.Machine Sys2Proof.Claims

set_option Elab.async false

/-! ## Small states -/

/-- The body of a packet, from its fields: offset in the packet, length, value. -/
def body (l : List (Nat × Nat × Nat)) : List Byte :=
  l.foldl (fun b f => overlay b (f.1 - 24) (leBytes f.2.1 f.2.2)) (zeros 40)

/-- A byte string of a length with fields: offset, length, value. -/
def fields (n : Nat) (l : List (Nat × Nat × Nat)) : List Byte := l.foldl (fun b f => overlay b f.1 (leBytes f.2.1 f.2.2)) (zeros n)

/-- A packet for container 1, with CID 7. -/
def pkt (op : Nat) (l : List (Nat × Nat × Nat) := []) (aux : Nat := 0) (len : Nat := 0) (stream : Nat := 0) : Packet :=
  ⟨op, 0, 7, 1, aux, 0, 0x1000, len, stream, body l⟩

/-- A command of a function, started, under tag 1, with its payload here. -/
def cmd (p : Packet) (fn : Nat := 1) (data : List Byte := []) : Cmd where
  tag := 1
  fn := fn
  port := .a
  qid := 1
  pkt := p
  started := true
  doomed := false
  want := .nothing
  pages := []
  payload := some data
  launched := false
  dataSeq := 0
  pclass := 0
  qos := 0
  left := 0
  got := []
  placed := []
  groups := []
  verdict := none
  results := (0, 0)
  ref := 0

/-- A queue pair of 16 entries with three commands waiting. -/
def ring (fn qid : Nat) : QueuePair := { newQp fn .a qid 0x8000 0x9000 4 4 0 0 0 8 with sqTail := 3 }

/-- The device in Service with Port A up, one function and its tenant running, and queue pairs of it and of function 0. -/
def live : State := { State.reset with
  modes := { State.reset.modes with mode := .service, last := .rebuild, running := true, resetN := true, rootLock := true }
  hostA := ⟨true, 5, 16, false, false, true, 2, false, 0, 0⟩
  fns := [(fpKey .a 1, { FnPort.init with mse := true, bme := true })]
  tenants := [(1, { Tenant.init with state := .running, enabled := true })]
  qps := [ring 0 0, ring 0 1, ring 1 0, ring 1 1]
  nextTag := 2 }

/-- `s` with one command. -/
def sent (c : Cmd) (s : State := live) : State := { s with cmds := [c] }

/-- A result that is no error, and passes a test. -/
def Gives {α ε : Type} (x : Except ε α) (p : α → Bool := fun _ => true) : Prop := ∃ a, x = .ok a ∧ p a = true

/-- A result that is an error. -/
def Raises {α ε : Type} (x : Except ε α) : Prop := ∃ e, x = .error e

/-- Something is there, and passes a test. -/
def There {α : Type} (x : Option α) (p : α → Bool := fun _ => true) : Prop := ∃ a, x = some a ∧ p a = true

theorem gives_of {α ε : Type} {x : Except ε α} {p : α → Bool}
    (h : (match x with | .ok a => p a | .error _ => false) = true) : Gives x p := by
  cases x with
  | ok a => exact ⟨a, rfl, h⟩
  | error e => simp at h

theorem raises_of {α ε : Type} {x : Except ε α} (h : (match x with | .ok _ => false | .error _ => true) = true) :
    Raises x := by
  cases x with
  | ok a => simp at h
  | error e => exact ⟨e, rfl⟩

theorem there_of {α : Type} {x : Option α} {p : α → Bool} (h : x.any p = true) : There x p := by
  cases x with
  | some a => exact ⟨a, rfl, h⟩
  | none => simp at h

theorem canRun_of {s : State} {k : CoreSel} {n : Nat}
    (h : (s.runnable k && match s.fetchOk k n with | .ok _ => true | .error _ => false) = true) : CanRun s k n := by
  unfold CanRun
  cases e : s.fetchOk k n with
  | ok a => simp_all
  | error x => simp_all

theorem turn_of {s : State} {tag op : Nat} {c : Cmd}
    (h : (decide (s.ready tag op = some c) && !c.doomed && (s.qp c.port c.fn c.qid).isSome) = true) : Turn s tag op c := by
  simp only [Bool.and_eq_true, decide_eq_true_eq, Bool.not_eq_true'] at h
  exact ⟨h.1.1, h.1.2, h.2⟩

theorem calm_of {s : State} (h : (decide (s.cmds.map Cmd.tag).Nodup && s.qps.all fun q => decide (q.deleting = none)) = true) : Calm s := by
  simp only [Bool.and_eq_true, decide_eq_true_eq, List.all_eq_true] at h
  exact h

theorem noGroupWork_of {s : State}
    (h : ((s.commits.all fun x => decide (x.phase ≠ .shards)) && decide (s.firon.shipped = [])) = true) : NoGroupWork s := by
  simp only [Bool.and_eq_true, decide_eq_true_eq, List.all_eq_true] at h
  exact h

/-- The same for a command whose payload is too long to compare. -/
theorem turn_of' {s : State} {tag op : Nat} {c : Cmd} (e : s.ready tag op = some c)
    (h : (!c.doomed && (s.qp c.port c.fn c.qid).isSome) = true) : Turn s tag op c := by
  simp only [Bool.and_eq_true, Bool.not_eq_true'] at h
  exact ⟨e, h.1, h.2⟩

theorem live_of {s : State} {c : Cmd} (h : (!c.doomed && (s.qp c.port c.fn c.qid).isSome) = true) : Live s c := by
  simp only [Bool.and_eq_true, Bool.not_eq_true'] at h
  exact h

theorem emptyRow_of {s : State} {batch : Nat} {kind : RowKind} {prot : Bool}
    (h : (s.flash.rows.find? fun r => !r.issued && !r.due && r.repair.isNone && r.batch == batch && r.kind == kind && r.prot == prot &&
        (s.set? r.set).any s.setFits).any (fun r => decide (r.groups = [] ∧ s.row? r.id = some r)) = true) : EmptyRow s batch kind prot := by
  obtain ⟨r, h1, h2⟩ := there_of h
  exact ⟨r, h1, of_decide_eq_true h2⟩

theorem lastRead_of {s : State} {tag rid : Nat}
    (h : ((s.flash.reads.all fun y => match y.owner with
        | .cmd t _ => t != tag || y.id == rid
        | _ => true) && s.firon.gathers.all fun g => match g.owner with
        | .cmd t _ => t != tag
        | _ => true) = true) : LastRead s tag rid := by
  simp only [Bool.and_eq_true, List.all_eq_true] at h
  refine ⟨fun y hy i e => ?_, fun g hg i e => ?_⟩
  · have := h.1 y hy
    simp [e] at this
    exact this
  · have := h.2 g hg
    simp [e] at this

theorem leNat_leBytes (n v : Nat) : leNat (leBytes n v) = v % 256 ^ n := by
  induction n generalizing v with
  | zero => simp [leBytes, leNat, Nat.mod_one]
  | succ n ih =>
    simp only [leBytes, leNat, ih, BitVec.toNat_ofNat]
    rw [show 2 ^ 8 = 256 from rfl, Nat.pow_succ, Nat.mul_comm (256 ^ n) 256, Nat.mod_mul]

theorem leBytes_length (n v : Nat) : (leBytes n v).length = n := by
  induction n generalizing v with
  | zero => rfl
  | succ n ih => simp [leBytes, ih]

/-- A byte string with a word behind it holds its CRC-32C where the word is that. -/
theorem crcOk_append (b : List Byte) (n : Nat) (v : BitVec 32) (h : b.length = n) :
    crcOk (b ++ leBytes 4 v.toNat) n = (v == crc32c b) := by
  have e : fieldLe (b ++ leBytes 4 v.toNat) n 4 = v.toNat := by
    unfold Machine.fieldLe
    rw [← h, List.drop_left, List.take_of_length_le (by simp [leBytes_length]), leNat_leBytes]
    exact Nat.mod_eq_of_lt v.isLt
  unfold crcOk
  rw [e, ← h, List.take_left]
  rw [Bool.eq_iff_iff]
  simp only [beq_iff_eq]
  exact ⟨fun h => BitVec.eq_of_toNat_eq h, fun h => by rw [h]⟩

theorem jobRuns_of {s : State} {slot : Nat}
    (h : (decide ((s.job? slot).map Job.ending = some none) && s.commits.all fun c => decide (c.owner ≠ .job slot)) = true) :
    JobRuns s slot := by
  simp only [Bool.and_eq_true, decide_eq_true_eq, List.all_eq_true] at h
  exact h

/-! ## Well-formed commands -/

/-- Each check of WellFormed refuses a command just past its limit, and takes the one at it. -/
theorem test_wf_function_and_offset :
    (Instr.adminQpDisable .a 4097).wf = false ∧ (Instr.adminQpDisable .a 4096).wf = true ∧
    (Instr.registerRead .a 4097 .bar0 0 4).wf = false ∧ (Instr.registerRead .a 0 .bar0 0x4000000 4).wf = false ∧
    (Instr.registerRead .a 0 .bar0 0x3FFFFFC 4).wf = true ∧ (Instr.registerRead .a 1 .bar0 0x1000000 4).wf = false ∧
    (Instr.registerWrite .a 1 .bar2 0 4 0).wf = false ∧ (Instr.rcRegisterRead .a 0 .bar2 0x1000000 4).wf = false ∧
    (Instr.functionLevelReset .a 4097).wf = false ∧ (Instr.vfEnableChange .a true 4097).wf = false ∧
    (Instr.vfCommandChange .a 4097 true true).wf = false ∧ (Instr.pciePowerStateChange .a 4097 true).wf = false ∧
    (Instr.pathResetComplete .a 4097).wf = false ∧ (Instr.configurationRequest .a ⟨0, 4097, .command, none⟩).wf = false ∧
    (Instr.atsInvalidateRequest .a 4097 0 0).wf = false ∧ (Instr.malformedTlp .a 4097 true).wf = false ∧
    (Instr.adminQpEnable .a 4097 0).wf = false := by decide

theorem test_wf_queues_and_sizes :
    (Instr.submissionTailDoorbell .a 1 64 0).wf = false ∧ (Instr.completionHeadDoorbell .a 1 64 0).wf = false ∧
    (Instr.ringFetchTimeout .a 1 64).wf = false ∧ (Instr.irqCoalesceTimeout .a 1 64).wf = false ∧
    (Instr.commandFetch .a 1 0 (zeros 63)).wf = false ∧ (Instr.commandFetch .a 1 0 []).wf = false ∧
    (Instr.commandFetch .a 1 0 (zeros 576)).wf = false ∧ (Instr.commandFetch .a 1 0 (zeros 64)).wf = true ∧
    (Instr.pcieLinkUp .a 7 16 false).wf = false ∧ (Instr.pcieLinkUp .a 6 17 false).wf = false ∧
    (Instr.tenantStopDrained 0).wf = false ∧ (Instr.tenantStopDrained 4097).wf = false ∧
    (Instr.sieveRegionMove 0 0).wf = false ∧ (Instr.rollerJobSubmit 0 (zeros 63)).wf = false ∧
    (Instr.outWaitTimeout 4096).wf = false ∧ (Instr.rlrResume .a 4096).wf = false ∧
    (Instr.sieveEntryScrub 0 65536 .clean).wf = false ∧ (Instr.sieveEntryRewritten 0 65536).wf = false ∧
    (Instr.delayApply .a 0 5).wf = false ∧ (Instr.pageRetireStart .a 0 4096 0 0).wf = false ∧
    (Instr.pageCopyDone 0 4096).wf = false ∧ (Instr.suppressionWindowEnd 65536 0).wf = false ∧
    (Instr.suppressionWindowEnd 0 65536).wf = false := by decide +kernel

/-! ## Cores -/

/-- A job whose program is 64 bytes of code. -/
def job : Job where
  slot := 0
  runSlot := 0
  tenant := 1
  port := .a
  tag := 1
  handle := 5
  desc := {
    jobId := 3, program := 4, flags := 0, inputKind := 0, reduceOp := 0, sliceKib := 256, maxCrumbs := 0, budget := 1000
    wallMs := 1000, paramLen := 0, scratchPages := 0, outAddr := 0, outLen := 0, outSpace := 0, outOid := 0, outExpected := 0
    summaryAddr := 0, reduceAddr := 0, tableSpace := 0, tableOid := 0, tableSel := 0, params := [], windows := [], inputs := [] }
  prog := ⟨4, 64, 0, 4096, 0, none, zeros 64, []⟩
  st := .running
  batch := 0
  pclass := 0
  slices := []
  nextInput := 0
  nextOff := 0
  total := 1
  issued := 1
  done := 0
  skipped := 0
  bytesIn := 0
  bytesOut := 0
  outVersion := 0
  failSlice := none
  faultPc := 0
  faultCode := 0
  scrubs := 0
  pool := 0
  table := []
  tableVersion := 0
  records := []
  outExtents := []
  outGroups := []
  outPhase := 0
  partials := []
  ending := none
  cancelWait := []

/-- The entry of its first slice. -/
def slice : Entry := ⟨0, 100, 1, 0, 0, 0, 0, 0, 0, 0, 0⟩

/-- Crumb 0 runs the slice at PC 0. -/
def crumb : Crumb := { Crumb.init with st := .running, lastTenant := 1, run := some slice, loaded := some 0, codeLen := 64 }

/-- A device whose Crumb 0 runs a slice. -/
def working (f : Core → Core := id) : State :=
  { live with crumbs := [(0, { crumb with core := f Core.init })], jobs := [job] }

/-- A device whose control core 0 is in service: window 1 of its table, at address 0, maps job memory with every right, window 2
addresses that no memory has. -/
def firmware (f : CtrlCore → CtrlCore := id) : State := { live with
  mem := { live.mem with bytes := [(2 ^ 40 + 8, 7), (2 ^ 40 + 12, 2), (2 ^ 40 + 16, 7), (2 ^ 40 + 21, 255)] }
  ctrls := [(0, f { CtrlCore.init with st := 1, core := { CtrlCore.init.core with pc := 0x10000 } })] }

/-- It in user mode. -/
def user (f : Core → Core := id) : State := firmware fun x => { x with core := f { x.core with priv := false } }

/-- It in privileged mode, with a change of the core. -/
def kernel (f : Core → Core := id) : State := firmware fun x => { x with core := f x.core }

/-- Hypotheses of MovesLogicAndSelect, AddAndSubtract, Shifts, MultiplyDivideAndFields, and of the other statements on instructions: a
Crumb and a control core that may run and fetch. -/
theorem witness_CanRun : CanRun working (.crumb 0) 2 ∧ CanRun working (.crumb 0) 4 ∧
    CanRun working (.crumb 0) 6 ∧ CanRun firmware (.ctrl 0) 2 ∧ CanRun firmware (.ctrl 0) 4 ∧ CanRun firmware (.ctrl 0) 6 := by
  repeat' with_reducible apply And.intro
  all_goals with_reducible first | apply canRun_of
  all_goals decide +kernel

/-- Hypotheses of StepRunsFront. -/
theorem witness_StepRunsFront : { live with pending := [Instr.nop 1] }.pending = Instr.nop 1 :: [] := rfl

/-- Hypotheses of BankedAccess: window numbers inside and outside the grant; accesses that end and that raise. -/
theorem witness_BankedAccess :
    working.bankOk (.crumb 0) 3 = true ∧ working.bankOk (.crumb 0) 4 = false ∧
    Gives (working.load (.crumb 0) 0 (banked 0 0x100) 4) (fun r => r.1.length == 4) ∧
    Raises (working.load (.crumb 0) 5 (banked 0 0x100) 4) ∧
    Gives (working.storeAt (.crumb 0) 0 (banked 0 0x100) [1, 2, 3, 4]) ∧
    Raises (working.storeAt (.crumb 0) 0 (banked 0 0x20) [1, 2, 3, 4]) := by
  repeat' with_reducible apply And.intro
  all_goals with_reducible first | apply gives_of | apply raises_of | skip
  all_goals decide +kernel

/-- Hypotheses of LaneRegisters: 16-byte accesses that end and that raise. -/
theorem witness_LaneRegisters :
    Gives (working.load (.crumb 0) 0 (65536 - 16) 16) ∧
    Raises (working.load (.crumb 0) 0 (65536 - 15) 16) ∧
    Gives (working.storeAt (.crumb 0) 0 64 (zeros 16)) ∧
    Raises (working.storeAt (.crumb 0) 0 63 (zeros 16)) := by
  repeat' with_reducible apply And.intro
  all_goals with_reducible first | apply gives_of | apply raises_of
  all_goals decide +kernel

/-- Hypotheses of FlatLoadsAndStores: a load, a store and a copy at flat addresses. -/
theorem witness_FlatLoadsAndStores :
    Gives (working.loadFlat (.crumb 0) 0x100 16) (fun r => r.1.length == 16) ∧
    Raises (working.loadFlat (.crumb 0) 0xFFFFFFF0 1) ∧
    Gives (working.storeFlat (.crumb 0) 0x3FFFC [1, 2, 3, 4]) ∧
    Raises (working.storeFlat (.crumb 0) 0x40000 [1]) := by
  repeat' with_reducible apply And.intro
  all_goals with_reducible first | apply gives_of | apply raises_of
  all_goals decide +kernel

/-- Hypotheses of Atomics: a word whose grants allow the read and the write, misaligned, and with no grant to write; a read that
ends and one of a poisoned word; a write. -/
theorem witness_Atomics :
    (Gives (working.access (.crumb 0) 1 4 4 4 .load none) ∧ Raises (working.access (.crumb 0) 1 2 4 4 .load none) ∧
      Gives (working.access (.crumb 0) 1 4 4 4 .store none) ∧
      Gives (working.access (.crumb 0) 0 0 4 4 .load none) ∧ Raises (working.access (.crumb 0) 0 0 4 4 .store none)) ∧
    Gives (working.access (.crumb 0) 1 4 4 4 .load none) (fun g =>
      match working.winRead (.crumb 0) g 1 4 4, working.winWrite (.crumb 0) g 1 4 (leBytes 4 9) with
      | .ok r, .ok _ => r.1.length == 4
      | _, _ => false) ∧
    Gives (kernel.access (.ctrl 0) 2 4 4 4 .store none) (fun g =>
      match kernel.winRead (.ctrl 0) g 2 4 4, kernel.winWrite (.ctrl 0) g 2 4 (leBytes 4 9) with
      | .error _, .error _ => true
      | _, _ => false) := by
  repeat' with_reducible apply And.intro
  all_goals with_reducible first | apply gives_of | apply raises_of
  all_goals decide +kernel

/-- Hypotheses of LocalStoreAccess: the slice's job, an access that fits and the first that does not, the first address past
the code, and a canonical store. -/
theorem witness_LocalStoreAccess :
    (working.crumb 0).run = some slice ∧ working.job? slice.job = some job ∧
    (¬(65536 < 65532 + 4 ∨ 65532 % 4 ≠ 0) ∧ (65536 < 65533 + 4 ∨ 65533 % 4 ≠ 0)) ∧
    (63 < (working.crumb 0).codeLen ∧ (working.crumb 0).codeLen ≤ 64) ∧ (working.crumb 0).store.wf = true := by
  decide +kernel

/-- A Crumb with a stack, its frame at 0x3FF00 holding the mask of g1 and a link. -/
def framed (link : Word) (f : Core → Core := id) : State := { live with
  crumbs := [(0, { crumb with
    store := [(0x3FF00, 8), (0x3FF04, 2), (0x3FF08, 5)]
    core := f (wr (wr { Core.init with slimit := 0x3F000 } 14 0x3FF00) 15 link) })]
  jobs := [job] }

/-- Hypotheses of CallsJumpsAndReturns: pushes and frames above and below the stack limit, a pop, the link values, and a frame to
return from. -/
theorem witness_CallsJumpsAndReturns :
    (Gives ((framed 8).storeFlat (.crumb 0) (0x3FF00 - 4) (leBytes 4 7) 4 (some 0x3F000)) ∧
      Raises ((framed 8).storeFlat (.crumb 0) 0x3EFFC (leBytes 4 7) 4 (some 0x3F000)) ∧
      Gives ((framed 8).loadFlat (.crumb 0) 0x3FF00 4 4) (fun r => r.1.length == 4) ∧
      Raises ((framed 8).loadFlat (.crumb 0) 0x3FF01 4 4) ∧
      Gives (pushWords (framed 8) (.crumb 0) 0x3FEF4 (some 0x3F000) [8, 2, 5]) ∧
      Raises (pushWords (framed 8) (.crumb 0) 0x3EFF8 (some 0x3F000) [8, 2])) ∧
    (CanRun (framed 8) (.crumb 0) 2 ∧ CanRun (framed 0xFFFF0000) (.crumb 0) 2 ∧
      ((framed 0xFFFF0000).core (.crumb 0)).g[(15 : Fin 16)] = 0xFFFF0000) ∧
    (CanRun (user fun c => wr c 15 0xFFFF0000) (.ctrl 0) 2 ∧ (user fun c => wr c 15 0xFFFF0000).user (.ctrl 0) = true) ∧
    (Gives ((framed 8).loadFlat (.crumb 0) (0x3FF00 + 4) 4 4) (fun r => r.1.length == 4 && leNat r.1 == 2) ∧
      Gives (popRegs (.crumb 0) (masked 2) 0x3FF08 (framed 8))
        (fun t => match t.loadFlat (.crumb 0) 0x3FF00 4 4 with | .ok r => r.1.length == 4 | .error _ => false)) ∧
    0x3FFFC + 4 * [(1 : Fin 16)].length ≤ 262144 := by
  repeat' with_reducible apply And.intro
  all_goals with_reducible first | apply canRun_of | apply gives_of | apply raises_of | skip
  all_goals decide +kernel

/-- A body that a prefix repeats: ADD g2, g3. -/
def again : RepBody := .s16 .add 2 3

/-- A body that reads memory: CPY from g2 to g3. -/
def copyBody : RepBody := .cpy 3 2 0

/-- Hypotheses of Repeats: a body that may be repeated and one that may not, counts up to 4,096 and above, enough budget and too
little, a unit that is left inside, and a repetition that raises an exception. -/
theorem witness_Repeats :
    repOk 1 again = true ∧ repOk 2 again = false ∧
    (Gives (working.fetchOk (.crumb 0) (repLen again)) ∧ working.unitRunnable (.crumb 0) false = true ∧
      working.runnable (.crumb 0) = true ∧ (working fun c => { c with inUnit := true }).unitRunnable (.crumb 0) false = true ∧
      (working fun c => { c with inUnit := true }).runnable (.crumb 0) = false) ∧
    (((working fun c => wr c 1 4096).core (.crumb 0)).g[(1 : Fin 16)].toNat ≤ 4096 ∧
      4096 < ((working fun c => wr c 1 4097).core (.crumb 0)).g[(1 : Fin 16)].toNat) ∧
    Gives (repeated (.crumb 0) 1 (repEffect (.crumb 0) again) 3 (working fun c => wr c 1 3)) ∧
    (working fun c => wr c 1 3).budget (.crumb 0) = some 1000 ∧
    ((working fun c => { wr c 1 3 with icount := 998 }).core (.crumb 0)).icount.toNat + 2 ≤ 1000 ∧
    (let s := working fun c => wr (wr c 1 3) 2 0xFFFFFFF0
     Gives (repeated (.crumb 0) 1 (repEffect (.crumb 0) copyBody) 0 s) ∧ repOk 1 copyBody = true ∧
       Raises (repEffect (.crumb 0) copyBody s)) := by
  repeat' with_reducible apply And.intro
  all_goals with_reducible first | apply gives_of | apply raises_of | skip
  all_goals decide +kernel

/-- Hypotheses of FetchAndExceptions: a core that may not run, one inside a REP unit, a fetch past the code, and a Crumb with a job
that runs. -/
theorem witness_FetchAndExceptions :
    (live.runnable (.crumb 0) = false ∧ (live.core (.crumb 0)).inUnit = false ∧
      (working fun c => { c with inUnit := true }).runnable (.crumb 0) = false) ∧
    (working fun c => { c with pc := 64 }).runnable (.crumb 0) = true ∧
    Raises ((working fun c => { c with pc := 64 }).fetchOk (.crumb 0) 2) ∧
    isaForm (.brk (.crumb 0)) = some (.crumb 0, 2) ∧
    ((working.crumb 0).run = some slice ∧ working.job? slice.job = some job ∧ job.ending = none ∧ exnBreak.mend = false) := by
  repeat' with_reducible apply And.intro
  all_goals with_reducible first | apply raises_of | skip
  all_goals decide +kernel

/-- Hypotheses of PrivilegeAndInterrupts: both modes, EXL set and clear, an odd and an even EPC, interrupts pending or none; and
each case of an interrupt and of IBUDGET. -/
theorem witness_PrivilegeAndInterrupts :
    (CanRun (kernel) (.ctrl 0) 4 ∧ kernel.user (.ctrl 0) = false ∧ CanRun (user) (.ctrl 0) 4 ∧ user.user (.ctrl 0) = true) ∧
    (CanRun (kernel fun c => { c with exl := true, epc := 0x10001 }) (.ctrl 0) 2 ∧
      CanRun (kernel fun c => { c with exl := true, epc := 0x10002 }) (.ctrl 0) 2 ∧
      CanRun (user fun c => { c with exl := true }) (.ctrl 0) 2 ∧ (kernel.core (.ctrl 0)).exl = false) ∧
    (CanRun (firmware fun x => { x with irqs := [9] }) (.ctrl 0) 2 ∧ (kernel.ccore 0).irqs = []) ∧
    ((kernel.ccore 1).st ≠ 1 ∧ (kernel.ccore 0).st = 1 ∧ (kernel.ccore 0).halted = false ∧ (kernel.ccore 0).idle = false ∧
      ((firmware fun x => { x with halted := true }).ccore 0).halted = true ∧
      ((firmware fun x => { x with idle := true }).ccore 0).idle = true ∧ (kernel.ccore 0).core.ie = false ∧
      ((kernel fun c => { c with ie := true }).ccore 0).core.ie = true) ∧
    (∀ c ∈ [((user fun c => { c with ibudget := 5, icount := 5 }).ccore 0).core],
      c.priv = false ∧ c.ibudget ≠ 0 ∧ c.ibudget ≤ c.icount ∧ c.exl = false) := by
  repeat' with_reducible apply And.intro
  all_goals with_reducible first | apply canRun_of | skip
  all_goals decide +kernel

/-- A key that waits, a result that is ready, an open digest. -/
def busy : State := working fun c => { c with sieveWait := [0], sieveQ := [none], digests := [⟨1, 1, []⟩] }

/-- Batch 0 with 512 keys submitted. -/
def full : State := { working with
  crumbs := (List.range 64).map fun i => (i, { crumb with core := { Core.init with sieveWait := List.replicate 8 0 } }) }

/-- Engine 0 online. -/
def engines (s : State) : State := { s with digests := { s.digests with engines := [(0, ⟨1, 0⟩)] } }

/-- Engine 0 online, a DGO of Crumb 0 with its message, resident, waiting or expired. -/
def opening (resident expired : Bool) (s : State := working) : State := { engines s with digests := { (engines s).digests with
  msgs := [{ id := 0, owner := .crumb (.crumb 0) 1, engine := 0, resident := resident, busy := false, idleSince := 0, fed := 0, total := 0
             sinceGrant := 0, sinceCheck := 0, asks := !resident && !expired, expired := expired }], nextMsg := 1 } }

/-- Hypotheses of SieveAndDigestInstructions: a full queue and one with room, eight outstanding, nothing outstanding; a context that
is granted, a wait, one that has expired, two digests open; a digest whose context it has, one that has been spilled and waits, and a
handle that is not open. -/
theorem witness_SieveAndDigestInstructions :
    (CanRun full (.crumb 0) 4 ∧ full.svsFull (.crumb 0) = true ∧ working.svsFull (.crumb 0) = false ∧
      8 ≤ ((working fun c => { c with sieveWait := List.replicate 8 0 }).core (.crumb 0)).sieveWait.length ∧
      CanRun busy (.crumb 0) 4 ∧ (busy.core (.crumb 0)).sieveWait = 0 :: [] ∧ busy.anyHeld (busy.svsBanks 0) = false ∧
      (busy.core (.crumb 0)).sieveQ = none :: [] ∧ (working.core (.crumb 0)).sieveQ = [] ∧
      (working.core (.crumb 0)).sieveWait.length + (working.core (.crumb 0)).sieveQ.length < 8) ∧
    Gives (working.load (.crumb 0) 0 0 38) ∧ Raises (working.load (.crumb 0) 0 65500 38) ∧
    ((engines working).waiters ((engines working).coreEngine (.crumb 0)) = [] ∧
      ((engines working).engine ((engines working).coreEngine (.crumb 0))).st = 1 ∧
      ((engines working).resident ((engines working).coreEngine (.crumb 0))).length < 64 ∧
      (working.engine (working.coreEngine (.crumb 0))).st ≠ 1 ∧
      (∀ m ∈ working.digests.msgs, m.id < working.digests.nextMsg) ∧ working.coreMsg (.crumb 0) 1 = none ∧
      2 ≤ ((working fun c => { c with digests := [⟨1, 1, []⟩, ⟨2, 1, []⟩] }).core (.crumb 0)).digests.length) ∧
    ((working.askCore (.crumb 0) 1 true).coreWaits (.crumb 0) 1 = true ∧
      ((engines working).askCore (.crumb 0) 1 true).coreWaits (.crumb 0) 1 = false ∧
      CanRun ((engines working).askCore (.crumb 0) 1 true) (.crumb 0) 4 ∧
      (((engines working).askCore (.crumb 0) 1 true).coreMsg (.crumb 0) 1).map DigestMsg.expired = some false ∧
      ((opening false true).askCore (.crumb 0) 1 true).coreWaits (.crumb 0) 1 = false ∧
      CanRun ((opening false true).askCore (.crumb 0) 1 true) (.crumb 0) 4 ∧
      (((opening false true).askCore (.crumb 0) 1 true).coreMsg (.crumb 0) 1).map DigestMsg.expired = some true) ∧
    ((busy.core (.crumb 0)).digests.find? (fun y => y.handle == 1) = some ⟨1, 1, []⟩ ∧
      (busy.core (.crumb 0)).digests.find? (fun y => y.handle == 2) = none) ∧
    (((opening true false busy).coreMsg (.crumb 0) 1).map DigestMsg.resident = some true ∧
      ((opening true false busy).askCore (.crumb 0) 1 false).coreWaits (.crumb 0) 1 = false ∧
      CanRun ((opening true false busy).askCore (.crumb 0) 1 false) (.crumb 0) 4 ∧
      (let s : State := { opening false false busy with
         digests := { (opening false false busy).digests with engines := [] } }
       (s.askCore (.crumb 0) 1 false).coreWaits (.crumb 0) 1 = true)) ∧
    Gives (busy.storeAt (.crumb 0) 0 64 (zeros 32)) ∧ Raises (busy.storeAt (.crumb 0) 0 0 (zeros 32)) ∧
    Gives ((opening true false busy).storeAt (.crumb 0) 0 64 (algDigest 1 [])) ∧
    Raises ((opening true false busy).storeAt (.crumb 0) 0 0 (algDigest 1 [])) := by
  repeat' with_reducible apply And.intro
  all_goals with_reducible first | apply canRun_of | apply gives_of | apply raises_of | skip
  all_goals decide +kernel

/-! ## Queue pairs, fetching and administration -/

/-- The bytes of a packet with an opcode and a CID of 7. -/
def packet (op : Nat) (flags : Nat := 0) : List Byte := leBytes 1 op ++ leBytes 1 flags ++ leBytes 2 7 ++ zeros 60

/-- Hypotheses of Doorbells: a function that is not reached, a queue pair that is halted and one that is not, values at the ends of
its ring, and replies to release. -/
theorem witness_Doorbells :
    4096 ≤ 4096 ∧ (live.latch .a 1 (tfBar 1)).write = none ∧ live.tfReach .a 3 = false ∧ live.tfReach .a 1 = true ∧
    live.qp .a 1 63 = none ∧ live.qp .a 1 1 = some (ring 1 1) ∧ (ring 1 1).halted = false ∧ live.usable .a 1 = true ∧
    ({ live with qps := [{ ring 1 1 with halted := true }] }.qp .a 1 1).map QueuePair.halted = some true ∧
    (15 < 2 ^ (ring 1 1).sqLog2 ∧ 2 ^ (ring 1 1).sqLog2 ≤ 16) ∧
    (let q := { ring 1 1 with cqHead := 15, unreleased := 2 }
     (1 + 2 ^ q.cqLog2 - q.cqHead) % 2 ^ q.cqLog2 ≤ q.unreleased ∧ q.unreleased < (2 + 2 ^ q.cqLog2 - q.cqHead) % 2 ^ q.cqLog2) := by
  repeat' with_reducible apply And.intro
  all_goals decide +kernel

/-- Hypotheses of QueuePairs: settings at both ends of their ranges and just past one, ENABLE 0 and 1; no queue pair left for the
function, the lowest free number, a queue pair that is there and one that is not. -/
theorem witness_QueuePairs :
    (live.qpAllowed 1 = true ∧ { live with qps := [ring 0 0] }.qp .a 1 0 = none ∧
      (0x00100401 / 2 ^ 8) % 32 = 4 ∧ (0x00100401 / 2 ^ 16) % 32 = 16 ∧ ¬4 ≤ (0x00100301 / 2 ^ 8) % 32 ∧
      (live.fp .a 1).aqCfg.getLsbD 0 = false ∧
      ({ live with fns := [(fpKey .a 1, { FnPort.init with mse := true, aqCfg := 1 })] }.fp .a 1).aqCfg.getLsbD 0 = true) ∧
    (let c := { cmd (pkt 0x02) with qid := 0 }
     Turn (sent c) 1 0x02 c ∧ c.fn ≠ 0 ∧ live.qpAllowed c.fn = true ∧ (∃ q ∈ live.qps, q.fn = c.fn ∧ q.qid = 1) ∧
       ¬(∃ q ∈ live.qps, q.fn = c.fn ∧ q.qid = 2) ∧ ∀ x ∈ (sent c).cmds, x.fn = c.fn → x.qid ≠ 2) ∧
    Turn (sent (cmd (pkt 0x02) 0)) 1 0x02 (cmd (pkt 0x02) 0) ∧
    (let c := { cmd (pkt 0x03 [(24, 1, 1)]) with qid := 0 }
     Turn (sent c) 1 0x03 c ∧ live.qp c.port c.fn (c.pkt.fld 24 1) = some (ring 1 1) ∧ (ring 1 1).deleting = none ∧
       ∀ x ∈ (sent c).cmds, x.qid ≠ 1) ∧
    live.qp .a 1 2 = none := by
  repeat' with_reducible apply And.intro
  all_goals with_reducible first | apply turn_of | skip
  all_goals decide +kernel

/-- Hypotheses of FetchAndStart: a read of eight packets at most; a queue pair whose turn it is and one whose turn it is not; a
function that has had its share; a packet that passes the checks, one that does not, and one that lacks its resources; commands
that wait with a page list and with a payload. -/
theorem witness_FetchAndStart :
    (live.qp .a 1 0 = some (ring 1 0) ∧ live.mayFetch (ring 1 0) 1 = true ∧ live.mayFetch (ring 1 0) 3 = true ∧
      live.mayFetch (ring 1 0) 4 = false ∧ live.mayFetch (ring 1 0) 0 = false ∧ (packet 0).length = 64) ∧
    (live.inTurn (ring 1 0) = true ∧ live.inShare 1 = true ∧
      { live with qps := [ring 1 0, { ring 1 1 with turns := 3 }] }.inTurn (ring 1 0) = false ∧
      { live with disp := ⟨0, [(1, 5)]⟩ }.inShare 1 = false) ∧
    (live.checkPacket 1 0 (packetOf (packet 0)) = none ∧ (live.resourceCheck (fetched 2 1 .a 0 (packetOf (packet 0)))).1 = none) ∧
    There (live.checkPacket 1 0 (packetOf (packet 0x07))) ∧
    (let p := packetOf (overlay (overlay (packet 0x02) 24 (leBytes 8 0x8000 ++ leBytes 8 0x9000)) 40 [4, 4, 0, 0, 0, 0, 8])
     live.checkPacket 0 0 p = none ∧ (live.resourceCheck (fetched 2 0 .a 0 p)).1 = some .queueLimit) ∧
    (let c := { cmd (pkt 0x00) with started := false, pkt := { pkt 0x41 (len := 4096) with flags := 4 } }
     (sent c).cmd? 1 = some c ∧ c.started = false ∧ (sent c).mayStart c = true ∧ (sent c).usable c.port c.fn = true ∧
       c.pkt.list = true ∧ 0 < c.pkt.dataLen ∧ ∀ x ∈ (sent c).cmds, x.tag < (sent c).nextTag) ∧
    (let c := { cmd (pkt 0x41 (len := 4096)) with started := false }
     (sent c).mayStart c = true ∧ c.pkt.list = false ∧ c.pkt.inbound = true) := by
  repeat' with_reducible apply And.intro
  all_goals with_reducible first | apply there_of | skip
  all_goals decide +kernel

/-- The state with function 1's configuration space on Port A changed. -/
def withPci (f : PciFn → PciFn) : State := { live with
  fns := [(fpKey .a 1, { FnPort.init with mse := true, bme := true, pci := f FnPort.init.pci, msix := [(5, ⟨0, 0, false⟩)] })] }

/-- Hypotheses of HostReads: a command that waits for its data, and for its pages, aligned and not, with a function that may read its
payload and one that may not; a ring that may be fetched; an interval that runs, on a vector that is open and on one that is not; a
translation. -/
theorem witness_HostReads :
    (let c := { cmd (pkt 0x41 (len := 4)) with want := .payload }
     (sent c).cmd? 1 = some c ∧ Live (sent c) c ∧ c.want = .payload ∧ [1, 2, 3, (4 : Byte)].length = c.pkt.dataLen) ∧
    (let c := { cmd (pkt 0x41 (len := 4097)) with want := .pageList }
     Live (sent c) c ∧ (leBytes 8 0x1000 ++ leBytes 8 0x2000).length = 8 * ((c.pkt.dataLen + 4095) / 4096) ∧
       (∀ p ∈ (chunks 8 (leBytes 8 0x1000 ++ leBytes 8 0x2000)).map leNat, p % 4096 = 0) ∧
       (∃ p ∈ (chunks 8 (leBytes 8 0x1000 ++ leBytes 8 0x2001)).map leNat, p % 4096 ≠ 0) ∧
       c.pkt.inbound = true ∧ (sent c).usable c.port c.fn = true ∧
       (sent c { live with fns := [] }).usable c.port c.fn = false ∧ Live (sent c { live with fns := [] }) c) ∧
    (live.qp .a 1 0 = some (ring 1 0) ∧ live.modes.running = true ∧ (ring 1 0).halted = false ∧ (ring 1 0).deleting = none ∧
      1 ≤ (ring 1 0).waiting) ∧
    (let s := { withPci (fun p => { p with msixOn := true }) with qps := [{ ring 1 1 with timing := true, vector := 5 }] }
     s.qp .a 1 1 = some { ring 1 1 with timing := true, vector := 5 } ∧ s.canSend .a 1 = true ∧
       (s.held.any fun x => x.fn == 1 && x.port == .a) = false ∧ (s.fp .a 1).vectorOpen 5 = some ⟨0, 0, false⟩) ∧
    ((withPci id).fp .a 1).vectorOpen 5 = none ∧
    ((withPci fun p => { p with atsOn := true }).fp .a 1).pci.atsOn = true := by
  repeat' with_reducible apply And.intro
  all_goals with_reducible first | apply live_of | skip
  all_goals decide +kernel

/-- An ASYNC_EVENT request that waits, under a tag. -/
def request (t : Nat) : Cmd := { cmd (pkt 0x06) with tag := t, launched := true }

/-- Hypotheses of AdminReplies: each command in turn, a target of ABORT, three and four requests that wait, an event that is held. -/
theorem witness_AdminReplies :
    (Turn (sent (cmd (pkt 0x00))) 1 0x00 (cmd (pkt 0x00)) ∧ Turn (sent (cmd (pkt 0x01 (aux := 3)))) 1 0x01 (cmd (pkt 0x01 (aux := 3))) ∧
      Turn (sent (cmd (pkt 0x04))) 1 0x04 (cmd (pkt 0x04)) ∧ live.usable .a 1 = true) ∧
    (let c := cmd (pkt 0x05 [(24, 1, 1), (26, 2, 9)])
     let x := { cmd { pkt 0x41 with cid := 9 } with tag := 0, started := false }
     let s := { live with cmds := [x, c] }
     Turn s 1 0x05 c ∧ s.abortTarget c = some x ∧ Live s x ∧ x.tag ≠ 1 ∧ (∀ q ∈ s.qps, q.deleting = none) ∧
       (sent c).abortTarget c = none) ∧
    (let c := cmd (pkt 0x06)
     let s (n : Nat) : State := { live with cmds := c :: (List.range n).map fun i => request (i + 2) }
     let out (s : State) := (s.cmds.filter fun x => x.fn == c.fn && x.port == c.port && x.pkt.opcode == 0x06 && x.launched && !x.doomed).length
     Turn (s 4) 1 0x06 c ∧ 4 ≤ out (s 4) ∧ out (s 3) < 4 ∧ ((s 3).fp c.port c.fn).events = [] ∧
       ({ s 3 with fns := [(fpKey .a 1, { FnPort.init with events := [(1, 2)] })] }.fp c.port c.fn).events = (1, 2) :: []) := by
  repeat' with_reducible apply And.intro
  all_goals with_reducible first | apply turn_of | apply live_of | skip
  all_goals decide +kernel

/-! ## A device with data -/

/-- The geometry of the cards. -/
def geo : CardInfo where
  serial := []
  part := []
  jedec := 0x2C
  bitsPerCell := 3
  planes := 2
  maxRate := 0
  model := []
  pageBytes := 16384
  spareBytes := 2048
  pagesPerBlock := 768
  blocksPerLun := 1000
  maxBad := 40
  endurance := 3000
  ceMap := [1]
  dies := 1
  tReadUs := 50
  tProgUs := 700
  tErsUs := 3000
  tempWarn := 70
  tempMax := 85
  rrFeature := 0x89
  rrSteps := 7

/-- A card that is Online. -/
def online : Card := { Card.init with state := 3, info := some geo, present := true, powered := true }

/-- A stripe set of 18 members. -/
def sset (no : Nat) (kind : RowKind) : StripeSet where
  no := no
  batch := 0
  kind := kind
  prot := true
  members := (List.range 18).map fun i => ⟨i, 0, 0, 4, false, 0, false, false⟩
  nextRow := 1
  closed := false
  gcMark := false
  victim := false

/-- An open row with nothing in it. -/
def open' (id set : Nat) (kind : RowKind) : Row where
  id := id
  set := set
  index := 0
  batch := 0
  kind := kind
  prot := true
  issued := false
  groups := []
  progs := []

/-- The header of a block's sector. -/
def hdr : Header := ⟨1, false, false, false, 1, 1, 0, 0, 0, 1, 0, 0, 1, 0⟩

/-- A sector of tenant 1. -/
def sector : Sector := ⟨9, 0, 0, 0, 0, hdr, zeros 64, zeros 32⟩

/-- Version 4 of object 2 of space 1. -/
def ver : Version where
  tenant := 1
  space := 1
  oid := 2
  version := 4
  live := true
  log := false
  length := 64
  segStart := 0
  alg := 1
  digest := []
  parts := [⟨0, zeros 64, [9], 0, 0⟩]
  trimmed := []
  pclass := 0
  seq := 1
  group := none

/-- A write stream of object 3 with nothing received. -/
def wstream : WriteStream where
  space := 1
  oid := 3
  declLen := 8192
  start := 0
  alg := 1
  log := false
  expect := none
  state := .opened
  parts := []
  pclass := 0
  batch := 0
  checkpoint := 0

/-- The same stream with all of its bytes received and durable. -/
def whole : WriteStream := { wstream with declLen := 4, parts := [⟨0, [1, 2, 3, 4], 1, [], true⟩] }

/-- A context of tenant 1. -/
def ctx (h : Nat) (k : CtxKind) : Ctx := ⟨h, h, 1, .a, k, true, [0]⟩

/-- The device with 24 cards, a namespace, a space, an object, a tenant key and open rows. -/
def disk : State := { live with
  tenants := [(1, { Tenant.init with
    state := .running, enabled := true
    spaces := [(1, ⟨true, 0, 0, 4, false⟩)]
    nss := [(1, ⟨1000, [(5, ⟨9, 0, 3, 1⟩)], []⟩)] })]
  ctxs := [ctx 0x40001 (.write wstream), ctx 0x40002 (.read 1 2 4)]
  versions := [ver]
  flash := { live.flash with
    cards := (List.range 24).map fun i => (i, online)
    sectors := [sector]
    sets := [sset 0 .host, sset 1 .metadata]
    rows := [open' 0 0 .host, open' 1 1 .metadata]
    nextGroup := 1, nextRow := 2, nextSet := 2, nextSector := 10, usable := 10 ^ 12 }
  keys := { live.keys with tenant := [(keySlot 1 0, ⟨3, zeros 32⟩)] }
  rollers := [(0, { RollerPair.init with stC := .idle, stD := .idle })] }

/-- The device with other streams. -/
def withCtx (k : CtxKind) : State := { disk with ctxs := [ctx 0x40001 k] }

/-- Hypotheses of BlockReads: an LBA that is mapped, one that is not, and one whose key is gone. -/
theorem witness_BlockReads :
    Turn (sent (cmd (pkt 0x20 [(24, 8, 5)])) disk) 1 0x20 (cmd (pkt 0x20 [(24, 8, 5)])) ∧
    There (disk.ns? 1 1) (fun n => n.entry 4 == none && (n.entry 5).any fun e => (disk.sector? e.sector).isSome) ∧
    disk.reading 1 = false ∧ disk.usable .a 1 = true ∧ disk.keyedFor 1 [9] = true ∧
    { disk with keys := live.keys }.keyedFor 1 [9] = false := by
  repeat' with_reducible apply And.intro
  all_goals with_reducible first | apply turn_of | apply there_of | skip
  all_goals decide +kernel

/-- The device with class 0 stored under a compression target. -/
def coding : State := disk.setReg .svPclass 0 0x10

/-- Hypotheses of WritesTrimsAndFlush: no space, a device that is worn out, no key, and a block that can be written, stored raw and
under a compression target; a trim; nothing earlier. -/
theorem witness_WritesTrimsAndFlush :
    (let c := cmd (pkt 0x21 [(24, 8, 63)] (len := 4096)) 1 (zeros 4096)
     Turn (sent c disk) 1 0x21 c ∧ There (disk.ns? 1 1) ∧ ((sent c disk).tenantKey c.fn ((sent c disk).classKey c.pclass) 0).isSome = true ∧
       (live.tenantKey 1 0 0).isNone = true ∧ (sent c disk).spaceFor c.data.length = none ∧
       (sent c { disk with flash := { disk.flash with usable := 0 } }).spaceFor c.data.length = some .noSpace ∧
       (sent c { disk with flash := { disk.flash with cards := [] } }).spaceFor c.data.length = some .readOnly ∧
       (sent c disk).classTarget c.pclass = 0 ∧ Turn (sent c coding) 1 0x21 c ∧ (sent c coding).classTarget c.pclass ≠ 0 ∧
       (sent c coding).spaceFor c.data.length = none ∧
       0 < c.data.length / 4096 ∧ c.data.length % 4096 = 0 ∧ 63 / 64 = (63 + c.data.length / 4096 - 1) / 64 ∧
       EmptyRow (sent c disk) (63 / 64 % 4) .host ((sent c disk).classParity c.pclass != 1)) ∧
    (let c := cmd (pkt 0x23 [(24, 8, 5), (32, 4, 0)])
     Turn (sent c disk) 1 0x23 c ∧ EmptyRow (sent c disk) (disk.nextCommit % 4) .metadata true) ∧
    (let c := cmd (pkt 0x22)
     Turn (sent c disk) 1 0x22 c ∧ ∀ x ∈ (sent c disk).earlier c, x.pkt.writes = false) := by
  repeat' with_reducible apply And.intro
  all_goals with_reducible first | apply turn_of | apply emptyRow_of | apply there_of | skip
  all_goals decide +kernel

/-- A tenant with other quotas of space 1 and another number of contexts. -/
def quota (bytes objects : Nat) (ctx : Reg := 0x40) : State := { disk with
  tenants := [(1, { disk.tenant 1 with
    spaces := [(1, ⟨true, bytes, objects, 4, false⟩)], active := { Settings.init with ctx := ctx } })] }

/-- Hypotheses of StreamsOpenAndEnd: each condition of the open commands, streams in both states, timers that run and that stand. -/
theorem witness_StreamsOpenAndEnd :
    (let c := cmd (pkt 0x40 [(24, 16, 3), (40, 8, 100)])
     Turn (sent c disk) 1 0x40 c ∧ There (disk.space? 1 1) ∧ (quota 0 0 0).ctxAllowed 1 = false ∧
       (sent c (quota 0 1)).ctxAllowed 1 = true ∧ (sent c (quota 0 1)).current 1 1 3 = none ∧ 1 ≤ (sent c (quota 0 1)).spaceObjects 1 1 ∧
       (sent c (quota 99 0)).createOk 1 1 3 = none ∧ 99 < (sent c (quota 99 0)).spaceBytes 1 1 + (c.pkt.fld 40 8 - c.pkt.fld 48 8) ∧
       (sent c disk).openCheck c 3 (c.pkt.fld 40 8) (c.pkt.fld 48 8) (bitOf c.pkt.aux 2) = none ∧
       ((sent c disk).tenantKey c.fn ((sent c disk).classKey c.pclass) 0).isSome = true ∧
       ((sent c { disk with keys := live.keys }).tenantKey c.fn ((sent c disk).classKey c.pclass) 0).isNone = true) ∧
    (let c := cmd (pkt 0x45 [(24, 16, 2), (40, 8, 4)])
     Turn (sent c disk) 1 0x45 c ∧ disk.current 1 1 2 = some ver ∧ disk.current 1 1 3 = none ∧ c.pkt.fld 40 8 = ver.version) ∧
    (let c := cmd (pkt 0x43 (stream := 0x40001))
     Turn (sent c disk) 1 0x43 c ∧ (sent c disk).stream? 1 c.pkt.stream = some wstream ∧ (∀ q ∈ (sent c disk).qps, q.deleting = none) ∧
       (∀ x ∈ (sent c disk).cmds, x.tag = 1 → x = c) ∧
       (withCtx (.write { wstream with state := .committing })).stream? 1 0x40001 = some { wstream with state := .committing }) ∧
    (let c := cmd (pkt 0x46 (stream := 0x40002))
     Turn (sent c disk) 1 0x46 c ∧ ((sent c disk).readStream? 1 0x40002).isSome = true ∧ NoGroupWork (sent c disk)) ∧
    (∀ w, (ctx 0x40001 (.write wstream)).kind = .write w → w.state = .opened) ∧
    disk.ctxs.find? (fun c => c.handle == 0x40001) = some (ctx 0x40001 (.write wstream)) ∧ disk.timersStand 1 = false ∧
    { disk with modes := { disk.modes with mode := .quiesce } }.timersStand 1 = true ∧ (disk.ctxs.filter Ctx.cached).length < 16384 ∧
    { ctx 0x40001 (.write wstream) with cached := false }.cached = false ∧ (ctx 0x40001 (.write wstream)).copies ≠ [] := by
  repeat' with_reducible apply And.intro
  all_goals with_reducible first | apply turn_of | apply there_of | apply noGroupWork_of | skip
  all_goals first | decide +kernel | (intro w h; cases h; rfl)

/-- Hypotheses of Appends: a range that ends at the declared length, one that goes a byte past it, one that overlaps, one that
starts where the window ends, and one that can be placed, stored raw and under a compression target; no space, a worn-out device,
no key, and a staging that is full; an append in flight when the COMMIT was accepted, and one after it. -/
theorem witness_Appends :
    (let c := cmd (pkt 0x41 [(24, 8, 4096)] (len := 4096) (stream := 0x40001)) 1 (zeros 4096)
     Turn (sent c disk) 1 0x41 c ∧ (sent c disk).stream? 1 c.pkt.stream = some wstream ∧
       c.pkt.fld 24 8 + c.data.length ≤ wstream.declLen ∧ wstream.declLen < c.pkt.fld 24 8 + (c.data.length + 1) ∧
       wstream.overlaps 4096 4096 = false ∧ 4096 < wstream.frontier + 2 ^ 26 ∧
       ((sent c disk).tenantKey c.fn ((sent c disk).classKey wstream.pclass) 0).isSome = true ∧
       ((sent c { disk with keys := live.keys }).tenantKey c.fn ((sent c disk).classKey wstream.pclass) 0).isNone = true ∧
       (sent c disk).spaceFor c.data.length = none ∧
       (sent c { disk with flash := { disk.flash with usable := 0 } }).spaceFor c.data.length = some .noSpace ∧
       (sent c { disk with flash := { disk.flash with cards := [] } }).spaceFor c.data.length = some .readOnly ∧
       (sent c disk).objectTarget wstream.pclass = 0 ∧ (sent c coding).objectTarget wstream.pclass ≠ 0 ∧
       Turn (sent c coding) 1 0x41 c ∧ (sent c coding).spaceFor c.data.length = none ∧
       (sent c disk).staged wstream.batch + c.data.length ≤ (sent c disk).stagingSize wstream.batch ∧
       (let d := { c with tag := 9, staged := [(0, 10003415040)] }
        let s := { disk with cmds := [d, c] }
        Turn s 1 0x41 c ∧ s.stagingSize wstream.batch < s.staged wstream.batch + c.data.length) ∧
       0 < c.data.length ∧ 4096 % 4096 + c.data.length ≤ 262144 ∧
       EmptyRow (sent c disk) wstream.batch .host ((sent c disk).classParity wstream.pclass != 1)) ∧
    (∃ p ∈ whole.parts, 3 < p.off + p.data.length ∧ p.off < 3 + 1) ∧
    whole.frontier + 2 ^ 26 ≤ 4 + 2 ^ 26 ∧
    (let w := { wstream with state := .committing, inFlight := [1] }
     let c := cmd (pkt 0x41 [(24, 8, 4096)] (len := 4096) (stream := 0x40001)) 1 (zeros 4096)
     Turn (sent c (withCtx (.write w))) 1 0x41 c ∧ (withCtx (.write w)).stream? 1 0x40001 = some w ∧ 1 ∈ w.inFlight ∧
       ¬(w.state = .opened ∨ 2 ∈ w.inFlight)) := by
  repeat' with_reducible apply And.intro
  all_goals with_reducible first | apply turn_of | apply emptyRow_of | skip
  all_goals decide +kernel

/-- The device with a stream that is complete, changed by `f`. -/
def complete (f : WriteStream → WriteStream := id) : State := withCtx (.write (f whole))

/-- The commit of version 5 of object 2. -/
def com (phase : CommitPhase) : Commit := ⟨0, .cmd 1, 0x40001, none, phase, { ver with version := 5 }, false⟩

/-- The device while space 1 is being deleted. -/
def dropping (s : State := disk) : State := { s with
  tenants := [(1, { s.tenant 1 with spaces := [(1, ⟨true, 0, 0, 4, true⟩)] })] }

/-- Hypotheses of CommitsAndPages: each check of COMMIT, a space that is being deleted, an append that is in flight or not durable, a
commit that waits for a page, and one that is durable, with the link up and down. -/
theorem witness_CommitsAndPages :
    (let c := cmd (pkt 0x42 (stream := 0x40001))
     let s := sent c (complete)
     let x := { cmd (pkt 0x41 (stream := 0x40001)) with tag := 2 }
     Turn s 1 0x42 c ∧ s.stream? 1 0x40001 = some whole ∧ NoGroupWork s ∧
       (∀ v ∈ s.versions, v.group = none) ∧ (∀ p ∈ whole.parts, p.durable = true) ∧ (∀ x ∈ s.commits, x.handle ≠ 0x40001) ∧
       (∀ x ∈ s.cmds, x.fn = c.fn → x.pkt.stream = 0x40001 → x.pkt.opcode = 0x42 → x = c) ∧ whole.frontier = whole.declLen ∧
       (Turn (dropping s) 1 0x42 c ∧ (((dropping s).tenant 1).spaces.look 1).any Space.deleting = true ∧
         ((s.tenant 1).spaces.look 1).any Space.deleting = false) ∧
       (let s := { s with cmds := [x, c] }
        Turn s 1 0x42 c ∧ (∀ x ∈ s.cmds, x.fn = c.fn → x.pkt.stream = 0x40001 → x.pkt.opcode = 0x42 → x = c) ∧
          ∃ x ∈ s.cmds, x.fn = c.fn ∧ x.pkt.opcode = 0x41 ∧ x.pkt.stream = 0x40001 ∧ x.started = true ∧ x.launched = false) ∧
       (¬∃ x ∈ s.cmds, x.fn = c.fn ∧ x.pkt.opcode = 0x41 ∧ x.pkt.stream = 0x40001 ∧ x.started = true ∧ x.launched = false) ∧
       (∃ p ∈ { whole with parts := [⟨0, [1, 2, 3, 4], 1, [], false⟩] }.parts, p.durable = false) ∧
       { whole with declLen := 5 }.frontier ≠ { whole with declLen := 5 }.declLen ∧
       whole.expect.any (· != contentDigest whole.alg whole.segment) = false ∧
       (some (zeros 32)).any (· != contentDigest whole.alg whole.segment) = true ∧
       s.latestInOrder 1 1 3 = none ∧ c.pkt.fld 24 8 = 0 ∧ (s.latestInOrder 1 1 2).any Version.live = true ∧
       s.classParity whole.pclass < 2 ∧ There ((s.tenant 1).spaces.look 1) (fun sp => sp.counter < 2 ^ 64 - 2)) ∧
    (let s := { disk with commits := [com .waiting] }
     s.pageable = [com .waiting] ∧ s.awake = true ∧ EmptyRow s (s.nextCommit % 4) .metadata true ∧
       (∀ r ∈ s.flash.rows, s.rowFull r.id ((s.pageable.map fun c => c.ver.listSectors).sum + 1) = false) ∧
       (∀ r ∈ s.flash.rows, ∀ g ∈ r.groups, g.id < s.flash.nextGroup) ∧ disk.pageable = []) ∧
    (let c := cmd (pkt 0x42 (stream := 0x40001))
     let s := { sent c (complete fun w => { w with state := .committing }) with commits := [com .durable] }
     s.commits.find? (fun c => c.id == 0) = some (com .durable) ∧ (∀ x ∈ s.commitsOf 1 1 2, 5 ≤ x.ver.version) ∧
       (∀ x ∈ s.versions, x.is 1 1 2 = true → x.version < 5) ∧ NoGroupWork s ∧ s.cmd? 1 = some c ∧ Live s c ∧
       s.usable c.port c.fn = true ∧ s.stream? 1 0x40001 = some { whole with state := .committing } ∧ (s.hp c.port).up = true ∧
       (∀ h ∈ s.held, h.fn ≠ c.fn) ∧
       (let s := { s with hostA := { s.hostA with up := false } }
        Live s c ∧ s.usable c.port c.fn = true ∧ (s.hp c.port).up = false)) := by
  repeat' with_reducible apply And.intro
  all_goals with_reducible first | apply turn_of | apply live_of | apply emptyRow_of | apply there_of | apply noGroupWork_of | skip
  all_goals decide +kernel

/-- Hypotheses of ObjectReads: a name with no object, a version that is neither current nor pinned, one that is read, with a key and
without, inside its length and at its end. -/
theorem witness_ObjectReads :
    (let c := cmd (pkt 0x44 [(24, 16, 2)] (len := 4096))
     Turn (sent c disk) 1 0x44 c ∧ (sent c disk).reading 1 = false ∧ (disk.space? 1 1).isSome = true ∧ disk.latest 1 1 2 = some ver ∧
       ver.group = none ∧ (∀ e ∈ ver.parts, e.data ≠ []) ∧ disk.keyedFor 1 (ver.sectorsAt 63 64) = true ∧
       { disk with keys := live.keys }.keyedFor 1 (ver.sectorsAt 63 64) = false ∧
       (∀ k ∈ ver.sectorsAt 63 64, disk.codedSector k = false) ∧
       (∃ k ∈ ver.sectorsAt 63 64, (disk.sector? k).isSome = true)) ∧
    (disk.latest 1 1 3).all (!·.live) = true ∧
    (∀ w ∈ disk.versions, w.is 1 1 2 = true → w.version = 3 → disk.pinnedVersion w = false) ∧ disk.readStream? 1 0x40002 = some ver := by
  repeat' with_reducible apply And.intro
  all_goals with_reducible first | apply turn_of | skip
  all_goals decide +kernel

/-- Hypotheses of ObjectCommands: each command in turn on an object that is there, on one that was deleted, and on one that is not; a
log object that a read stream pins, and one that none does. -/
theorem witness_ObjectCommands :
    (let c := cmd (pkt 0x47 [(24, 16, 2), (40, 8, 4)])
     Turn (sent c disk) 1 0x47 c ∧ disk.latestInOrder 1 1 2 = some ver ∧ versionOk 3 (some ver) = false ∧ c.pkt.fld 40 8 = ver.version ∧
       versionOk 4 (some ver) = true ∧ versionOk 0 none = true ∧ versionOk (2 ^ 64 - 1) none = true ∧ NoGroupWork (sent c disk) ∧
       (disk.latestInOrder 1 1 3).any Version.live = false ∧ There (disk.space? 1 1) (fun sp => sp.counter < 2 ^ 64 - 2 && !sp.deleting) ∧
       Turn (sent c (dropping)) 1 0x47 c ∧ There ((dropping).space? 1 1) Space.deleting) ∧
    (let c := cmd (pkt 0x48 [(24, 16, 2)])
     Turn (sent c disk) 1 0x48 c ∧ bitOf c.pkt.aux 0 = false ∧ disk.usable .a 1 = true ∧ disk.latest 1 1 2 = some ver ∧ ver.live = true ∧
       disk.latest 1 1 3 = none ∧
       { disk with versions := [{ ver with live := false }] }.latest 1 1 2 = some { ver with live := false }) ∧
    (let c := cmd (pkt 0x48 (aux := 1) (stream := 0x40001))
     Turn (sent c disk) 1 0x48 c ∧ bitOf c.pkt.aux 0 = true ∧ (sent c disk).stream? 1 0x40001 = some wstream ∧ disk.stream? 1 7 = none) ∧
    Turn (sent (cmd (pkt 0x4A)) disk) 1 0x4A (cmd (pkt 0x4A)) ∧
    Turn (sent (cmd (pkt 0x49 [(24, 16, 2)])) disk) 1 0x49 (cmd (pkt 0x49 [(24, 16, 2)])) ∧ disk.current 1 1 2 = some ver ∧
    disk.current 1 1 3 = none ∧
    (let v := { ver with log := true }
     { disk with versions := [v] }.current 1 1 2 = some v ∧ { disk with versions := [v] }.pinnedVersion v = true ∧
       { disk with versions := [v], ctxs := [] }.pinnedVersion v = false) := by
  repeat' with_reducible apply And.intro
  all_goals with_reducible first | apply turn_of | apply there_of | apply noGroupWork_of | skip
  all_goals decide +kernel

/-! ## Flash channels and cards -/

/-- The device with flash changed by `f`. -/
def flash (f : Flash → Flash) (s : State := disk) : State := { s with flash := f s.flash }

/-- A read of the sector for command 1. -/
def rd (step : Nat) : FlashRead := ⟨0, .cmd 1 0, 9, step, false, 0, 0⟩

/-- The device with the card of slot 0 changed by `f`. -/
def slot0 (f : Card → Card) (s : State := disk) : State := flash (fun x => { x with cards := x.cards.upd 0 Card.init f }) s

/-- The device with the flash operations of a list issued to die 0 of channel 0 of slot 0. -/
def running (l : List FlashOpRef) (s : State := disk) : State :=
  flash (fun f => { f with ops := l.map fun r => ⟨r, 0, 0, 0, true⟩ }) s

/-- Hypotheses of FlashReads: a read at the first step, issued and not, at the last one and past it, with the rebuild beside it and
without, of a row that can be rebuilt and of one that cannot; the last read of its command, and of a coded piece. -/
theorem witness_FlashReads :
    (let c := { cmd (pkt 0x20 [(24, 8, 5)]) with launched := true, got := [(0, zeros 4096)], ref := 1 }
     let d := { c with coded := [⟨0, 0, [[9]], []⟩] }
     let s := running [.read 0] (flash (fun f => { f with reads := [rd 0] }) (sent c disk))
     s.flash.reads.find? (fun r => r.id == 0) = some (rd 0) ∧ s.sector? 9 = some sector ∧ (rd 8).step = s.retrySteps sector.slot + 1 ∧
       (rd 0).step ≤ s.retrySteps sector.slot + 1 ∧ s.runs (.read 0) = true ∧ (running [] s).runs (.read 0) = false ∧
       s.retrySteps sector.slot + 1 < (rd 9).step ∧ s.rebuildable sector = true ∧
       (flash (fun f => { f with sets := [{ sset 0 .host with prot := false }] }) s).rebuildable sector = false ∧
       (rd 0).parity = false ∧ { rd 3 with parity := true }.parity = true ∧
       s.cmd? 1 = some c ∧ Live s c ∧ LastRead s 1 0 ∧ s.usable c.port c.fn = true ∧ c.coded = [] ∧
       (∀ i < c.ref, (c.got.look i).isSome = true) ∧ 0 < c.ref ∧ (∀ y ∈ s.flash.sets, y.victim = false) ∧
       (d.coded.find? (fun p => p.idx == 0)).isSome = true ∧ (∀ p ∈ d.coded, p.idx = 0)) := by
  repeat' with_reducible apply And.intro
  all_goals with_reducible first | apply live_of | apply lastRead_of | skip
  all_goals decide +kernel

/-- A row of one group that is being programmed. -/
def issued (g : Group) (st : ProgState) : Row := { open' 0 0 .host with issued := true, groups := [g], progs := [(0, st), (1, .done)] }

/-- A group of one sector. -/
def group (o : GroupOwner) : Group := ⟨0, o, [(hdr, zeros 64)], [(5, 0, 0, 3)], 0, zeros 32, 7⟩

/-- The device with one row. -/
def rowed (r : Row) (s : State := disk) : State := flash (fun f => { f with rows := [r] }) s

/-- Member 0 of a set, with its block being erased or not. -/
def member0 (erase : Nat := 0) : Member := ⟨0, 0, 0, 4, false, erase, false, false⟩

/-- Hypotheses of FlashPrograms: a program and an erase that run, the last member of a victim, a read on their die that runs and one
that does not; cards with power and without, in service and not; an operation that waits, and the one that is issued next. -/
theorem witness_FlashPrograms :
    (let r := issued (group (.write 1)) .outstanding
     let s := running [.program 0 0] (rowed r)
     s.programming 0 0 = some (r, member0) ∧ r.repair = none ∧ (∀ p ∈ r.progs, p.2 ≠ .failed) ∧ r.dead = false ∧
      (s.set? r.set).map StripeSet.victim = some false ∧ (s.card 0).state ≠ 5 ∧ s.set? 0 = some (sset 0 .host) ∧
      s.geom = some geo ∧ r.groups = [group (.write 1)] ∧ r.index < geo.rows ∧ 0 < (group (.write 1)).sectors.length ∧
      0 < (sset 0 .host).rowCap geo ∧ ((sset 0 .host).place geo r.index 0).1 = 1 ∧
      ((running [.program 0 1] (rowed { r with progs := [(1, .outstanding)] })).programming 0 1).isSome = true) ∧
    (let x := { sset 0 .host with victim := true, members := [member0 1, ⟨1, 0, 0, 4, false, 2, false, false⟩] }
     let s := running [.erase 0 0] (flash fun f => { f with sets := [x] })
     s.set? 0 = some x ∧ s.erasing 0 0 = some (member0 1) ∧ s.flash.stalled = [] ∧
       ∀ y ∈ x.members, y.slot ≠ 0 → (y.lost = true ∧ y.erase ≠ 1) ∨ y.erase = 2) ∧
    (disk.memberOf sector = some (member0) ∧ disk.dieOf sector = dieKey 0 0 0 ∧
      (running [.read 0]).readRuns (rd 0) = true ∧ disk.readRuns (rd 0) = false) ∧
    ((live.card 0).powered = false ∧ (disk.card 0).powered = true ∧ ((slot0 fun c => { c with state := 1 }).card 0).state = 1 ∧
      (live.card 0).serves = false ∧ (disk.card 0).serves = true ∧ (disk.card 0).info = some geo) ∧
    (let s := flash fun f => { f with reads := [rd 0], ops := [⟨.read 0, 0, 0, 0, false⟩] }
     (∀ o ∈ s.flash.ops, ∃ w ∈ s.wantedOps, w.ref = o.ref ∧ w.step = o.step) ∧ s.nextOp = some ⟨.read 0, 0, 0, 0, false⟩) := by
  repeat' with_reducible apply And.intro
  all_goals decide +kernel

/-- Hypotheses of DurableRows: an open row with a group, whose set is erased or still being erased, and durable rows of a write, an
append, a commit page, an extent list and a trim record. -/
theorem witness_DurableRows :
    (disk.geom = some geo ∧ (let r := { open' 0 0 .host with groups := [group (.write 1)] }
      (rowed r).row? 0 = some r ∧ (rowed r).set? r.set = some (sset 0 .host) ∧ disk.modes.powerFail = false ∧
        (∀ m ∈ (sset 0 .host).members, m.erase = 1 → m.lost = true) ∧ member0.lost = false ∧ (member0 1).erase = 1)) ∧
    ((∀ p ∈ (issued (group (.write 1)) .done).progs, p.2 = .done) ∧ (issued (group (.write 1)) .done).repair = none ∧
      ∃ p ∈ (issued (group (.write 1)) .outstanding).progs, p.2 ≠ .done) ∧
    (let c := { cmd (pkt 0x21 [(24, 8, 5)]) with launched := true, groups := [0], dataSeq := 2 }
     let s := rowed (issued (group (.write 1)) .done) (sent c disk)
     s.cmd? 1 = some c ∧ Live s c ∧ c.verdict = none ∧ c.placed = [] ∧ s.overlapped c = false ∧
       There (s.ns? 1 1) (fun n => (n.map.look 5).all fun e => decide (e.seq < 2)) ∧
       ((group (.write 1)).blocks.map Prod.fst).Nodup ∧ (∀ y ∈ s.cmds, y.tag ≠ 1 → y.pkt.opcode = 0x21 → y.groups ≠ []) ∧
       (∀ y ∈ s.flash.sets, y.victim = false) ∧ NoGroupWork s) ∧
    (let c := { cmd (pkt 0x41 (stream := 0x40001)) with groups := [0] }
     let s := rowed (issued (group (.append 1)) .done) (sent c disk)
     Live s c ∧ s.stream? 1 0x40001 = some wstream) ∧
    (let s := { rowed (issued (group (.commits [0])) .done) with commits := [com .paged] }
     ∃ c ∈ s.commits, c.id ∈ [0] ∧ c.phase = .paged ∧ c.pageDone = false) ∧
    (let l : ListWrite := ⟨1, 1, []⟩
     let g := group (.extents 1 1 2 4 0)
     let s := { rowed (issued g .done) with versions := [{ ver with fresh := some l }] }
     s.versionNamed 1 1 2 4 = some { ver with fresh := some l } ∧ g.sectors.head? = some (hdr, zeros 64) ∧ hdr.seq = l.seq ∧
       l.done.has 0 = false ∧ (l.done.put 0 ((List.range g.sectors.length).map fun i => 0 + i)).length = l.parts) ∧
    (let c := { cmd (pkt 0x23) with left := 1 }
     let r : Record := ⟨0, 1, 1, 1, .trim 5 1, 2, false⟩
     let s := { rowed (issued (group (.record 0)) .done) (sent c disk) with records := [r] }
     s.records.find? (fun r => r.id == 0) = some r ∧ r.durable = false ∧ s.cmd? r.tag = some c ∧ Live s c ∧ There (s.ns? 1 1)) := by
  repeat' with_reducible apply And.intro
  all_goals with_reducible first | apply live_of | apply there_of | apply noGroupWork_of | skip
  all_goals decide +kernel

/-- An identity record that passes every check, and its last four bytes without a CRC. -/
def idRecord : List Byte := fields 508 [(0, 4, 0x44434B56), (4, 2, 1), (6, 2, 512), (8, 16, 0x41414141414141414141414141414141),
  (24, 16, 0x41414141414141414141414141414141), (40, 1, 0x2C), (41, 1, 3), (42, 1, 2), (44, 16, 0x41414141414141414141414141414141),
  (60, 4, 0x41414141), (64, 4, 16384), (68, 2, 2048), (70, 2, 768), (72, 4, 1024), (76, 2, 40), (78, 2, 3000), (80, 1, 1), (88, 1, 1),
  (90, 2, 50), (92, 2, 700), (94, 2, 3000), (96, 1, 70), (97, 1, 85), (98, 1, 0x89), (99, 1, 7), (100, 1, 7)]

/-- A parameter page that agrees with the record. -/
def page : ParamPage where
  jedec := 0x2C
  model := List.replicate 20 0x41
  pageBytes := 16384
  spareBytes := 2048
  pagesPerBlock := 768
  blocksPerLun := 1024
  lunsPerCe := 1
  bitsPerCell := 3
  planeBits := 1
  maxBad := 40
  endurance := 3000
  rates := [0]

/-- The report of a card with the record: chip enable 0 of every channel answers, the first copy of its page is damaged, and every
channel can be trained. -/
def report (b : List Byte) : CardReport :=
  ⟨some b, (List.range 8).map fun ch => ⟨ch, 0, true, [none, some page]⟩, List.range 8, []⟩

/-- Hypotheses of Cards: each state of a slot, records that pass and fail, sets to patrol and to reclaim. -/
theorem witness_Cards :
    ((disk.card 0).present = true ∧ (live.card 0).present = false ∧ disk.awake = true ∧ disk.modes.powerFail = false ∧
      (disk.card 0).serves = true ∧ disk.mmio .a = true ∧ (disk.latch .a 0 .bar0).write = none ∧ disk.mmio .b = false) ∧
    (∀ n ∈ [1, 2, 4, 5, 6], ((slot0 fun c => { c with state := n }).card 0).state = n) ∧
    (((slot0 fun c => { c with state := 1, tries := 1 }).card 0).tries + 1 < 3 ∧ 2 ≤ ((slot0 fun c => { c with tries := 2 }).card 0).tries) ∧
    Raises (live.admitCard (report (zeros 512))) ∧
    (∃ x ∈ (flash fun f => { f with sets := [{ sset 0 .host with members := [{ member0 with lost := true }] }] }).flash.sets,
      ∃ m ∈ x.members, m.slot = 0 ∧ m.lost = true) ∧
    (disk.regaining 0 = false ∧
      (flash fun f => { f with sets := [{ sset 0 .host with members := [{ member0 with lost := true }] }] }).regaining 0 = true) ∧
    (disk.set? 0 = some (sset 0 .host) ∧ (∃ m ∈ (sset 0 .host).members, m.slot = 0 ∧ m.lost = false) ∧ (disk.retrySteps 0 + 1) / 2 = 4) ∧
    (let x := { sset 0 .host with closed := true, gcMark := true }
     let s := flash fun f => { f with sets := [x], rows := [] }
     s.modes.running = true ∧ s.gcVictim 0 = some x ∧ s.set? 0 = some x ∧ s.validOf 0 ≠ [] ∧ s.gcVictim 1 = none) := by
  repeat' with_reducible apply And.intro
  all_goals with_reducible first | apply raises_of | skip
  all_goals decide +kernel

/-- The rest of the hypotheses of Cards: a record that passes every check, and one whose CRC is wrong. -/
theorem witness_Cards_records :
    Gives (live.admitCard (report (idRecord ++ crcBytes idRecord))) (fun r => r.2 == 0) ∧
    (let b := idRecord ++ leBytes 4 (~~~(crc32c idRecord)).toNat
     b.length = 512 ∧ fieldLe b 0 4 = 0x44434B56 ∧ fieldLe b 4 2 = 1 ∧ fieldLe b 6 2 = 512 ∧ crcOk b 508 = false) := by
  have n : idRecord.length = 508 := by decide +kernel
  constructor
  · have h : crcOk (idRecord ++ crcBytes idRecord) 508 = true := by
      unfold crcBytes
      rw [crcOk_append _ _ _ n, beq_self_eq_true]
    unfold State.admitCard report
    dsimp only
    rw [h]
    exact gives_of (by decide +kernel)
  · refine ⟨by decide +kernel, by decide +kernel, by decide +kernel, by decide +kernel, ?_⟩
    rw [crcOk_append _ _ _ n]
    generalize crc32c idRecord = x
    rw [Bool.eq_false_iff]
    intro e
    have := congrArg (fun y : BitVec 32 => y.getLsbD 0) (eq_of_beq e)
    simp at this

/-! ## Programs and jobs -/

/-- A program image of one instruction. -/
def image : List Byte :=
  let h := fields 60 [(0, 4, 0x47504B56), (4, 2, 1), (8, 4, 2), (20, 4, 1024), (28, 4, 0xFFFFFFFF)]
  h ++ crcBytes (h ++ [4, 0]) ++ [4, 0]

/-- A job descriptor with one object input. -/
def descriptor : List Byte :=
  fields 160 [(0, 4, 9), (4, 4, 4), (12, 2, 1), (16, 2, 256), (20, 4, 1), (24, 4, 1), (128, 1, 1), (136, 16, 2)]

/-- The device with a program loaded under handle 4. -/
def loaded : State := { disk with tenants := [(1, { disk.tenant 1 with programs := [(0, job.prog)] })] }

/-- The device with the job, changed by `f`, and Crumb 0 changed by `g`. -/
def run (f : Job → Job := id) (g : Crumb → Crumb := id) : State := { loaded with jobs := [f job], crumbs := [(0, g crumb)] }

/-- Hypotheses of JobCommands: an image that is valid and one that is not, a program that is loaded; a descriptor of the wrong length,
one that is not valid and one that is accepted; a job that is there and one that is not. -/
theorem witness_JobCommands :
    (let c := cmd (pkt 0x70) 1 image
     Turn (sent c disk) 1 0x70 c ∧ imageOk image = true ∧ (sent c disk).slotRetained 1 (fieldLe image 6 1) = false ∧ imageOk [] = false) ∧
    (let c := cmd (pkt 0x71 [(24, 4, 4)])
     Turn (sent c loaded) 1 0x71 c ∧ ((sent c loaded).tenant 1).programs.find? (fun p => p.2.handle == 4) = some (0, job.prog) ∧
       ∀ p ∈ (disk.tenant 1).programs, p.2.handle ≠ 4) ∧
    (let c := cmd (pkt 0x72) 1 descriptor
     let s := sent c loaded
     let d := jobDesc descriptor
     Turn s 1 0x72 c ∧ descLenOk [] = false ∧ descLenOk descriptor = true ∧ s.submitCheck c d descriptor = none ∧
       s.anyHeld (s.bankOf 1).toList = false ∧ bitOf d.flags 1 = false ∧ bitOf d.flags 4 = false ∧ libParamsOk d = true ∧
       s.jobs.length < 262144 ∧
       (∀ i ∈ d.inputs, i.container = 1 ∧ i.oid = 2 ∧ i.versionSel = 0) ∧
       Gives (s.resolve 1 1 2 0) (fun v => s.versionKeyed v 0 v.length) ∧
       descLenOk (zeros 128) = true ∧ s.descOk 1 (jobDesc (zeros 128)) (zeros 128) = false) ∧
    (let c := cmd (pkt 0x73 [(24, 4, 3)])
     Turn (sent c run) 1 0x73 c ∧ (sent c run).jobById 1 3 = some job ∧ (sent c disk).jobById 1 3 = none) ∧
    (let c := cmd (pkt 0x74 [(24, 4, 3)])
     Turn (sent c run) 1 0x74 c ∧ (sent c run).job? job.slot = some job ∧ JobRuns (sent c run) job.slot) := by
  repeat' with_reducible apply And.intro
  all_goals with_reducible first | apply turn_of | apply jobRuns_of | apply gives_of | skip
  all_goals decide +kernel

/-- An entry in the deque of a Crumb. -/
def idle (f : Crumb → Crumb := id) : State := run id fun k => f { k with st := .idle, run := none, deque := [slice] }

/-- A job with one slice of its object to issue. -/
def jobObject : Job := { job with slices := [(0, 0, 64)], desc := { job.desc with inputs := [⟨1, 2, 0, 0, 0, 4, 64, some ver⟩] } }

/-- A job over LBA 5 of a namespace. -/
def jobLba : Job := { job with desc := { job.desc with inputKind := 1, inputs := [⟨1, 0, 0, 5, 1, 0, 0, none⟩] } }

/-- Hypotheses of JobSlices: each stage of a slice, with what holds it up. -/
theorem witness_JobSlices :
    run.awake = true ∧
    (let s := run fun j => { j with st := .loading }
     There (s.job? 0) (fun j => s.poolPlace j.batch j.poolNeed == some 0 && !j.allDone) ∧ s.freeSlot = some 0 ∧
       (s.buf? (tableBuf 0)).all (fun b => b.left == 0 && b.coded.isNone) = true ∧
       ({ s with bufs := [⟨tableBuf 0, slice, 0, [], 1, false, false, none⟩] }.buf? (tableBuf 0)).any
         (fun (b : SliceBuf) => b.left != 0 || b.coded.isSome) = true) ∧
    (let s := { run with jobs := [jobObject] }
     s.job? 0 = some jobObject ∧ (jobObject.desc.inputs[0]?).bind JobInput.pin = some ver ∧ s.versionKeyed ver 0 64 = true ∧
       ver.group = none ∧ s.sliceReady jobObject = true ∧ s.sliceTurn jobObject = true ∧ s.sliceReady job = false ∧
       { s with jobs := [jobObject, { jobObject with slot := 1, runSlot := 7 }], prf := { s.prf with turn := 5 } }.sliceTurn jobObject = false ∧
       (let s := { s with keys := live.keys }
        s.versionKeyed ver 0 64 = false ∧ s.sliceReady jobObject = true ∧ JobRuns s 0)) ∧
    (let s := { run with jobs := [jobLba] }
     s.sliceReady jobLba = true ∧ s.sliceTurn jobLba = true ∧ jobLba.slices = [] ∧ There (s.ns? 1 1) (fun n =>
       s.keyedFor 1 ((lbaMapped n ⟨1, 0, 0, 5, 1, 0, 0, none⟩ 0 (s.lbaEnd n ⟨1, 0, 0, 5, 1, 0, 0, none⟩ 0 (256 * 1024))).flatMap MapEntry.sectors)) ∧
       (let s := { s with tenants := live.tenants }
        s.sliceReady jobLba = true ∧ s.sliceTurn jobLba = true ∧ s.ns? 1 1 = none ∧ JobRuns s 0)) ∧
    (let s := { run with bufs := [⟨0, slice, 0, [], 0, false, false, none⟩] }
     There (s.buf? 0) fun b => b.left == 0 && b.coded.isNone && !b.pushed) ∧
    (There (idle.ownEntry 0) (fun e => e.1 == slice) ∧ idle.job? slice.job = some job ∧ job.slot = slice.job ∧ job.desc.program < 2 ^ 31 ∧
      (idle.crumb 0).st = .idle ∧ (idle.crumb 0).lastTenant = slice.tenant) ∧
    (((run id fun k => { k with st := .scrubbing }).crumb 0).run = some slice ∧
      (run id fun k => { k with st := .scrubbing }).job? slice.job = some job) ∧
    (let s := { idle with jobs := [{ job with partials := [[], []], desc := { job.desc with reduceOp := 6 } }] }
     There (s.job? 0) (fun j => decide (2 ≤ j.partials.length) && s.reduceCrumb 0 j) ∧ s.reducing 0 = false) ∧
    (let s := { idle with crumbs := [(0, { Crumb.init with st := .idle }), (1, { crumb with deque := [slice, slice] })] }
     s.ownEntry 0 = none ∧ (s.crumb 0).asleep = false ∧ s.findVictim 0 = some (0, 1)) ∧
    (let s := { idle with crumbs := [(0, { Crumb.init with st := .idle })] }
     s.ownEntry 0 = none ∧ (s.crumb 0).asleep = false ∧ s.findVictim 0 = none) ∧
    (let k := { crumb with lastTenant := 2, deque := [slice] }
     k.online = true ∧ k.lastTenant ≠ 0 ∧ k.deque.find? (fun e => e.tenant != k.lastTenant) = some slice) ∧
    (let s := run (fun j => { j with desc := { j.desc with budget := 5 } }) fun k => { k with core := { k.core with icount := 5 } }
     There (s.job? slice.job) (fun j => !bitOf j.desc.flags 3) ∧ s.spent (.crumb 0) = true ∧ ((s.crumb 0).core).inUnit = false ∧
       (s.crumb 0).reducing = false ∧ (s.crumb 0).retiring = false ∧
       JobRuns s slice.job ∧ bitOf 8 3 = true ∧ run.spent (.crumb 0) = false) := by
  repeat' with_reducible apply And.intro
  all_goals with_reducible first | apply jobRuns_of | apply there_of | skip
  all_goals decide +kernel

/-- Hypotheses of JobEnds: a job that runs, one of a stopped tenant, one in Quiesce, one that finishes; and each state of a Crumb. -/
theorem witness_JobEnds :
    (run.job? 0 = some job ∧ JobRuns run 0 ∧ NoGroupWork run ∧
      ({ run with tenants := [(1, { Tenant.init with state := .stopped })] }.tenant 1).state = .stopped ∧
      { run with modes := { run.modes with mode := .quiesce } }.modes.mode = .quiesce ∧ (run.tenant 1).state ≠ .stopped) ∧
    (let c := { cmd (pkt 0x72) with launched := true }
     let s := sent c (run fun j => { j with st := .finishing, ending := some (1, .ok), desc := { j.desc with summaryAddr := 0x40 } })
     There (s.job? 0) (fun j => j.st == .finishing && j.ending.isSome && j.cancelWait.isEmpty) ∧ s.cmd? job.tag = some c ∧ Live s c ∧
       (∀ x ∈ s.cmds, x.tag = job.tag → x = c) ∧ s.usable job.port job.tenant = true ∧ s.awake = true ∧ NoGroupWork s) ∧
    (run.mmio .a = true ∧ (run.latch .a 0 .bar0).write = none ∧ (run.crumb 0).st = .running ∧ (idle.crumb 0).st = .idle ∧
      ((idle fun k => { k with st := .recovering }).crumb 0).st = .recovering ∧
      ((idle fun k => { k with st := .retired }).crumb 0).st = .retired) := by
  repeat' with_reducible apply And.intro
  all_goals with_reducible first | apply live_of | apply jobRuns_of | apply there_of | apply noGroupWork_of | skip
  all_goals decide +kernel

/-! ## Digest engines, Rollers, the Sieve, package memory -/

/-- A message of engine 0 that belongs to command 1. -/
def msg (total fed : Nat) (resident busy : Bool) (o : MsgOwner := .direct 1) : DigestMsg where
  id := 0
  owner := o
  engine := 0
  resident := resident
  busy := busy
  idleSince := 0
  fed := fed
  total := total
  sinceGrant := 0
  sinceCheck := 0

/-- The device with engine 0 in a state and messages. -/
def dig (ms : List DigestMsg) (st : Nat := 1) (s : State := disk) : State :=
  { s with digests := { s.digests with engines := [(0, ⟨st, 0⟩)], msgs := ms, nextMsg := 5 } }

/-- The engines of a device grant a context to a new message at once. -/
abbrev Grants (s : State) (x : Nat) : Prop :=
  s.waiters x = [] ∧ (s.engine x).st = 1 ∧ ((s.resident x).length < 64 ∨ (s.idlest x).isSome = true)

/-- Hypotheses of DigestEngines: messages whole and empty, with a context and without, segments of a stream, keyed without a key, raw;
each stage of a message and of an engine. -/
theorem witness_DigestEngines :
    (∀ m ∈ (dig [msg 65 0 true true]).digests.msgs, m.resident = true → m.asks = true → ∃ k h, m.owner = .crumb k h) ∧
    (let c := cmd (pkt 0x90 (aux := 1 + 16 + 32)) 1 [1, 2, 3]
     let s := sent c (dig [])
     Turn s 1 0x90 c ∧ c.pkt.direct.first = true ∧ c.pkt.direct.last = true ∧ s.ctxAllowed c.fn = true ∧ s.hmacOk c = true ∧
       c.pkt.direct.hm = false ∧ s.usable c.port c.fn = true ∧ c.data ≠ [] ∧ (∀ m ∈ s.digests.msgs, m.id ≠ s.digests.nextMsg) ∧
       Grants s s.chooseEngine ∧ ¬Grants (dig [] 0) (dig [] 0).chooseEngine ∧
       Turn (sent (cmd (pkt 0x90 (aux := 1 + 16 + 32))) (dig [] 0)) 1 0x90 (cmd (pkt 0x90 (aux := 1 + 16 + 32))) ∧
       (pkt 0x90 (aux := 1 + 16)).direct.last = false) ∧
    (let c := cmd (pkt 0x90 (aux := 1) (stream := 0x40001)) 1 [1, 2, 3]
     let m := msg 65 65 false false (.stream 0x40001)
     let s := sent c (dig [m])
     let x := { cmd (pkt 0x90 (aux := 1) (stream := 0x40001)) with tag := 0 }
     Turn s 1 0x90 c ∧ c.pkt.direct.first = false ∧ s.segmentBefore c = false ∧ s.hmacOk c = true ∧ c.data ≠ [] ∧
       s.streamMsg c.pkt.stream = some m ∧ s.msg? m.id = some m ∧ { s with cmds := [x, c] }.segmentBefore c = true) ∧
    (let c := cmd (pkt 0x90 (aux := 1 + 8 + 16 + 32))
     Turn (sent c (dig [] 1 { disk with keys := live.keys })) 1 0x90 c ∧ c.pkt.direct.hm = true ∧ c.pkt.direct.first = true ∧
       ((sent c (dig [] 1 { disk with keys := live.keys })).tenantKey c.fn c.pkt.direct.key 1).isNone = true ∧
       (dig [] 1 { disk with keys := live.keys }).ctxAllowed 1 = true) ∧
    (let c := cmd (pkt 0xFD (aux := 1)) 0 (zeros 257)
     Turn (sent c (dig [])) 1 0xFD c ∧ (dig []).ctxAllowed 0 = true ∧ zeroAt c.data (stateLen 1) (256 - stateLen 1) = true ∧
       256 < c.data.length ∧ zeroAt (zeros 255 ++ [1]) (stateLen 1) (256 - stateLen 1) = false) ∧
    (let c := { cmd (pkt 0x90 (aux := 1 + 16 + 32)) 1 (zeros 65) with launched := true }
     let s (fed : Nat) := sent c (dig [msg 65 fed true true])
     (s 0).msg? 0 = some (msg 65 0 true true) ∧ (s 0).msgCmd (msg 65 0 true true) = some c ∧ c.want = .nothing ∧
       0 + min ((s 0).msgBlock (msg 65 0 true true)) (65 - 0) < 65 ∧
       64 + min ((s 64).msgBlock (msg 65 64 true true)) (65 - 64) = 65 ∧ (s 64).cmd? 1 = some c ∧ Live (s 64) c ∧
       c.pkt.direct.last = true ∧ c.pkt.direct.hm = false) ∧
    (let c := { cmd (pkt 0x90 (aux := 1 + 16 + 32)) 1 (zeros 65) with launched := true }
     let s := sent c (dig [msg 65 0 false true])
     s.waiters 0 = msg 65 0 false true :: [] ∧ (s.engine 0).st = 1 ∧ (s.resident 0).length < 64 ∧ s.msg? 0 = some (msg 65 0 false true) ∧
       (msg 65 0 false true).waits = true ∧ s.msgCmd (msg 65 0 false true) = some c ∧ Live s c ∧ s.cmd? c.tag = some c) ∧
    (let c := { cmd (pkt 0x90 (aux := 1 + 16 + 32)) with launched := true }
     let m := { msg 0 0 false false with asks := true }
     let s := sent c (dig [m])
     s.waiters 0 = m :: [] ∧ s.msg? 0 = some m ∧ m.fed = m.total ∧ s.cmd? 1 = some c ∧ Live s c ∧ c.data = []) ∧
    (let m := { msg 0 0 false false (.crumb (.crumb 0) 1) with asks := true }
     (dig [m]).msg? 0 = some m ∧ m.waits = true ∧ ∀ d ∈ ((dig [m]).core (.crumb 0)).digests, d.handle ≠ 1) ∧
    (let m := { msg 65 0 true true with sinceGrant := 2 ^ 26 }
     let s := dig [m, { msg 65 0 false true with id := 1 }]
     s.msg? 0 = some m ∧ s.waiters 0 ≠ [] ∧ s.regBits .dgCfg 0 23 16 * 1024 ≤ m.sinceGrant) ∧
    (let m := { msg 300000 262144 true true (.stream 0x40001) with sinceCheck := 262144 }
     (dig [m]).msg? 0 = some m ∧ 262144 ≤ m.sinceCheck ∧ (dig [m]).stream? 1 0x40001 = some wstream) ∧
    (∀ n ∈ [1, 2, 3], ((dig [] n).engine 0).st = n) ∧ (dig []).mmio .a = true := by
  repeat' with_reducible apply And.intro
  all_goals with_reducible first | apply turn_of | apply live_of | skip
  all_goals first | decide +kernel | (intro m hm h1 h2; simp [dig, msg] at hm; simp [hm] at h2)

/-- A Roller descriptor: a block of zeros from 0x40_0000_1000, bucket or block to 0x40_0000_3000, its code at 0x40_0000_0000. -/
def rdesc (kind target blocks : Nat) : List Byte :=
  fields 64 [(0, 1, kind), (1, 1, target), (4, 2, blocks), (8, 8, 0x4000001000), (16, 8, 0x4000003000), (40, 8, 0x4000000000)]

/-- A job of it in the ring of pair 0. -/
def rjob (kind target blocks : Nat) : RollerJob := newRollerJob (rollerDesc (rdesc kind target blocks)) 0

/-- Pair 0 with both halves idle and one job; the code in memory is 3, stored as it is. -/
def roll (j : RollerJob) (code : Byte := 3) : State := { disk with
  rollers := [(0, { RollerPair.init with stC := .idle, stD := .idle, ring := [(0, j)] }), (1, { RollerPair.init with stC := .idle })]
  mem := { disk.mem with bytes := [(jobBase, code)] } }

/-- A job of command 1 that codes or decodes one block. -/
def ownjob (kind target : Nat) (x : Nat × List Byte) : RollerJob :=
  { rjob kind target 1 with owner := .direct 1, input := [x] }

/-- Hypotheses of Rollers: descriptors in range and out of range, blocks to code, in their places and behind one another, and one to
decode, one whose code is bad, the last block of a job, a job to steal from, one that waits for output, and each state of a half. -/
theorem witness_Rollers :
    (rollerDescOk (rdesc 1 1 2) = true ∧ rollerDescOk (rdesc 1 5 2) = false ∧ (disk.roller 0).half true ≠ .retired ∧
      (disk.roller 0).freeEntry = some 0 ∧ disk.awake = true ∧ disk.rolls.waits = [] ∧
      ({ RollerPair.init with ring := (List.range 64).map fun i => (i, rjob 1 1 2) }).freeEntry = none) ∧
    (let s := roll (rjob 1 1 2)
     s.halfOn 0 true = true ∧ (s.roller 0).oldest true = some (0, rjob 1 1 2) ∧ (s.roller 0).ring.look 0 = some (rjob 1 1 2) ∧
       (rjob 1 1 2).owner = .firmware ∧ (rjob 1 1 2).desc.layout ≠ 1 ∧ (rjob 1 1 2).finished + 1 ≠ (rjob 1 1 2).desc.blocks ∧
       (rjob 1 1 1).finished + 1 = (rjob 1 1 1).desc.blocks ∧
       (s.memRead ((rjob 1 1 2).desc.inAddr + 4096 * 0) 4096).poison = false ∧ (s.roller 0).hasWork true = true) ∧
    (let d := rollerDesc (rdesc 1 1 2)
     let j := newRollerJob { d with layout := 1, outLen := 8192 } 0
     let s := roll j
     (s.roller 0).oldest true = some (0, j) ∧ j.desc.layout = 1 ∧ j.finished + 1 ≠ j.desc.blocks ∧ j.used + 4096 ≤ j.bufLen) ∧
    (let j := { ownjob 1 1 (3, []) with desc := { (ownjob 1 1 (3, [])).desc with blocks := 2 } }
     let s := roll j
     (s.roller 0).oldest true = some (0, j) ∧ j.owner ≠ .firmware ∧ j.finished + 1 ≠ j.desc.blocks) ∧
    (let s := roll (rjob 2 0 2)
     let m := s.memRead (rjob 2 0 2).desc.mapAddr 1
     s.halfOn 0 false = true ∧ (s.roller 0).oldest false = some (0, rjob 2 0 2) ∧ (rjob 2 0 2).desc.layout ≠ 1 ∧ m.poison = false ∧
       leNat m.bytes = 3 ∧ (m.st.memRead (rjob 2 0 2).desc.inAddr (bucketKib 3 * 1024)).poison = false ∧
       Gives (decodeBlock 3 (m.st.memRead (rjob 2 0 2).desc.inAddr (bucketKib 3 * 1024)).bytes)) ∧
    (let s := roll (rjob 2 0 2) 0
     Raises (decodeBlock 0 (s.memRead (rjob 2 0 2).desc.inAddr (bucketKib 0 * 1024)).bytes)) ∧
    (let s := roll (rjob 1 1 2)
     s.halfOn 1 true = true ∧ (s.roller 1).hasWork true = false ∧ s.rollerVictim 1 = some (0, 1) ∧
       greatestBy ((s.roller 0).ring.filter fun e => e.2.stealable && decide (e.2.unstarted > 0)) (fun e => e.2.order) =
         some (0, rjob 1 1 2) ∧ max ((rjob 1 1 2).todo.length / 2) (if s.halfOn 0 true then 0 else 1) ≠ 0) ∧
    ((roll { rjob 1 1 2 with waiting := true }).rjob? 0 = some { rjob 1 1 2 with waiting := true } ∧ disk.mmio .a = true ∧
      (disk.latch .a 0 .bar0).write = none) ∧
    (∀ x ∈ [HalfState.recovering, .retired], ({ RollerPair.init with stC := x, stD := x }).half true = x) := by
  repeat' with_reducible apply And.intro
  all_goals with_reducible first | apply gives_of | apply raises_of | skip
  all_goals decide +kernel

/-- A coded stream of one block in a bucket of 1 KiB, with `v` in the place of its CRC. -/
def streamWith (v : BitVec 32) : List Byte :=
  fields 12 [(0, 4, 0x4C524B56), (4, 1, 1), (5, 1, 1), (6, 2, 1), (8, 4, 1024)] ++ leBytes 4 v.toNat ++ zeros 64 ++ zeros 1024

/-- The words its CRC covers. -/
def streamHead : List Byte := fields 12 [(0, 4, 0x4C524B56), (4, 1, 1), (5, 1, 1), (6, 2, 1), (8, 4, 1024)] ++ zeros 64

theorem streamOk_streamWith (v : BitVec 32) : streamOk (streamWith v) = (v == crc32c streamHead) := by
  have e : ∀ x : List Byte, x.length = 12 → fieldLe (x ++ leBytes 4 v.toNat ++ zeros 64 ++ zeros 1024) 12 4 = v.toNat := by
    intro x h
    unfold Machine.fieldLe
    rw [List.append_assoc, List.append_assoc, ← h, List.drop_left, List.take_left' (by simp [leBytes_length]), leNat_leBytes]
    exact Nat.mod_eq_of_lt v.isLt
  have e0 : fieldLe (streamWith v) 0 4 = 0x4C524B56 :=
    (congrArg leNat (rfl : ((streamWith v).drop 0).take 4 = ((streamWith 0).drop 0).take 4)).trans
      (by decide +kernel : leNat (((streamWith 0).drop 0).take 4) = _)
  have e4 : fieldLe (streamWith v) 4 1 = 1 :=
    (congrArg leNat (rfl : ((streamWith v).drop 4).take 1 = ((streamWith 0).drop 4).take 1)).trans
      (by decide +kernel : leNat (((streamWith 0).drop 4).take 1) = _)
  have e5 : fieldLe (streamWith v) 5 1 = 1 :=
    (congrArg leNat (rfl : ((streamWith v).drop 5).take 1 = ((streamWith 0).drop 5).take 1)).trans
      (by decide +kernel : leNat (((streamWith 0).drop 5).take 1) = _)
  have e6 : fieldLe (streamWith v) 6 2 = 1 :=
    (congrArg leNat (rfl : ((streamWith v).drop 6).take 2 = ((streamWith 0).drop 6).take 2)).trans
      (by decide +kernel : leNat (((streamWith 0).drop 6).take 2) = _)
  have e8 : fieldLe (streamWith v) 8 4 = 1024 :=
    (congrArg leNat (rfl : ((streamWith v).drop 8).take 4 = ((streamWith 0).drop 8).take 4)).trans
      (by decide +kernel : leNat (((streamWith 0).drop 8).take 4) = _)
  have e16 : fieldLe (streamWith v) 16 64 = 0 :=
    (congrArg leNat (rfl : ((streamWith v).drop 16).take 64 = ((streamWith 0).drop 16).take 64)).trans
      (by decide +kernel : leNat (((streamWith 0).drop 16).take 64) = _)
  have el : (streamWith v).length = 1104 := by
    have e1 : (fields 12 [(0, 4, 0x4C524B56), (4, 1, 1), (5, 1, 1), (6, 2, 1), (8, 4, 1024)]).length = 12 := by decide +kernel
    simp only [streamWith, List.length_append, e1, leBytes_length, zeros, List.length_replicate]
  have e12 : fieldLe (streamWith v) 12 4 = v.toNat := e _ (by decide +kernel)
  have eh : (streamWith v).take 12 ++ ((streamWith v).drop 16).take 64 = streamHead := rfl
  unfold streamOk
  rw [e0, e4, e5, e6, e8, e12, e16, el, eh]
  have em : mapCodes 0 1 = [0] := rfl
  have hk : bucketKib 0 = 1 := rfl
  rw [Bool.eq_iff_iff]
  simp [em, hk, ← BitVec.toNat_inj]

/-- The stream with its CRC. -/
def stream : List Byte := streamWith (crc32c streamHead)

/-- Commands whose payload is a block or more: their turn does not read it. -/
theorem turn_code (d : List Byte) : Turn (sent (cmd (pkt 0x91 [(36, 1, 4)]) 1 d) disk) 1 0x91 (cmd (pkt 0x91 [(36, 1, 4)]) 1 d) :=
  turn_of' rfl rfl

theorem turn_decode (d : List Byte) :
    Turn (sent (cmd (pkt 0x92 [(32, 4, 4096)]) 1 d) disk) 1 0x92 (cmd (pkt 0x92 [(32, 4, 4096)]) 1 d) :=
  turn_of' rfl rfl

/-- The rest of the hypotheses of Rollers: blocks to code, a stream that passes the checks and one that does not; the last block of a
job that codes and of one that decodes, for a command, a slice buffer and a read; one that does not decode. -/
theorem witness_Rollers_direct :
    (let c := cmd (pkt 0x91 [(36, 1, 4)]) 1 (zeros 4096)
     Turn (sent c disk) 1 0x91 c) ∧
    (let c := cmd (pkt 0x92 [(32, 4, 4096)]) 1 stream
     Turn (sent c disk) 1 0x92 c ∧ streamOk stream = true ∧ streamOk [] = false ∧ 4096 * fieldLe stream 6 2 ≤ c.pkt.fld 32 4 ∧
       4095 < 4096 * fieldLe stream 6 2) ∧
    ((zeros 4096).length = 4096 ∧ ∀ d : List Byte,
      let c := { cmd (pkt 0x91 [(36, 1, 4)]) with launched := true }
      let j := ownjob 1 1 (3, d)
      let s := sent c (roll j)
      s.rolls.waits = [] ∧ (s.roller 0).ring.look 0 = some j ∧ s.cmd? 1 = some c ∧ Live s c ∧ s.usable c.port c.fn = true ∧
        s.halfOn 0 true = true ∧ (s.roller 0).oldest true = some (0, j) ∧ j.finished + 1 = j.desc.blocks ∧ j.input = [(3, d)] ∧
        j.desc.target = 1) ∧
    ((∀ d : List Byte,
        let j := ownjob 2 0 (3, d)
        let s := roll j
        s.halfOn 0 false = true ∧ (s.roller 0).oldest false = some (0, j) ∧ (j.input.getD j.next (3, [])) = (3, d) ∧
          j.finished + 1 = j.desc.blocks) ∧ (rjob 2 0 2).finished + 1 ≠ (rjob 2 0 2).desc.blocks ∧
      Gives (decodeBlock 3 (zeros 4096)) ∧ Raises (decodeBlock 0 (zeros 1024))) ∧
    (let j := { ownjob 2 0 (3, []) with owner := .slice 0 }
     let s := { roll j with bufs := [⟨0, slice, 0, [], 0, false, false, none⟩] }
     (s.roller 0).oldest false = some (0, j) ∧ (s.buf? 0).isSome = true) ∧
    (let j := { ownjob 2 0 (3, []) with owner := .read 1 0 }
     ((roll j).roller 0).oldest false = some (0, j)) := by
  refine ⟨turn_code (zeros 4096), ⟨turn_decode stream, ?_, ?_⟩, ⟨List.length_replicate, fun d => ?_⟩, ⟨fun d => ?_, ?_⟩, ?_⟩
  · exact (streamOk_streamWith _).trans (by simp)
  · decide +kernel
  · exact ⟨rfl, rfl, rfl, ⟨rfl, rfl⟩, rfl, rfl, rfl, rfl, rfl, rfl⟩
  · exact ⟨rfl, rfl, rfl, rfl⟩
  · exact ⟨by decide +kernel, gives_of (by decide +kernel), raises_of (by decide +kernel)⟩
  · decide +kernel

/-- A tenant's entry that cares for no data byte, as its 64 bytes. -/
def entry : List Byte := fields 64 [(46, 2, 7), (48, 8, 9)]

/-- The device with a private region of two places and an entry in the first. -/
def sieve (n : Nat := 1) : State := { disk with
  tenants := [(1, { disk.tenant 1 with region := (0, 2), active := { Settings.init with sieve := BitVec.ofNat 64 n } })]
  banks := [(2, { Bank.init 2 with entries := [(0, tenantEntry 1 entry)] })] }

/-- An entry of SIEVE_ADMIN for bank 0. -/
def aentry : List Byte := (leBytes 40 (2 ^ 317)) ++ leBytes 40 (7 * 2 ^ 317) ++ zeros 16

/-- Hypotheses of SieveCommands: entries that are valid and that are not, a region with room and one that is full, places in use and
free, keys that match and that do not; banks held and not. -/
theorem witness_SieveCommands :
    ((sieve).anyHeld (sieve).privBanks = false ∧ 0 + 2 ≤ (sieve).privCap ∧ tenantEntryOk entry = true ∧ tenantEntryOk [] = false ∧
      bitsOf ((sieve).tenant 1).active.sieve.toNat 16 0 ≤ ((sieve).privUsed 1).length ∧
      ((sieve 2).privUsed 1).length < bitsOf ((sieve 2).tenant 1).active.sieve.toNat 16 0 ∧ (sieve).privEntry 1 = none ∧
      (∀ y < 1, ((sieve).privEntry (0 + y)).isSome = true) ∧ (sieve).tenantIndex 1 2 = none) ∧
    (let c := cmd (pkt 0xA0) 1 entry
     Turn (sent c sieve) 1 0xA0 c) ∧
    (let c := cmd (pkt 0xA1)
     Turn (sent c sieve) 1 0xA1 c ∧ c.pkt.fld 24 4 < ((sieve).tenant 1).region.2) ∧
    Turn (sent (cmd (pkt 0xA3)) sieve) 1 0xA3 (cmd (pkt 0xA3)) ∧
    (let c := cmd (pkt 0xA2)
     Turn (sent c sieve) 1 0xA2 c ∧ There ((sieve).privLookup (sieveKey (c.pkt.body.take 38) 1 3)) ∧
       (sieve).privLookup (sieveKey (c.pkt.body.take 38) 2 3) = none) ∧
    (let c := cmd (pkt 0xFF [(28, 4, 65535)]) 0 aentry
     Turn (sent c disk) 1 0xFF c ∧ (disk.bank 0).held = false ∧ (disk.bank 0).use ≠ 0 ∧ (disk.bank 0).use ≠ 3 ∧
       adminEntryOk (disk.bank 0).use.toNat c.data = true ∧ adminEntryOk 2 c.data = false ∧ (disk.bank 0).longest = false ∧
       (disk.bank 1).longest = true ∧ (disk.bank 0).entries.look 65535 = none ∧ (disk.bank 1).entries.length < 61440 ∧
       (disk.bank 2).use = 3) ∧
    (let s := { disk with banks := [(0, { Bank.init 0 with entries := [(0, adminEntry aentry)] })] }
     ((s.bank 0).entries.look 0).isSome = true ∧ There ((s.bank 0).winner (BitVec.ofNat 320 (2 ^ 317))) ∧ (s.bank 0).winner 0 = none) ∧
    ({ disk with banks := [(0, { Bank.init 0 with held := true })] }.bank 0).held = true ∧
    ((sieve).runFree 1 100 2 = true ∧ ((sieve).tenant 1).region.2 ≠ 0) := by
  repeat' with_reducible apply And.intro
  all_goals with_reducible first | apply turn_of | apply there_of | skip
  all_goals decide +kernel

/-- The device with one controller. -/
def memory (f : MemCtrl → MemCtrl) (err : AMap (BitVec 32) := []) : State := { live with
  mem := { live.mem with ctrls := [(0, f { MemCtrl.init with st := 1 })], err := err } }

/-- A request for the first block of job memory. -/
def req (write : Bool) (mask : BitVec 32) : MemReq := ⟨5, 0, write, jobBase / 32, mask, 7⟩

/-- Hypotheses of PackageMemory: requests that are served, refresh with requests and without, a line that merges, each class of a
scrub, pages to retire and to copy. -/
theorem witness_PackageMemory :
    (live.mem.bytes.wf = true ∧ (live.ctrl 0).st = 0 ∧ ((memory id).ctrl 0).st = 1 ∧ ((memory id).ctrl 0).queue = [] ∧
      ctrlOf 0 (jobBase / 32 * 32) = 0 ∧ ownReq 0 (req true (BitVec.allOnes 32)) = true ∧ ((memory id).ctrl 0).merge = [] ∧
      (memory id).regionOf 0 ((memory id).remapped 0 (jobBase / 32 * 32)) = 2 ∧
      (memory id).mem.cls ((memory id).blockNo 0 (jobBase / 32 * 32)) = .clean ∧ live.hk.step = 0 ∧ live.mem.moved = [] ∧
      { live.hk with step := 1 }.step ≠ 0 ∧ (req true 0).id ∉ ((memory id).ctrl 0).held ∧
      (req true 0).id ∈ ((memory fun k => { k with held := [5] }).ctrl 0).held) ∧
    (let s := memory fun k => { k with queue := [req false 0], aged := [5] }
     (∃ r ∈ (s.ctrl 0).queue, r.id = 5 ∧ r.id ∉ (s.ctrl 0).held) ∧ s.regBits .memRef 0 30 28 ≤ s.reqLevel (s.ctrl 0) (req false 0) ∧
       (s.ctrl 0).debt < s.postponeLimit (s.ctrl 0) ∧ s.postponeLimit (s.ctrl 0) ≤ 8) ∧
    5 ∉ ((memory fun k => { k with queue := [req false 0] }).ctrl 0).aged ∧
    (let s := memory fun k => { k with merge := [⟨jobBase / 32, 1, 7⟩] }
     (s.ctrl 0).merge.find? (fun e => e.block == jobBase / 32) = some ⟨jobBase / 32, 1, 7⟩ ∧ s.lineLost 0 (jobBase / 32 * 32) = false) ∧
    (36 * 2 ^ 30 - 32 < 36 * 2 ^ 30 ∧ (memory id).mem.cls 0 = .clean ∧ (memory id [(0, 0x00010001)]).mem.cls 0 = .dataBit 0 ∧
      (memory id [(0, 0x00010000)]).mem.cls 0 = .checkBit ∧ ctrlOf 0 0 = 0) ∧
    (live.mmio .a = true ∧ (live.latch .a 0 .bar0).write = none ∧ (live.remapEntry 0 4095).st = 0 ∧
      ∀ e ∈ live.remapUsed 0, e.2.new ≠ 9437183) ∧
    (let s := { memory id with mem := { (memory id).mem with remap := [(4095, ⟨1, 8790527, 8790528⟩)] } }
     s.remapEntry 0 4095 = ⟨1, 8790527, 8790528⟩ ∧ (∀ x ∈ s.mem.remap, x.1 / 4096 = 0 → x.2.st ≠ 2) ∧
       ∀ i < 128, (s.ctrl (ctrlOf 0 (8790527 * 4096 + 32 * i))).st ≠ 2 ∧ (s.ctrl (ctrlOf 0 (8790527 * 4096 + 32 * i))).merge = [] ∧
         s.mem.cls (0 * 2 ^ 35 + 8790527 * 128 + i) = .clean) := by
  repeat' with_reducible apply And.intro
  all_goals decide +kernel

/-- Hypotheses of RefreshReturns: the visit of stack 0, doubled, one degree below the threshold. -/
theorem witness_RefreshReturns :
    let s := { memory (fun k => { k with double := true, debt := 3 }) with
      hk := { live.hk with next := 72 }
      mem := { live.mem with memStacks := [(0, ⟨1, 0, 0, 90, true⟩)] } }
    s.housekeeps = true ∧ s.hk.next = 72 ∧ (s.stack 0).st = 1 ∧ (s.stack 0).double = true ∧
      (79 : Int) < (s.regBits .memRef 0 23 16 : Int) - (s.regBits .memRef 0 27 24 : Int) := by
  repeat' with_reducible apply And.intro
  all_goals decide +kernel

/-! ## Functions, containers, host ports, firmware, modes -/

/-- The device with its tenant changed. -/
def tn (f : Tenant → Tenant) (s : State := disk) : State := { s with tenants := [(1, f (s.tenant 1))] }

/-- FN_CONTROL for tenant 1. -/
def control (op : Nat) (port : Nat := 2) : Cmd := cmd (pkt 0xF0 [(24, 2, 1), (26, 1, op), (27, 1, port)] (aux := 1)) 0

/-- The turn of each FN_CONTROL, in each state of the tenant. -/
theorem turn_control (op port : Nat) (x : TenantState) :
    Turn (sent (control op port) (tn fun t => { t with state := x })) 1 0xF0 (control op port) := turn_of' rfl rfl

/-- Hypotheses of FunctionControl, with turn_control: a tenant in each state, with settings that hold and settings that do not, and commands that a drain
and a reset wait for. -/
theorem witness_FunctionControl :
    (let s (op : Nat) (x : TenantState) := sent (control op) (tn fun t => { t with state := x })
     (∀ op < 6, ∀ x ∈ [TenantState.disabled, .running, .stopped],
       (control op).fn = 0 ∧ (control op).pkt.fld 24 2 = 1 ∧ (control op).pkt.fld 26 1 = op ∧ ((s op x).tenant 1).state = x ∧
       ((s op x).tenant 1).stopWait = none ∧ ((s op x).tenant 1).resetWait = none ∧ (s op x).held = [] ∧
       ((s op x).cmds.map Cmd.tag).Nodup ∧ (∀ q ∈ (s op x).qps, q.deleting = none) ∧ (s op x).commits = [] ∧ (s op x).firon.shipped = []) ∧
     (∀ e ∈ (s 1 .disabled).settingsOk 1, e.2 = true) ∧
     ((tn fun t => { t with shadow := { t.shadow with ctx := 0 } }).settingsOk 1 |>.any (fun e => !e.2)) = true ∧
     (s 1 .disabled).anyHeld (s 1 .disabled).privBanks = false ∧
     (let h := { sent (control 1) (sieve) with banks := [(2, { Bank.init 2 with held := true })] }
      h.anyHeld h.privBanks = true)) ∧
    ((control 5).pkt.fld 27 1 = 2 ∧ bitOf (control 5).pkt.aux 0 = true ∧ (control 5 0).pkt.fld 27 1 = portNum .a ∧
     (let y := { cmd (pkt 0x20) with tag := 2, started := false }
      let s := { disk with cmds := [control 5, y] }
      y ∈ s.cmds ∧ y.fn = 1 ∧ Live s y ∧ s.canSend .a 1 = true)) ∧
    (let s (l : List Cmd) := { tn fun t => { t with state := .stopped, stopWait := some 1 } with cmds := control 3 :: l }
     (s []).cmd? 1 = some (control 3) ∧ Live (s []) (control 3) ∧ ((s []).tenant 1).stopWait = some 1 ∧
       (∀ y ∈ (s []).cmds, y.fn = 1 → y.started = true → y.pkt.opcode = 0x06) ∧
       ∃ y ∈ (s [cmd (pkt 0x20)]).cmds, y.fn = 1 ∧ y.started = true ∧ y.pkt.opcode ≠ 0x06) ∧
    (let s (l : List Cmd) := { tn fun t => { t with resetWait := some 1 } with
        cmds := control 5 :: l, fns := [(fpKey .a 1, { disk.fp .a 1 with resetting := true })] }
     (s []).cmd? 1 = some (control 5) ∧ Live (s []) (control 5) ∧ ((s []).fp .a 1).resetting = true ∧ ((s []).fp .b 1).resetting = false ∧
       ((s []).tenant 1).resetWait = some 1 ∧ (∀ y ∈ (s []).cmds, y.fn = 1 → y.port = .a → y.doomed = false) ∧
       ∃ y ∈ (s [{ cmd (pkt 0x20) with doomed := true }]).cmds, y.fn = 1 ∧ y.port = .a ∧ y.doomed = true) := by
  repeat' with_reducible apply And.intro
  all_goals with_reducible first | apply live_of | skip
  all_goals decide +kernel

/-- A command of function 0 about container `k` of tenant 1. -/
def made (op k aux size : Nat) : Cmd := cmd (pkt op [(24, 2, 1), (26, 1, k), (32, 8, size)] (aux := aux)) 0

/-- The device with container 1 a block namespace of 1,000 blocks or an object space. -/
def spaces : State := { disk with tenants := [(1, { disk.tenant 1 with spaces := [(1, ⟨true, 0, 0, 4, false⟩)], nss := [(2, ⟨1000, [], []⟩)] })] }

/-- Hypotheses of ContainersAndDirtyLog: containers that are there and that are not, sizes that fit and that do not; a log that is on
and one that is off. -/
theorem witness_ContainersAndDirtyLog :
    (let c := made 0xF1 1 0 9
     Turn (sent c spaces) 1 0xF1 c ∧ c.fn = 0 ∧ bitOf c.pkt.aux 0 = false ∧ bitOf (made 0xF1 1 1 9).pkt.aux 0 = true ∧
       (spaces.space? 1 1).isSome = true ∧ spaces.space? 1 2 = none) ∧
    (let c := made 0xF2 1 0 0
     let s := sent c spaces
     Turn s 1 0xF2 c ∧ (∀ r ∈ s.records, r.durable = true) ∧ s.commits = [] ∧ NoGroupWork s ∧
       (∀ x ∈ { s with ctxs := [] }.ctxs, ∀ w, x.kind = .write w → x.tenant = 1 → w.space = 1 → w.state ≠ .committing) ∧
       EmptyRow s (s.nextCommit % 4) .metadata true) ∧
    (let c := made 0xF3 2 1 2000
     let s := sent c spaces
     Turn s 1 0xF3 c ∧ bitOf c.pkt.aux 0 = true ∧ (s.ns? 1 2).isSome = true ∧ 1000 ≤ c.pkt.fld 32 8 ∧
       s.nsBlocks - 1000 + 2000 ≤ 7812500000 ∧ 7812500000 < s.nsBlocks - 1000 + 2 ^ 40 ∧ s.ns? 1 3 = none) ∧
    (let c := made 0xF4 2 0 0
     Turn (sent c spaces) 1 0xF4 c) ∧
    (let c := made 0xF9 20 0 0x100000
     Turn (sent c spaces) 1 0xF9 c ∧ c.pkt.fld 24 2 ≠ 0 ∧ (∀ y ∈ (sent c spaces).cmds, y.fn ≠ 1) ∧ c.pkt.aux = 0 ∧
       (made 0xF9 20 1 0).pkt.aux = 1 ∧ (made 0xF9 20 2 0).pkt.aux = 2 ∧ (spaces.tenant 1).dlog.on = false ∧
       (let s := tn fun t => { t with dlog := { t.dlog with on := true } }
        (s.tenant 1).dlog.on = true ∧ s.dlogHeld (s.tenant 1).dlog = false ∧
          { s with held := [⟨0, .a, .hostWrite .a 0 0 (zeros 8), none⟩] }.dlogHeld (s.tenant 1).dlog = true)) := by
  repeat' with_reducible apply And.intro
  all_goals with_reducible first | apply turn_of | apply emptyRow_of | apply noGroupWork_of | skip
  all_goals first | decide +kernel | (intro x hx; cases hx)

/-- Hypotheses of HostPortEvents: a port that is up and one that is down, with functions on it and something held. -/
theorem witness_HostPortEvents :
    (live.cfgReach .a = true ∧ 1 ≤ (live.hp .a).enabledVfs ∧ (live.hp .a).enabledVfs < 4096 ∧ live.awake = true ∧ (live.hp .a).up = true ∧
      (live.hp .a).perst = false ∧ (live.hp .b).up = false ∧ live.usable .a 1 = true ∧ live.usable .b 1 = false) ∧
    ((1 = 0 ∨ ((live.hp .a).bus = (live.hp .a).bus ∧ 1 ≤ (live.hp .a).enabledVfs)) ∧
      ¬(4096 = 0 ∨ (9 = (live.hp .a).bus ∧ 4096 ≤ (live.hp .a).enabledVfs))) ∧
    (let s := { live with modes := { live.modes with mode := .discovery } }
     s.cfgReach .a = false ∧ (s.hp .a).up = true) ∧
    ((live.tenant 1).dlog.on = false ∧ (live.fp .a 1).pci.atsOn = false) ∧
    (let s := { live with hostA := { live.hostA with up := false }, held := [⟨1, .a, .hostWrite .a 1 0 [], none⟩] }
     s.mayTrain .a 8 = true ∧ (s.hp .a).up = false ∧ s.usable .a 1 = true ∧
       ∀ h ∈ s.held, h.fn = 1 ∧ h.port = .a ∧ h.vector = none ∧ h.out = .hostWrite .a 1 0 []) := by
  repeat' with_reducible apply And.intro
  all_goals decide +kernel

/-- An empty configuration image. -/
def config : List Byte :=
  let h := fields 32 [(0, 4, 0x46434B56), (4, 2, 1), (8, 4, 40)]
  h ++ crcBytes h ++ zeros 4

/-- FW_DOWNLOAD of a chunk. -/
def chunk (target off total : Nat) (b : List Byte) : Cmd := cmd (pkt 0xF5 [(24, 1, target), (28, 4, off), (32, 4, total)]) 0 b

/-- The device with a firmware image pending that an activation waits for. -/
def pend (switched : Bool) (op : List SpiOp := []) (c : Cmd := { cmd (pkt 0xF6) 0 with ref := 2 }) : State := { disk with
  cmds := [c]
  cfg := { disk.cfg with fwPending := some ⟨2, 1, 0, 0⟩ }
  boot := { disk.boot with ops := op, selA := some ⟨1, 1⟩ }
  modes := { disk.modes with mode := .quiesce, quiesceFw := true, fwSwitched := switched, fwWait := some 1 } }

/-- Hypotheses of FirmwareAndBootFlash: a first chunk, one that goes on and one that does not; images that pass and that fail; each
write of the boot flash at its end. That a firmware image passes rests on the part's fuses, which no test can see. -/
theorem witness_FirmwareAndBootFlash :
    (let c := chunk 0 0 9 [1]
     Turn (sent c disk) 1 0xF5 c ∧ Calm (sent c disk) ∧ c.pkt.fld 28 4 = 0 ∧ c.data.length < c.pkt.fld 32 4 ∧ c.pkt.fld 24 1 = 0 ∧
       Raises (disk.fwCheck [1]) ∧ (chunk 0 0 1 [1]).pkt.fld 32 4 ≤ 1) ∧
    (let c := chunk 1 39 40 [0]
     let s := { sent c disk with cfg := { disk.cfg with download := ⟨true, 1, 40, config.take 39, 0⟩ } }
     let d := s.cfg.download
     Turn s 1 0xF5 c ∧ Calm s ∧ c.pkt.fld 28 4 ≠ 0 ∧ d.active = true ∧ d.target = c.pkt.fld 24 1 ∧ d.total = c.pkt.fld 32 4 ∧
       d.bytes.length = c.pkt.fld 28 4 ∧ Gives (cfgCheck (d.bytes ++ c.data)) ∧ Raises (cfgCheck [1]) ∧
       disk.cfg.download.active = false) ∧
    (let c := cmd (pkt 0xF6) 0
     let s := { sent c disk with cfg := { disk.cfg with fwPending := some ⟨2, 1, 0, 0⟩ } }
     Turn s 1 0xF6 c ∧ Calm s ∧ s.modes.fwWait = none ∧ s.modes.running = true ∧ s.modes.powerFail = false ∧ s.modes.mode ≠ .quiesce ∧
       disk.cfg.fwPending = none ∧ (pend true).modes.fwWait ≠ none) ∧
    (let c := { cmd (pkt 0xF6) 0 with ref := 2 }
     let s := pend true
     Calm s ∧ s.modes.fwSwitched = true ∧ s.modes.fwWait = some 1 ∧ s.cmd? 1 = some c ∧ s.cfg.fwPending = some ⟨2, 1, 0, 0⟩ ∧ Live s c ∧
       c.pkt.opcode = 0xF6 ∧ 1 ∉ s.modes.maintWait ∧ s.boot.ops = [] ∧ s.boot.named = c.fwSlot ∧ disk.boot.named ≠ c.fwSlot ∧
       SpiOp.bootSel ⟨0, 1⟩ ∈ (pend true [.bootSel ⟨0, 1⟩]).boot.ops ∧ (pend false).modes.fwSwitched = false) ∧
    (∀ o ∈ [SpiOp.cfgB [] 1, .cfgA [] 1, .keyRecord ⟨0, false, []⟩ (some 1), .bootSel ⟨0, 1⟩, .perm ⟨1, 0x0112, 0, 0, [], 0, 0⟩,
       .parkRecord ⟨1, 1⟩], (pend true [o]).boot.ops = [o]) ∧
    (let c := { cmd (pkt 0xF6) 0 with ref := 2 }
     (pend true).cmd? 1 = some c ∧ Live (pend true) c ∧ c.pkt.opcode ≠ 0xFC) := by
  repeat' with_reducible apply And.intro
  all_goals with_reducible first | apply turn_of | apply live_of | apply calm_of | apply gives_of | apply raises_of | skip
  all_goals decide +kernel

/-- The same for an image that passes on the part in hand. -/
theorem witness_FirmwareAndBootFlash_image (b : List Byte) (i : FwInfo) (h : disk.fwCheck b = .ok i) :
    let c := chunk 0 0 0 b
    Turn (sent c disk) 1 0xF5 c ∧ Calm (sent c disk) ∧ c.pkt.fld 28 4 = 0 ∧ c.pkt.fld 32 4 ≤ c.data.length ∧ c.pkt.fld 24 1 = 0 ∧
      (sent c disk).fwCheck ([] ++ c.data) = .ok i :=
  ⟨turn_of' rfl rfl, ⟨by simp [sent], fun q hq => (by decide +kernel : ∀ q ∈ disk.qps, q.deleting = none) q hq⟩, rfl, Nat.zero_le _, rfl, h⟩

/-- The turn of each MODE_REQUEST. -/
theorem turn_request (op : Nat) : Turn (sent (cmd (pkt 0xF7 [(24, 1, op)]) 0)) 1 0xF7 (cmd (pkt 0xF7 [(24, 1, op)]) 0) := turn_of' rfl rfl

/-- Hypotheses of ModeRequests, with turn_request: each mode that a request meets, and what waits for the drain. -/
theorem witness_ModeRequests :
    (Calm live ∧ live.modes.running = true ∧ live.modes.powerFail = false ∧ live.mmio .a = true ∧ (live.latch .a 0 .bar0).write = none ∧
      live.modes.mode.takesQuiesce = true) ∧
    (let s (f : Modes → Modes) (l : List Cmd := []) := { live with cmds := l, modes := f { live.modes with mode := .quiesce, quiesceReq := true } }
     let c (op : Nat) := { cmd (pkt op [(24, 1, 1)]) 0 with launched := true, ref := 2 }
     (s id).modes.mode = .quiesce ∧ (s id).modes.mode.takesQuiesce = false ∧ (s id).modes.quiesceMaint = false ∧
       (s id).modes.quiesceFw = false ∧ (s id).modes.drained = false ∧ (∀ x ∈ (s id).cmds, (s id).holdsDrain x = false) ∧
       (s id).modes.quiesceWait = [] ∧ (s id).modes.maintWait = [] ∧ (s id).modes.fwWait = none ∧
       (∃ x ∈ (s id [cmd (pkt 0x20)]).cmds, (s id [cmd (pkt 0x20)]).holdsDrain x = true) ∧
       (let t := s (fun m => { m with quiesceWait := [1] }) [c 0xF7]
        t.cmd? 1 = some (c 0xF7) ∧ Live t (c 0xF7) ∧ Calm t ∧ ∀ x ∈ t.cmds, t.holdsDrain x = false) ∧
       (let t := s (fun m => { m with quiesceReq := false, quiesceMaint := true, maintWait := [1] }) [c 0xF7]
        t.cmd? 1 = some (c 0xF7) ∧ Live t (c 0xF7) ∧ t.modes.quiesceFw = false ∧ (c 0xF7).pkt.opcode = 0xF7 ∧
          ∀ x ∈ t.cmds, t.holdsDrain x = false) ∧
       (let t := s (fun m => { m with quiesceReq := false, quiesceFw := true, fwWait := some 1 }) [c 0xF6]
        t.cmd? 1 = some (c 0xF6) ∧ t.modes.fwSwitched = false ∧ t.modes.quiesceMaint = false ∧ ∀ x ∈ t.cmds, t.holdsDrain x = false)) ∧
    (∀ op < 5, (cmd (pkt 0xF7 [(24, 1, op)]) 0).pkt.fld 24 1 = op) ∧
    (live.modes.maint = false ∧ live.modes.mode ≠ .quiesce) ∧
    (let s := { live with modes := { live.modes with mode := .maintenance, maint := true } }
     s.modes.maint = true ∧ s.modes.mode = .maintenance ∧ s.modes.maintWait = []) := by
  repeat' with_reducible apply And.intro
  all_goals with_reducible first | apply live_of | apply calm_of | skip
  all_goals decide +kernel

/-! ## Frames of Firon Link -/

theorem sha256_length (m : List Byte) : (sha256 m).length = 32 := by
  have hb : ∀ n v, (beBytes n v).length = n := fun n v => by simp [beBytes, leBytes_length]
  have hr : ∀ (v : List (BitVec 32)) kw, v.length = 8 → (shaRound sha256Shape v kw).length = 8 := by
    intro v kw h
    unfold shaRound
    split
    · rfl
    · exact h
  have hf : ∀ (l : List (BitVec 32 × BitVec 32)) (v : List (BitVec 32)), v.length = 8 → (l.foldl (shaRound sha256Shape) v).length = 8 := by
    intro l
    induction l with
    | nil => exact fun _ h => h
    | cons a l ih => exact fun v h => ih _ (hr v a h)
  have hbk : ∀ (hv blk : List (BitVec 32)), hv.length = 8 → (shaBlock sha256Shape hv blk).length = 8 := by
    intro hv blk h
    unfold shaBlock
    simp only [List.length_map, List.length_zip, h, hf _ hv h, Nat.min_self]
  have hg : ∀ (l : List (List Byte)) (hv : List (BitVec 32)), hv.length = 8 →
      (l.foldl (fun hv blk => shaBlock sha256Shape hv ((chunks (32 / 8) blk).map fun b => BitVec.ofNat 32 (beNat b))) hv).length = 8 := by
    intro l
    induction l with
    | nil => exact fun _ h => h
    | cons a l ih => exact fun v h => ih _ (hbk v _ h)
  have hx : ∀ l : List (BitVec 32), (l.flatMap fun x => beBytes (32 / 8) x.toNat).length = 4 * l.length := by
    intro l
    induction l with
    | nil => rfl
    | cons a l ih => rw [List.flatMap_cons, List.length_append, ih, hb, List.length_cons]; omega
  unfold sha256 sha2
  refine (hx _).trans ?_
  rw [hg _ _ (by simp [primes80])]

/-- The group key of the tests. -/
def gkey : List Byte := zeros 32

/-- The tag of a frame's bytes. -/
def tagOf (b : List Byte) : List Byte := (hmacSha256 gkey b).take 16

/-- A frame's header: a type, from member 1 in session `z` to member 0 in session 6 of Group 7, a payload length, a sequence number. -/
def head (type z len1 len0 seq : Byte) : List Byte :=
  [1, type, 0, 1, 0, 0, len1, len0, 0, 0, 0, 7, 0, 0, 0, 0, 0, 0, 0, 0, 0, 0, 0, z, 0, 0, 0, 0, 0, 0, 0, 6] ++
  [0, 0, 0, 0, 0, 0, 0, seq, 0, 0, 0, 0, 0, 0, 0, 0]

/-- The MAC header of an untagged IPv6 frame. -/
def macHead : List Byte := zeros 12 ++ [0x86, 0xDD]

/-- The IPv6 header, between addresses of zeros, of a datagram of a length. -/
def ipHead (len : Nat) : List Byte := [0x60, 0, 0, 0, BitVec.ofNat 8 (len / 256), BitVec.ofNat 8 len, 17, 64] ++ zeros 32

/-- A frame that carries a payload of UDP to port 9. -/
def wire (b : List Byte) : RxFrame := ⟨0, true, macHead, ipHead (8 + b.length), udpHeader 0 9 (ipHead (8 + b.length)) b, b⟩

/-- A frame with its tag. -/
def frame (type : Byte) (payload : List Byte) (n : Nat := 40) (seq : Byte := 1) (z : Byte := 5) : RxFrame :=
  let b := head type z (BitVec.ofNat 8 (n / 256)) (BitVec.ofNat 8 n) seq ++ payload
  wire (b ++ tagOf b)

/-- Its header as it is received. -/
def rx (type : Byte) (payload : List Byte) (n : Nat := 40) (seq : Byte := 1) (z : Byte := 5) : Rx :=
  ⟨type.toNat, 0, 1, 0, n, 7, BitVec.ofNat 64 z.toNat, 6, seq.toNat, 0, payload⟩

theorem tagOf_length (b : List Byte) : (tagOf b).length = 16 := by
  unfold tagOf hmacSha256 hmac
  rw [List.length_take, sha256_length]
  rfl

theorem frame_length (type : Byte) (payload : List Byte) (n : Nat) (seq z : Byte) (hl : payload.length = n) :
    (frame type payload n seq z).bytes.length = n + 64 := by
  simp only [frame, wire, List.length_append, tagOf_length, hl]
  show 48 + n + 16 = n + 64
  omega

theorem beNat_one (x : Byte) : beNat [x] = x.toNat := by
  simp [beNat, leNat]

theorem beNat_two (x y : Byte) : beNat [x, y] = y.toNat + 256 * x.toNat := by
  simp [beNat, leNat]

theorem beBytes_two (v : Nat) : beBytes 2 v = [BitVec.ofNat 8 (v / 256), BitVec.ofNat 8 v] := rfl

theorem sum16_append (b : List Byte) : ∀ a : List Byte, a.length % 2 = 0 → sum16 (a ++ b) = sum16 a + sum16 b
  | [], _ => by simp [sum16]
  | [_], h => by simp at h
  | x :: y :: r, h => by
    have := sum16_append b r (by simp only [List.length_cons] at h; omega)
    simp only [List.cons_append, sum16, this]
    omega

/-- What is sent with `udpHeader` passes the UDP checks. -/
theorem udpFine_header (ip b : List Byte) (eth : Fin 4) (ok : Bool) (mac : List Byte) (hb : 8 + b.length < 65536) :
    udpFine ⟨eth, ok, mac, ip, udpHeader 0 9 ip b, b⟩ = true := by
  have hm := Nat.mod_lt (udpSum ip (beBytes 2 0 ++ beBytes 2 9 ++ beBytes 2 (8 + b.length)) b) (by decide : 0 < 65535)
  generalize hx : 65535 - udpSum ip (beBytes 2 0 ++ beBytes 2 9 ++ beBytes 2 (8 + b.length)) b % 65535 = x
  have hs : udpHeader 0 9 ip b = beBytes 2 0 ++ beBytes 2 9 ++ beBytes 2 (8 + b.length) ++ beBytes 2 x := by rw [← hx]; rfl
  have e4 : fieldBe (udpHeader 0 9 ip b) 4 2 = 8 + b.length := by
    rw [hs]
    exact (beNat_two _ _).trans (by simp only [BitVec.toNat_ofNat]; omega)
  have e6 : fieldBe (udpHeader 0 9 ip b) 6 2 = x := by
    rw [hs]
    exact (beNat_two _ _).trans (by simp only [BitVec.toNat_ofNat]; omega)
  have el : (udpHeader 0 9 ip b).length = 8 := by rw [hs]; rfl
  have es : udpSum ip (udpHeader 0 9 ip b) b = udpSum ip (beBytes 2 0 ++ beBytes 2 9 ++ beBytes 2 (8 + b.length)) b + x := by
    have ex : sum16 (beBytes 2 x) = x := by
      simp only [beBytes_two, sum16, BitVec.toNat_ofNat]
      omega
    rw [hs]
    unfold udpSum
    rw [sum16_append (beBytes 2 x) (beBytes 2 0 ++ beBytes 2 9 ++ beBytes 2 (8 + b.length)) (rfl : 6 % 2 = 0), ex]
    omega
  unfold udpFine
  simp only [e4, e6, el, es]
  simp only [beq_self_eq_true, Bool.true_and, Bool.and_eq_true, bne_iff_ne, beq_iff_eq]
  omega

/-- A frame of the tests passes the MAC, IPv6 and UDP checks where no VLAN is set. -/
theorem wireFine_wire {s : State} {b : List Byte} (hv : bitOf s.firon.selfCfg.vlan 15 = false) (hb : b.length ≤ 9146) :
    s.wireFine (wire b) = true := by
  have em : macFine s.firon.selfCfg.vlan (wire b) = true := by
    have l : (wire b).udp.length = 8 := rfl
    have l2 : (wire b).ip.length = 40 := rfl
    have l3 : (wire b).mac.length = 14 := rfl
    have l4 : (wire b).bytes = b := rfl
    have l5 : fieldBe (wire b).mac 12 2 = 0x86DD := (by decide +kernel : fieldBe macHead 12 2 = 0x86DD)
    have l6 : (wire b).fcsOk = true := rfl
    unfold macFine
    rw [hv, l, l2, l3, l4, l5, l6]
    simp
    omega
  have ei : ipFine (wire b) = true := by
    have e0 : fieldBe (wire b).ip 0 1 = 0x60 := beNat_one 0x60
    have e4 : fieldBe (wire b).ip 4 2 = 8 + b.length := (beNat_two _ _).trans (by simp only [BitVec.toNat_ofNat]; omega)
    have e6 : fieldBe (wire b).ip 6 1 = 17 := beNat_one 17
    have l2 : (wire b).ip.length = 40 := rfl
    have l4 : (wire b).bytes = b := rfl
    unfold ipFine
    rw [e0, e4, e6, l2, l4]
    simp
  have eu : udpFine (wire b) = true := udpFine_header _ b _ _ _ (by omega)
  unfold State.wireFine
  rw [em, ei, eu]
  rfl

theorem beNat_zeros (x : Byte) : beNat [0, 0, 0, 0, 0, 0, 0, x] = x.toNat := by
  simp [beNat, leNat]

theorem rxHeader_frame (type : Byte) (payload : List Byte) (n : Nat) (seq z : Byte) (hl : payload.length = n) (hn : n < 65536) :
    rxHeader (frame type payload n seq z) = rx type payload n seq z := by
  have hp : (((frame type payload n seq z).bytes.drop 48).take n) = payload := by
    have e : (frame type payload n seq z).bytes.drop 48 =
        payload ++ tagOf (head type z (BitVec.ofNat 8 (n / 256)) (BitVec.ofNat 8 n) seq ++ payload) := rfl
    rw [e, ← hl, List.take_left]
  unfold rxHeader rx
  simp only [frame_length type payload n seq z hl, Nat.add_sub_cancel, hp]
  have e1 : fieldBe (frame type payload n seq z).bytes 1 1 = type.toNat := beNat_one type
  have e2 : fieldBe (frame type payload n seq z).bytes 2 1 = 0 := beNat_one 0
  have e3 : fieldBe (frame type payload n seq z).bytes 3 1 = 1 := beNat_one 1
  have e4 : fieldBe (frame type payload n seq z).bytes 4 1 = 0 := beNat_one 0
  have e6 : fieldBe (frame type payload n seq z).bytes 6 2 = n :=
    (beNat_two _ _).trans (by simp only [BitVec.toNat_ofNat]; omega)
  have e8 : fieldBe (frame type payload n seq z).bytes 8 4 = 7 := (by decide +kernel : beNat [0, 0, 0, 7] = 7)
  have e16 : fieldBe (frame type payload n seq z).bytes 16 8 = z.toNat := beNat_zeros z
  have e24 : fieldBe (frame type payload n seq z).bytes 24 8 = 6 := beNat_zeros 6
  have e32 : fieldBe (frame type payload n seq z).bytes 32 8 = seq.toNat := beNat_zeros seq
  have e40 : fieldBe (frame type payload n seq z).bytes 40 8 = 0 := beNat_zeros 0
  rw [e1, e2, e3, e4, e6, e8, e16, e24, e32, e40]
  rfl

/-- What the checks after the tag say of a header. -/
def sessionCheck (s : State) (h : Rx) : RxResult :=
  let p := s.peer h.src
  let toMe := h.dstSession == s.firon.session || (h.type == 1 && h.dstSession == 0)
  if p.st = 0 ∨ p.st = 3 then .failed 8
  else if !toMe || (h.type != 1 && h.srcSession != p.session) then .failed 6
  else if reliable h.type && (decide (h.seq ≤ p.ackRcv) || decide (h.seq > p.ackRcv + 4096) || p.rcvd.contains h.seq) then .failed 7
  else .fine h

/-- A frame with a good tag passes every check up to the tag. -/
theorem checkFrame_frame {s : State} {type : Byte} {payload : List Byte} {n : Nat} {seq z : Byte} (hl : payload.length = n)
    (hn : n ≤ 9082) (hk : s.groupKey = some gkey)
    (ha : (decide (s.firon.selfCfg.udpPort = 9) && decide (s.firon.member = 0) && decide (s.firon.selfCfg.groupId = 7) &&
      decide (bitOf s.firon.selfCfg.vlan 15 = false)) = true)
    (hm : s.admission (frame type payload n seq z) = some 1)
    (ht : (frameTypes.contains type.toNat && BitVec.ofNat 64 z.toNat != 0 &&
      if reliable type.toNat then seq.toNat != 0 else seq.toNat == 0) = true)
    (hp : payloadOk type.toNat payload = true) :
    s.checkFrame (frame type payload n seq z) = sessionCheck s (rx type payload n seq z) := by
  simp only [Bool.and_eq_true, decide_eq_true_eq] at ha
  obtain ⟨⟨⟨ha, hme⟩, hgr⟩, hv⟩ := ha
  have hw : s.wireFine (frame type payload n seq z) = true := by
    have hb := frame_length type payload n seq z hl
    unfold frame at hb ⊢
    exact wireFine_wire hv (by simp only [wire] at hb; omega)
  have hport : rxPort (frame type payload n seq z) = 9 := beNat_two 0 9
  have hr : Rx.ranges (rx type payload n seq z) (frame type payload n seq z).bytes s.firon.member s.firon.selfCfg.groupId = true := by
    have e0 : fieldBe (frame type payload n seq z).bytes 0 1 = 1 := beNat_one 1
    have e5 : zeroAt (frame type payload n seq z).bytes 5 1 = true := rfl
    have e12 : zeroAt (frame type payload n seq z).bytes 12 4 = true := rfl
    unfold Rx.ranges
    rw [e0, e5, e12, frame_length _ _ _ _ _ hl, hme, hgr]
    simp only [Bool.and_eq_true] at ht
    obtain ⟨⟨h1, h2⟩, h3⟩ := ht
    simp only [rx, h1, h2, hp, hn, beq_self_eq_true, decide_true, Bool.and_true]
    simp
    exact h3
  have htag : s.tagOk (frame type payload n seq z).bytes = true := by
    have e1 : (frame type payload n seq z).bytes.take ((frame type payload n seq z).bytes.length - 16) =
        head type z (BitVec.ofNat 8 (n / 256)) (BitVec.ofNat 8 n) seq ++ payload := by
      rw [frame_length _ _ _ _ _ hl]
      refine List.take_left' ?_
      rw [List.length_append, hl]
      show 48 + n = n + 64 - 16
      omega
    have e2 : (frame type payload n seq z).bytes.drop ((frame type payload n seq z).bytes.length - 16) =
        tagOf (head type z (BitVec.ofNat 8 (n / 256)) (BitVec.ofNat 8 n) seq ++ payload) := by
      rw [frame_length _ _ _ _ _ hl]
      refine List.drop_left' ?_
      rw [List.length_append, hl]
      show 48 + n = n + 64 - 16
      omega
    unfold State.tagOk
    rw [hk]
    simp only [e1, e2]
    show ((tagOf _ == tagOf _) || _) = true
    rw [beq_self_eq_true, Bool.true_or]
  unfold State.checkFrame
  rw [rxHeader_frame _ _ _ _ _ hl (by omega), hm]
  simp only [hr, htag, hw, hport]
  simp [rx, ha, sessionCheck]

/-- Do the checks after the tag pass? -/
def sessionFine (s : State) (h : Rx) : Bool := match sessionCheck s h with
  | .fine _ => true
  | _ => false

theorem sessionCheck_fine {s : State} {h : Rx} (e : sessionFine s h = true) : sessionCheck s h = .fine h := by
  unfold sessionFine at e
  split at e
  · rename_i x hx
    rw [hx]
    unfold sessionCheck at hx
    simp only at hx
    split at hx
    · cases hx
    · split at hx
      · cases hx
      · split at hx
        · cases hx
        · rw [← RxResult.fine.inj hx]
  · cases e

/-- What a device and a frame of a type must meet, the payload apart. -/
def admits (s : State) (f : RxFrame) (type seq z : Byte) : Bool :=
  decide (s.groupKey = some gkey) && (decide (s.firon.selfCfg.udpPort = 9) && decide (s.firon.member = 0) &&
    decide (s.firon.selfCfg.groupId = 7) && decide (bitOf s.firon.selfCfg.vlan 15 = false)) &&
  decide (s.admission f = some 1) && (frameTypes.contains type.toNat && BitVec.ofNat 64 z.toNat != 0 &&
    if reliable type.toNat then seq.toNat != 0 else seq.toNat == 0)

theorem checkFrame_of {s : State} {type : Byte} {payload : List Byte} {n : Nat} {seq z : Byte} (hl : payload.length = n) (hn : n ≤ 9082)
    (h : admits s (frame type payload n seq z) type seq z = true) (hp : payloadOk type.toNat payload = true) :
    s.checkFrame (frame type payload n seq z) = sessionCheck s (rx type payload n seq z) := by
  unfold admits at h
  obtain ⟨h, h4⟩ := (Bool.and_eq_true _ _ ▸ h : _ ∧ _)
  obtain ⟨h, h3⟩ := (Bool.and_eq_true _ _ ▸ h : _ ∧ _)
  obtain ⟨h1, h2⟩ := (Bool.and_eq_true _ _ ▸ h : _ ∧ _)
  exact checkFrame_frame hl hn (of_decide_eq_true h1) h2 (of_decide_eq_true h3) h4 hp

theorem received_of {s : State} {type : Byte} {payload : List Byte} {n : Nat} {seq z : Byte} (hl : payload.length = n) (hn : n ≤ 9082)
    (h : (s.linkRuns && s.awake && !s.anyHeld (s.bankOf 2).toList && admits s (frame type payload n seq z) type seq z &&
      sessionFine s (rx type payload n seq z)) = true)
    (hp : payloadOk type.toNat payload = true) :
    Received s (frame type payload n seq z) (rx type payload n seq z) type.toNat := by
  simp only [Bool.and_eq_true, Bool.not_eq_true'] at h
  exact ⟨h.1.1.1.1, h.1.1.1.2, by unfold State.frameWaits; rw [h.1.1.2, Bool.and_false],
    (checkFrame_of hl hn h.1.2 hp).trans (sessionCheck_fine h.2), rfl⟩

/-- The device in the Group, with member 1 Up in session 5 and Link 0 up. -/
def grp (f : Firon → Firon := id) (g : Peer → Peer := id) : State := { disk with
  keys := { disk.keys with device := [(1, ⟨3, gkey⟩)] }
  banks := [(1, { Bank.init 1 with entries := [(0, ⟨0, 0, 0, 3⟩)] })]
  firon := f { disk.firon with
    enabled := true, selfCfg := { GroupSelf.reset with groupId := 7, udpPort := 9 }, session := 6
    peers := [(1, g { Peer.init with st := 1, session := 5 })], links := [(0, true)] } }

/-- A payload of 40 zeros. -/
def pay : List Byte := zeros 40

/-- A frame that fails after its headers: its tag is zeros. -/
def bad : RxFrame := wire (head 0x12 5 0 40 1 ++ pay ++ zeros 16)

/-- A heartbeat of member 1 in another session. -/
def reborn : RxFrame := frame 0x01 (zeros 16) 16 0 4

/-- Its header. -/
def rebornRx : Rx := rx 0x01 (zeros 16) 16 0 4

/-- The bank of the lookups of frames is held. -/
def held : State := { grp with banks := [(1, { Bank.init 1 with entries := [(0, ⟨0, 0, 0, 3⟩)], held := true })] }

theorem wireFine_bad {s : State} (h : bitOf s.firon.selfCfg.vlan 15 = false) : s.wireFine bad = true := wireFine_wire h (by decide +kernel)

/-- Hypotheses of FrameChecks: the device asleep, the bank of the lookup held, D1 empty, the link stopped, a frame on another port,
and the checks that fail before the session's. -/
theorem witness_FrameChecks :
    grp.awake = true ∧ disk.groupKey = none ∧ disk.linkRuns = false ∧ grp.frameWaits bad = false ∧
    held.frameWaits bad = true ∧ { grp with modes := { grp.modes with mode := .off } }.awake = false ∧
    grp.wireFine { bad with fcsOk := false } = false ∧
    (grp fun x => { x with selfCfg := { x.selfCfg with udpPort := 8 } }).checkFrame bad = .notFiron ∧
    grp.checkFrame { bad with fcsOk := false } = .failed 1 ∧
    { grp with banks := [] }.checkFrame bad = .failed 2 ∧
    (grp fun x => { x with member := 2 }).checkFrame bad = .failed 3 ∧
    { grp with banks := [(1, { Bank.init 1 with entries := [(0, ⟨0, 0, 0, 5⟩)] })] }.checkFrame bad = .failed 4 ∧
    { grp with keys := disk.keys }.checkFrame bad = .failed 5 := by
  repeat' with_reducible apply And.intro
  all_goals decide +kernel

/-- A frame that is for another port than Firon's passes the checks of its headers. -/
theorem witness_FrameChecks_port :
    let s := grp fun x => { x with selfCfg := { x.selfCfg with udpPort := 8 } }
    s.wireFine bad = true ∧ fieldBe bad.udp 2 2 ≠ s.firon.selfCfg.udpPort :=
  ⟨wireFine_bad (by decide +kernel), by decide +kernel⟩

/-- A frame that passes every check, and frames that fail the last ones. -/
theorem witness_FrameChecks_session :
    grp.checkFrame (frame 0x12 pay) = .fine (rx 0x12 pay) ∧
    (grp fun x => { x with session := 9 }).checkFrame (frame 0x12 pay) = .failed 6 ∧ (rx 0x12 pay).type ≠ 1 ∧
    (grp fun x => { x with session := 9 }).checkFrame reborn = .failed 6 ∧ rebornRx.srcSession ≠ (grp.peer 1).session ∧
    (grp id fun p => { p with ackRcv := 1 }).checkFrame (frame 0x12 pay) = .failed 7 :=
  ⟨(checkFrame_of rfl (by decide) (by decide +kernel) (by decide +kernel)).trans (sessionCheck_fine (by decide +kernel)),
    (checkFrame_of rfl (by decide) (by decide +kernel) (by decide +kernel)).trans (by decide +kernel), by decide +kernel,
    (checkFrame_of rfl (by decide) (by decide +kernel) (by decide +kernel)).trans (by decide +kernel), by decide +kernel,
    (checkFrame_of rfl (by decide) (by decide +kernel) (by decide +kernel)).trans (by decide +kernel)⟩

/-- The heartbeat while the link is stopped. -/
theorem witness_FrameChecks_stopped :
    let s := grp fun x => { x with enabled := false }
    s.linkRuns = false ∧ s.awake = true ∧ s.frameWaits reborn = false ∧ rxHeader reborn = rebornRx ∧
      s.checkFrame reborn = .fine rebornRx ∧ rebornRx.type = 1 :=
  ⟨by decide +kernel, by decide +kernel,
    (congrArg _ (by decide +kernel : (grp fun x => { x with enabled := false }).anyHeld
      ((grp fun x => { x with enabled := false }).bankOf 2).toList = false)).trans (Bool.and_false _),
    rxHeader_frame _ _ _ _ _ rfl (by decide),
    (checkFrame_of rfl (by decide) (by decide +kernel) (by decide +kernel)).trans (sessionCheck_fine (by decide +kernel)), rfl⟩

/-! ## Keys and media -/

/-- A KEY_LOAD command. -/
def kl (op t k wrap n : Nat) (b : List Byte := []) : Cmd :=
  cmd (pkt 0xF8 [(24, 2, t), (26, 1, k), (27, 1, wrap), (28, 2, n)] (aux := op) (len := n + 24)) 0 b

/-- D2 as it is loaded in the clear. -/
def d2 : List Byte := fields 16 [(0, 1, 12), (1, 1, 1), (2, 2, 2), (4, 2, 32)] ++ zeros 32 ++ List.replicate 8 0xA6

/-- Hypotheses of KeyCommands on the packet alone: a body that fails, a mode that does. -/
theorem witness_KeyCommands_packet :
    (kl 0 0 2 0 24).pkt.opcode = 0xF8 ∧ (∃ r ∈ disk.keyRules (kl 0 0 2 0 24).pkt, r.1 = false) ∧ (kl 0 0 2 0 24).pkt.strayByte = none ∧
    (kl 0 0 2 0 32).pkt.keyMaint = true ∧ disk.modes.mode ≠ .maintenance ∧ (kl 0 1 0 1 16).pkt.keyMaint = false ∧
    (kl 2 0 1 0 0).pkt.keyMaint = true := by
  decide +kernel

/-- Hypotheses of KeyCommands: a load that passes and one for each check that fails; erases of a tenant with and without a container. -/
theorem witness_KeyCommands :
    (let c := kl 0 0 2 0 32 d2
     let s := sent c disk
     Turn s 1 0xF8 c ∧ c.pkt.keyOp = 0 ∧ (∀ r ∈ s.keyRules c.pkt, r.1 = true) ∧ c.pkt.keyWrap = 0 ∧
       Gives (s.keyCheck c.pkt c.data) ∧ c.pkt.keyTenant = 0 ∧ s.keyPlain c.pkt (zeros 56) = none ∧
       ∃ r ∈ s.keyRules (kl 0 0 2 0 24).pkt, r.1 = false) ∧
    (let c := kl 0 1 0 1 16 (zeros 40)
     Turn (sent c disk) 1 0xF8 c ∧ (∀ r ∈ disk.keyRules c.pkt, r.1 = true) ∧ c.pkt.keyWrap ≠ 0 ∧
       disk.keys.device.look (if c.pkt.keyWrap = 1 then 0 else 2) = none) ∧
    (let c := kl 1 1 0 0 0
     let s (l : AMap Namespace) := sent c (tn fun t => { t with state := .disabled, spaces := [], nss := l })
     Turn (s []) 1 0xF8 c ∧ c.pkt.keyOp = 1 ∧ c.pkt.keyTenant = 1 ∧ ((s []).tenant 1).state = .disabled ∧
       (((s []).tenant 1).spaces.filter fun e => e.2.live).length + ((s []).tenant 1).nss.length = 0 ∧
       (let u := s [(2, ⟨1000, [], []⟩)]
        ((u.tenant 1).spaces.filter fun e => e.2.live).length + (u.tenant 1).nss.length = 1 ∧
          EmptyRow u (u.nextCommit % 4) .metadata true) ∧
       (disk.tenant 1).state ≠ .disabled) ∧
    (let c := kl 2 0 1 0 0
     Turn (sent c disk) 1 0xF8 c ∧ c.pkt.keyOp = 2 ∧ c.pkt.keyTenant = 0 ∧ c.pkt.keyKey ≤ 1 ∧ NoGroupWork (sent c disk)) := by
  repeat' with_reducible apply And.intro
  all_goals with_reducible first | apply turn_of | apply emptyRow_of | apply noGroupWork_of | apply gives_of | skip
  all_goals decide +kernel

/-- A tenant's HMAC key of 16 bytes with its header, and D1 with its own. -/
def kb (t : Nat) : List Byte := if t = 0 then fields 48 [(0, 1, 2), (1, 1, 1), (2, 2, 1), (4, 2, 32)] else fields 32 [(0, 1, 2), (4, 2, 16)]

/-- The device with D0, and the fingerprint of a tenant key known or not. -/
def keyed (fp : AMap (List Byte)) : State := { disk with keys := { disk.keys with device := [(0, ⟨4, gkey⟩)], fingerprints := fp } }

theorem keyCheck_of {s : State} {p : Packet} {blob b : List Byte} (h1 : ((s.keyRules p).any fun r => !r.1) = false)
    (h2 : (p.keyWrap != 0 && (s.keys.device.look (if p.keyWrap = 1 then 0 else 2)).isSome) = true) (h3 : s.keyPlain p blob = some b)
    (h4 : (keyHeaderOk p b && !bitOf (fieldLe b 0 1) 0) = true)
    (h5 : ∀ f, s.keys.fingerprints.look (keySlot p.keyTenant p.keyKey) = some f → f = fingerprint b) : s.keyCheck p blob = .ok b := by
  simp only [Bool.and_eq_true, bne_iff_ne, ne_eq, Bool.not_eq_true'] at h2 h4
  unfold State.keyCheck
  rw [h1, if_neg (by decide), if_neg, h3]
  · simp only [h4.1, h4.2]
    cases e : s.keys.fingerprints.look (keySlot p.keyTenant p.keyKey) with
    | none => simp
    | some f => simp [h5 f e]
  · rintro ⟨_, x⟩
    rw [Option.isNone_iff_eq_none] at x
    rw [x] at h2
    cases h2.2

/-- The packet of a load of tenant 1's HMAC key. -/
def klp : Packet := (kl 0 1 0 1 16).pkt

/-- The rest of them, for a blob that unwraps to the key: a tenant key whose fingerprint is known and one whose is not. -/
theorem witness_KeyCommands_tenant (blob : List Byte) (h : keyUnwrap gkey blob = some (kb 1)) :
    let c := kl 0 1 0 1 16 blob
    Turn (sent c (keyed [])) 1 0xF8 c ∧ c.pkt = klp ∧ c.data = blob ∧ (keyed []).keyCheck klp blob = .ok (kb 1) ∧
      (keyed [(0, fingerprint (kb 1))]).keyCheck klp blob = .ok (kb 1) ∧ klp.keyTenant ≠ 0 ∧
      (keyed [(0, fingerprint (kb 1))]).keys.fingerprints.has 0 = true ∧ (keyed []).keys.fingerprints.has 0 = false ∧
      keySlot klp.keyTenant klp.keyKey = 0 ∧ EmptyRow (sent c (keyed [])) ((sent c (keyed [])).nextCommit % 4) .metadata true := by
  have he : EmptyRow (keyed []) ((keyed []).nextCommit % 4) .metadata true := emptyRow_of (by decide +kernel)
  have hs : keySlot klp.keyTenant klp.keyKey = 0 := by decide +kernel
  have hp : ∀ fp, (keyed fp).keyPlain klp blob = some (kb 1) := by
    intro fp
    unfold State.keyPlain
    rw [if_neg (by decide +kernel : ¬klp.keyWrap = 0), if_pos (by decide +kernel : klp.keyWrap = 1)]
    exact h
  refine ⟨turn_of' rfl rfl, rfl, rfl, ?_, ?_, by decide +kernel, rfl, rfl, hs, he⟩
  · refine keyCheck_of (by decide +kernel) (by decide +kernel) (hp _) (by decide +kernel) ?_
    rw [hs]
    exact fun f e => by cases (e : none = some f)
  · refine keyCheck_of (by decide +kernel) (by decide +kernel) (hp _) (by decide +kernel) ?_
    rw [hs]
    exact fun f e => (Option.some.inj e).symm

/-- The packet of a load of D1. -/
def klg : Packet := (kl 0 0 1 1 32).pkt

/-- The same for D1, while the previous one is kept. -/
theorem witness_KeyCommands_group (blob : List Byte) (h : keyUnwrap gkey blob = some (kb 0)) :
    let c := kl 0 0 1 1 32 blob
    Turn (sent c (keyed [])) 1 0xF8 c ∧ c.pkt = klg ∧ c.data = blob ∧ (keyed []).keyCheck klg blob = .ok (kb 0) ∧ klg.keyTenant = 0 ∧
      klg.keyKey = 1 ∧ (keyed []).regBits .flCfg 0 31 24 ≠ 0 := by
  refine ⟨turn_of' rfl rfl, rfl, rfl, keyCheck_of (by decide +kernel) (by decide +kernel) ?_ (by decide +kernel) ?_, by decide +kernel,
    by decide +kernel, by decide +kernel⟩
  · unfold State.keyPlain
    rw [if_neg (by decide +kernel : ¬klg.keyWrap = 0), if_pos (by decide +kernel : klg.keyWrap = 1)]
    exact h
  · rw [(by decide +kernel : keySlot klg.keyTenant klg.keyKey = 1)]
    exact fun f e => by cases (e : none = some f)

/-- RAW_MEDIA at an address. -/
def raw (op a : Nat) : Cmd := cmd (pkt 0xFB [(24, 8, a)] (aux := op) (len := 4096)) 0

/-- The place of the sector. -/
def place : Nat := disk.addrOf sector

/-- A SANITIZE token over a nonce of zeros. -/
def token : List Byte := tagOf (sanitizeMessage (zeros 8))

/-- SANITIZE with it. -/
def wipe : Cmd := cmd { pkt 0xFC with body := zeros 8 ++ (token ++ zeros 16) } 0

/-- The device with D2 and a nonce. -/
def wiped (nonce : Reg) : State := sent wipe { disk with
  keys := { disk.keys with device := [(2, ⟨12, gkey⟩)] }, flash := { disk.flash with nonce := nonce } }

/-- The turn of each RAW_MEDIA command. -/
theorem turn_raw (op a : Nat) : Turn (sent (raw op a) disk) 1 0xFB (raw op a) := turn_of' rfl rfl

/-- Hypotheses of MediaCommands, with turn_raw: a slot with no card, an Online and an Offline one; addresses with a sector, with nothing and outside the
geometry, and in a root block; a token that is good, a mode that is not, and Power-Fail. -/
theorem witness_MediaCommands :
    (disk.usable .a 0 = true ∧ (mediaRef (2 ^ 63)).slot = 0 ∧ (disk.card 0).info = some geo ∧ (live.card 0).info = none ∧
      (raw 0 (2 ^ 63)).pkt.fld 24 8 = 2 ^ 63 ∧ (∀ op < 6, (raw op 0).pkt.aux % 8 = op) ∧ (raw 0 0).pkt.fld 32 1 ≤ geo.rrSteps ∧
      disk.modes.powerFail = false ∧ { disk with modes := { disk.modes with powerFail := true } }.modes.powerFail = true ∧
      (mediaRef (2 ^ 63 + 1)).ok (2 ^ 63 + 1) geo true true false = false ∧ (disk.card 0).state = 3 ∧
      (flash fun f => { f with cards := [(0, { online with state := 5 })] }).card 0 = { online with state := 5 } ∧
      (∀ x ∈ [true, false], ∀ y ∈ [true, false], ∀ z ∈ [true, false], (mediaRef (2 ^ 63)).ok (2 ^ 63) geo x y z = true)) ∧
    (let r := mediaRef (2 ^ 63 + 40 * 2 ^ 38)
     r.ok (2 ^ 63 + 40 * 2 ^ 38) geo true true true = true ∧ (disk.card r.slot).state = 3 ∧ disk.rootSector r geo = none ∧
       (let u := flash fun f => { f with roots := [(0, 7)] }
        let q := mediaRef (2 ^ 63)
        q.ok (2 ^ 63) geo true true true = true ∧ u.sectorAt (mediaAddr q.sector q.page q.block q.die q.chan 0) = none ∧
          (u.rootSector q geo).isSome = true) ∧
       disk.sectorAt (mediaAddr r.sector r.page r.block r.die r.chan 0) = none) ∧
    (let r := mediaRef place
     r.ok place geo true true true = true ∧ (disk.card r.slot).state = 3 ∧
       disk.sectorAt (mediaAddr r.sector r.page r.block r.die r.chan 0) = some sector) ∧
    disk.modes.mode ≠ .maintenance ∧ (raw 0 0).pkt.opcode = 0xFB ∧ wipe.pkt.opcode = 0xFC ∧ (wiped 0).keys.device.look 2 = some ⟨12, gkey⟩ ∧
    (let c (n : Nat) := cmd (pkt 0x04 [(24, 8, n)] (aux := 1) (len := 4096)) 0
     Turn (sent (c 0) disk) 1 0x04 (c 0) ∧ (c 1).pkt.fld 24 8 ≠ 0 ∧ disk.usable .a 0 = true) ∧
    Turn (sent (cmd (pkt 0x04 (aux := 1))) disk) 1 0x04 (cmd (pkt 0x04 (aux := 1))) := by
  repeat' with_reducible apply And.intro
  all_goals with_reducible first | apply turn_of | skip
  all_goals decide +kernel

/-- The token passes over the nonce it was made for and over no other. -/
theorem witness_MediaCommands_token :
    Turn (wiped 0) 1 0xFC wipe ∧ leNat (sliceB wipe.pkt.body 0 8) = (wiped 0).flash.nonce.toNat ∧
    (hmacSha256 gkey (sanitizeMessage (sliceB wipe.pkt.body 0 8))).take 16 = sliceB wipe.pkt.body 8 16 ∧
    leNat (sliceB wipe.pkt.body 0 8) ≠ (wiped 5).flash.nonce.toNat := by
  have e0 : sliceB wipe.pkt.body 0 8 = zeros 8 := rfl
  have e8 : sliceB wipe.pkt.body 8 16 = token := by
    unfold sliceB
    have d : wipe.pkt.body.drop 8 = token ++ zeros 16 := List.drop_left' (l₁ := zeros 8) rfl
    have e : (token ++ zeros 16).take 16 = token := List.take_left' (tagOf_length _)
    rw [d, e, token]
    simp only [tagOf_length]
    exact List.append_nil _
  rw [e0, e8]
  exact ⟨turn_of' rfl rfl, by decide +kernel, rfl, by decide +kernel⟩

/-- Hypotheses of FironSessions: a heartbeat of a session that has started, an ACK of one of two frames, timers, votes and links. -/
theorem witness_FironSessions :
    (Received grp reborn rebornRx 0x01 ∧ rebornRx.srcSession ≠ (grp.peer 1).session) ∧
    (let s := grp id fun p => { p with nextSeq := 3, unacked := [⟨1, 0x12, pay, 1⟩, ⟨2, 0x12, pay, 1⟩], sinceAck := 1 }
     let b := fields 80 [(8, 1, 1)]
     Received s (frame 0x02 b 80 0) (rx 0x02 b 80 0) 0x02 ∧ (∀ x ∈ (s.peer 1).unacked, x.seq < (s.peer 1).nextSeq) ∧
       1 ∈ sackSeqs b ∧ 2 ∉ sackSeqs b ∧ s.linkRuns = true ∧ (s.peer 1).unacked.find? (fun x => x.seq == 1) = some ⟨1, 0x12, pay, 1⟩ ∧
       0 < (s.peer 1).sinceAck ∧ s.nextPort 1 = some 0 ∧ (s.peer 2).sinceAck = 0 ∧ s.regBits .flCfg 0 23 20 ≠ 0) ∧
    (∃ l ∈ grp.firon.links, l.2 = true) ∧ (grp.peer 2).st = 0 ∧ Alive grp 1 ∧
    (grp.firon.links.lookD 0 false = true ∧ grp.firon.links.lookD 1 false = false ∧ grp.awake = true ∧
      grp.modes.serdesLock.lookD 2 true = true) := by
  refine ⟨⟨received_of rfl (by decide) (by decide +kernel) (by decide +kernel), by decide +kernel⟩,
    ⟨received_of rfl (by decide) (by decide +kernel) (by decide +kernel), ?_⟩, ?_, ?_, .inl ?_, ?_⟩
  all_goals decide +kernel

/-- The key of a shard of member 1. -/
def skey : List Byte := [1] ++ zeros 31

/-- The payload of a chunk of it. -/
def part (i : Nat) : List Byte := chunkDesc skey i ++ zeros 8192

/-- The shard with some of its chunks. -/
def shd (durable : Bool) (n : Nat) : Shard := ⟨skey, (List.range n).map fun i => (i + 1, []), zeros 160, false, durable, [], .tellOrigin⟩

theorem part_length (i : Nat) : (part i).length = 8256 := by
  have e : skey.length = 32 := rfl
  simp only [part, chunkDesc, List.length_append, leBytes_length, zeros, List.length_replicate, e]

theorem payloadOk_put : payloadOk (0x10#8).toNat (part 31) = true := by
  unfold payloadOk
  rw [part_length]
  decide +kernel

theorem payloadOk_data : payloadOk (0x13#8).toNat (part 31) = true := by
  unfold payloadOk
  rw [part_length]
  decide +kernel

/-- The Group's part of a version: one data shard and one of parity, one stripe. -/
def gi : GroupInfo := ⟨1, 1, 0, 0, 3, 1, 9⟩

/-- A commit whose shards are on their way. -/
def gcom : Commit := { com .shards with ver := { ver with version := 5, group := some gi } }

/-- A gather of a read. -/
def gat (got : AMap (AMap (List Byte))) : Gather := ⟨0, .cmd 1 0, skey, [], { gi with k := 1 }, [], [0], got, 0, 4096⟩

/-- Hypotheses of ShardFrames: a shard that is not held, one that is durable, one with chunks missing and one with its last chunk; a
gather with enough and with too little; a commit at its quorum and below it. -/
theorem witness_ShardFrames :
    (Received grp (frame 0x10 (part 31) 8256) (rx 0x10 (part 31) 8256) 0x10 ∧ grp.shard? skey = none ∧ Alive grp (keyOrigin skey) ∧
      (let s (x : Shard) := grp fun f => { f with shards := [x] }
       (s (shd true 31)).shard? skey = some (shd true 31) ∧ (shd true 31).durable = true ∧ (s (shd true 31)).shardReadable (shd true 31) = true ∧
       ((shd false 3).chunks.put 31 [1]).length < 32 ∧ 32 ≤ ((shd false 31).chunks.put 32 [1]).length ∧ (shd false 31).placed = false ∧
       (shd false 31).vrec ≠ [] ∧ fieldLe (shd false 31).vrec 6 1 < 16 ∧ (s (shd false 31)).readOnlyOn = false ∧
       (s (shd false 31)).spaceFor 262144 = none)) ∧
    (∃ p, EmptyRow { grp with flash := { grp.flash with rows := [{ open' 0 0 .host with prot := p }] } } (keyStripe skey % 4) .host
      (grp.classParity 0 == 3)) ∧
    (Received grp (frame 0x11 pay) (rx 0x11 pay) 0x11 ∧ grp.commits = []) ∧
    (let b := skey ++ [1] ++ zeros 7
     Received grp (frame 0x11 b) (rx 0x11 b) 0x11 ∧ fieldLe b 32 2 ≠ 0 ∧ fieldLe pay 32 2 = 0) ∧
    Received grp (frame 0x12 pay) (rx 0x12 pay) 0x12 ∧
    (let s (g : Gather) := grp fun f => { f with gathers := [g] }
     let full := gat [(0, (List.range 31).map fun i => (i, []))]
     Received (s (gat [])) (frame 0x13 (part 31) 8256) (rx 0x13 (part 31) 8256) 0x13 ∧
     Received (s full) (frame 0x13 (part 31) 8256) (rx 0x13 (part 31) 8256) 0x13 ∧
       (gat []).key.take 31 = (part 31).take 31 ∧ keyShard ((part 31).take 32) ∈ (gat []).asked ∧
       { gat [] with got := (gat []).got.upd 0 [] fun c => AMap.put c 31 [1] }.enough = false ∧
       { full with got := full.got.upd 0 [] fun c => AMap.put c 31 [1] }.enough = true) ∧
    Received grp (frame 0x14 (zeros 32) 32) (rx 0x14 (zeros 32) 32) 0x14 ∧
    Received grp (frame 0x15 (zeros 32) 32) (rx 0x15 (zeros 32) 32) 0x15 ∧
    (let c := cmd (pkt 0x42 (stream := 0x40001))
     let s (l : List (List Byte)) := { sent c (grp fun f => { f with pendingShards := l }) with commits := [gcom] }
     (s []).commits.find? (fun c => c.id == 0) = some gcom ∧ gcom.ver.group = some gi ∧ gcom.phase = .shards ∧
       (s []).atQuorum gi ((s []).keyOf gcom.ver) = true ∧
       (let l := [0, 1].map fun i => shardKey (grp.keyOf gcom.ver) 0 i
        (s l).atQuorum gi ((s l).keyOf gcom.ver) = false ∧ gcom.owner = .cmd 1 ∧ (s l).cmd? 1 = some c ∧ Live (s l) c)) ∧
    (let c := { cmd (pkt 0x43) with launched := true }
     let s := sent c (grp fun f => { f with gathers := [gat []], overrides := [⟨shardKey (skey.take 28) 0 1, 1⟩] })
     s.gather? 0 = some (gat []) ∧ (gat []).enough = false ∧ (gat []).owner = .cmd 1 0 ∧ s.cmd? 1 = some c ∧ Live s c ∧ (gat []).got = [] ∧
       0 < (gat []).info.k ∧ s.firon.shards = [] ∧ (gat []).asked.Nodup ∧ (∀ a ∈ (gat []).asked, a < gi.k + gi.m) ∧ 1 ∉ (gat []).asked ∧
       s.holderOf (gat []).info (shardKey (skey.take 28) (keyStripe skey) 1) = 1 ∧ 1 ≠ s.firon.member ∧ (s.peer 1).st = 1 ∧
       (s.peer 1).late = false) := by
  have r10 : Received grp (frame 0x10 (part 31) 8256) (rx 0x10 (part 31) 8256) 0x10 :=
    received_of (part_length 31) (by decide) (by decide +kernel) payloadOk_put
  refine ⟨⟨r10, ?_, .inl ?_, ?_⟩, ⟨grp.classParity 0 == 3, emptyRow_of ?_⟩, ⟨?_, ?_⟩, ⟨?_, ?_⟩, ?_,
    ⟨received_of (part_length 31) (by decide) (by decide +kernel) payloadOk_data,
      received_of (part_length 31) (by decide) (by decide +kernel) payloadOk_data, ?_⟩, ?_, ?_,
    ⟨?_, ?_, ?_, ?_, ?_, ?_, ?_, live_of ?_⟩, ⟨?_, ?_, ?_, ?_, live_of ?_, ?_⟩⟩
  all_goals first
    | exact received_of rfl (by decide) (by decide +kernel) (by decide +kernel)
    | decide +kernel

/-- Hypotheses of GroupMembers: each frame of repair and adoption; each step of GROUP_CONFIG. -/
theorem witness_GroupMembers :
    (Received grp (frame 0x20 (zeros 192) 192) (rx 0x20 (zeros 192) 192) 0x20 ∧ grp.shard? skey = none ∧
      (grp fun f => { f with shards := [shd true 31] }).shard? skey = some (shd true 31)) ∧
    (Received grp (frame 0x21 pay) (rx 0x21 pay) 0x21 ∧ grp.commits = [] ∧ fieldLe (skey ++ [1] ++ zeros 7) 32 1 ≠ grp.firon.member) ∧
    Received grp (frame 0x30 pay) (rx 0x30 pay) 0x30 ∧
    (let c := { cmd (pkt 0xFE (aux := 5)) 0 with launched := true }
     let s := sent c (grp fun f => { f with adopting := some 1, vrecFrom := [1], vrecs := [zeros 160] })
     let b := zeros 8 ++ [1] ++ zeros 31
     Received grp (frame 0x31 pay) (rx 0x31 pay) 0x31 ∧ Calm grp ∧ grp.firon.adopting = none ∧
       Received s (frame 0x31 pay) (rx 0x31 pay) 0x31 ∧ Calm s ∧ s.firon.adopting = some 1 ∧ allZero ((pay.drop 8).take 32) = true ∧
       s.firon.vrecFrom = [(rx 0x31 pay).src] ∧ s.firon.vrecs = [zeros 160] ∧ s.cmd? 1 = some c ∧ Live s c ∧ c.pkt.opcode = 0xFE ∧
       Received s (frame 0x31 b) (rx 0x31 b) 0x31 ∧ allZero ((b.drop 8).take 32) = false) ∧
    (∀ op p b, Turn (sent (cmd (pkt 0xFE [(24, 1, p)] (aux := op)) 0 b) grp) 1 0xFE (cmd (pkt 0xFE [(24, 1, p)] (aux := op)) 0 b)) ∧
    (let c := cmd (pkt 0xFE [(24, 1, 0)] (aux := 5)) 0
     Calm (sent c grp) ∧ NoGroupWork (sent c grp) ∧ (∀ op < 6, (cmd (pkt 0xFE (aux := op)) 0).pkt.aux % 8 = op) ∧ grp.firon.enabled = true ∧
       disk.firon.enabled = false ∧ selfOk (fields 96 [(0, 4, 7), (4, 2, 4096)]) = true ∧ selfOk [] = false ∧ c.pkt.fld 24 1 = grp.firon.member ∧
       (cmd (pkt 0xFE [(24, 1, 2)]) 0).pkt.fld 24 1 = 2 ∧ zeroAt (zeros 64) 48 16 = true ∧ (∀ j < 4, zeroAt (zeros 64) (22 + 8 * j) 2 = true) ∧
       disk.groupKey = none ∧ grp.groupKey ≠ none ∧ grp.firon.adopting = none ∧ Alive grp 1) := by
  refine ⟨⟨?_, ?_, ?_⟩, ⟨?_, ?_, ?_⟩, ?_, ⟨?_, calm_of ?_, ?_, ?_, calm_of ?_, ?_, ?_, ?_, ?_, ?_, live_of ?_, ?_, ?_, ?_⟩,
    fun op p b => turn_of' rfl rfl, ⟨calm_of ?_, noGroupWork_of ?_, ?_, ?_, ?_, ?_, ?_, ?_, ?_, ?_, ?_, ?_, ?_, ?_, .inl ?_⟩⟩
  all_goals first
    | exact received_of rfl (by decide) (by decide +kernel) (by decide +kernel)
    | decide +kernel

/-! ## Power, start-up, housekeeping, events, registers, the whole machine -/

/-- The device with its modes changed. -/
def mode (f : Modes → Modes) (s : State := live) : State := { s with modes := f s.modes }

/-- The device in Power-Fail with nothing left to wait for. -/
def failed (f : Modes → Modes := id) (s : State := live) : State :=
  mode (fun m => f { m with mode := .powerFail, powerFail := true, running := false, nextCause := 1 }) s

/-- Hypotheses of PowerAndReset: each level of the pins, and each state that power and locks meet. -/
theorem witness_PowerAndReset :
    (live.modes.auxOn = true ∧ live.modes.resetN = true ∧ live.modes.pwrFailN = true ∧ live.modes.rootLost = false ∧
      live.modes.mode ≠ .off ∧ live.modes.mode ≠ .standby ∧ live.modes.mode ≠ .powerFail ∧ live.modes.parked = false ∧
      (∀ p < 6, live.serdesRuns p = true ∧ live.modes.serdesLock.lookD p true = true)) ∧
    ((mode fun m => { m with mode := .off, auxOn := false }).modes.auxOn = false ∧
      (mode fun m => { m with resetN := false, pwrFailN := false }).modes.resetN = false) ∧
    (let s := { failed with boot := { live.boot with ops := [.parkRecord ⟨1, 1⟩] } }
     s.boot.ops = .parkRecord ⟨1, 1⟩ :: [] ∧ s.modes.mode = .powerFail) ∧
    (failed.modes.mode = .powerFail ∧ failed.boot.ops = [] ∧ failed.flash.ops = [] ∧
      (let s := { failed with flash := { failed.flash with ops := [⟨.program 0 0, 0, 0, 0, true⟩] } }
       ∃ o ∈ s.flash.ops, o.run = true ∧ o.rank = 1) ∧ failed.modes.pwrFailN = true ∧
      failed.modes.nextCause ≠ 3 ∧ failed.modes.auxOn = true ∧ failed.modes.resetN = true ∧ failed.modes.rootLost = false ∧
      (failed fun m => { m with resetN := false }).modes.resetN = false ∧ (failed fun m => { m with pwrFailN := false }).modes.pwrFailN = false) ∧
    (let s (r : Bool) := mode fun m => { m with mode := .standby, parked := true, resetN := r }
     (s true).modes.mode = .standby ∧ (s true).modes.parked = true ∧ (s true).modes.auxOn = true ∧ (s true).modes.resetN = true ∧
       (s true).modes.rootLost = false ∧ (s true).modes.rootLock = true ∧ (s false).modes.resetN = false) ∧
    (let s := mode fun m => { m with mode := .standby, rootLost := true, rootLock := false }
     s.modes.rootLost = true ∧ s.modes.mode = .standby ∧ s.modes.auxOn = true ∧ s.modes.resetN = true ∧ s.modes.parked = false) := by
  repeat' with_reducible apply And.intro
  all_goals decide +kernel

/-- The device in Starter before RESET_N is released. -/
def standby (f : Boot → Boot := id) : State :=
  { mode fun m => { m with mode := .standby, resetN := false, running := false } with boot := f live.boot }

/-- Hypotheses of StartUp, but for an image that passes. -/
theorem witness_StartUp :
    (standby.modes.auxOn = true ∧ standby.modes.resetN = false ∧ standby.modes.mode = .standby ∧ standby.modes.parked = false ∧
      standby.modes.rootLost = false ∧ standby.modes.halt = false ∧ live.modes.resetN = true) ∧
    (let s := { mode fun m => { m with mode := .starter, running := false } with
        keys := { live.keys with d3Loaded := true }, flash := { disk.flash with cards := [(0, { Card.init with present := true })] } }
     s.modes.mode = .starter ∧ s.keys.d3Loaded = true ∧ s.modes.halt = false ∧ s.modes.powerFail = false ∧ s.modes.running = false ∧
       (s.card 0).present = true) ∧
    (let s (n : Nat) := { mode fun m => { m with mode := .discovery, running := false } with
        flash := { live.flash with cards := [(0, { Card.init with state := n })] } }
     (s 3).modes.mode = .discovery ∧ (∀ n < 24, ((s 3).card n).state ≠ 1) ∧ (s 3).modes.powerFail = false ∧ (s 3).modes.running = false ∧
       ∃ n, n < 24 ∧ ((s 1).card n).state = 1) ∧
    (let s (w : Bool) (x : State) := { mode (fun m => { m with mode := .rebuild, running := false }) x with
        boot := { x.boot with keyA := if w then some ⟨1, true, []⟩ else none } }
     (s false live).modes.mode = .rebuild ∧ (s false live).modes.powerFail = false ∧ (s true live).modes.quiesceOn = false ∧
       (s false live).sanitizeDue = false ∧ (s true live).sanitizeDue = true ∧ (s true live).flash.sets = [] ∧
       (s true disk).flash.sets ≠ []) := by
  repeat' with_reducible apply And.intro
  all_goals first | exact ⟨0, by decide +kernel⟩ | decide +kernel

/-- The rest, for an image that passes on the part in hand. -/
theorem witness_StartUp_image (b : List Byte) (i : FwInfo) (svn : Nat) (rv : BitVec 4)
    (h : { standby with cfg := { live.cfg with svnFused := svn, revoked := rv } }.fwCheck b = .ok i) :
    let f (x : Boot) : Boot := { x with fwA := some b, cfgA := some config, keyA := some ⟨1, false, [(2, gkey)]⟩ }
    let s := standby f
    s.boot.slot (min s.boot.named 1) = some b ∧ { s with cfg := { s.cfg with svnFused := svn, revoked := rv } }.fwCheck b = .ok i ∧
      s.boot.cfgA = some config ∧ Gives (cfgCheck config) ∧ live.boot.cfgA = none ∧ live.boot.cfgB = none ∧
      s.boot.keyRec = some ⟨1, false, [(2, gkey)]⟩ ∧ s.modes.halt = false :=
  ⟨rfl, h, rfl, gives_of (by decide +kernel), rfl, rfl, rfl, rfl⟩

/-- The device at a visit. -/
def visit (n : Nat) (s : State := live) : State := { s with hk := { s.hk with next := n } }

/-- Hypotheses of Housekeeping: a visit of each group of channels, the end of a round, a control core and each unit that fails. -/
theorem witness_Housekeeping :
    (live.housekeeps = true ∧ (mode fun m => { m with mode := .standby }).housekeeps = false ∧
      (∀ k < 129, (visit k).hk.next = k) ∧ (disk.card 0).powered = true ∧
      ({ live with mem := { live.mem with memStacks := [(0, ⟨1, 0, 0, 40, false⟩)] } }.stack 0).st = 1 ∧
      railBad 0 false 65535 = true ∧ ({ Rail.init with vBad := true }).vBad = true) ∧
    (let hot := { visit 128 with hk := { (visit 128).hk with hotRounds := 1, trip := false, sensors := [(0, ⟨441, false, 1, true⟩)] } }
     hot.housekeeps = true ∧ hot.hk.next = 128 ∧ hot.hk.trip = false ∧ (hot.junctions.any fun j => decide (440 ≤ j.2)) = true) ∧
    (let s (l : List (Nat × Nat)) := { live with ctrls := l.map fun (x : Nat × Nat) => (x.1, { live.ccore x.1 with st := x.2 }) }
     ((s [(0, 1)]).ccore 0).st = 1 ∧ ((s [(0, 2)]).ccore 0).st = 2 ∧
       ((List.range 4).filter fun d => ((s [(0, 2)]).ccore d).st == 3).length < 2 ∧
       ((List.range 4).filter fun d => ((s [(0, 2), (1, 3), (2, 3)]).ccore d).st == 3).length = 2) ∧
    (live.awake = true ∧ 0 ∉ live.ecuFailed ∧ 0 ∈ { live with ecuFailed := [0] }.ecuFailed ∧ (run.crumb 0).online = true ∧
      ((dig []).engine 0).st = 1 ∧
      (let s := { disk with rollers := [(0, { RollerPair.init with stC := .idle, stD := .retired })] }
       s.halfOn 0 true = true ∧ s.halfOn 0 false = false)) := by
  repeat' with_reducible apply And.intro
  all_goals decide +kernel

/-- EVENT_CLEAR with a token over a nonce of zeros, and the device with D2 and a nonce. -/
def forget : Cmd := cmd { pkt 0xFA with body := zeros 8 ++ (tagOf (clearMessage (zeros 8)) ++ zeros 16) } 0
def remembers (nonce : Reg) : State := sent forget { disk with
  keys := { disk.keys with device := [(2, ⟨12, gkey⟩)] }, evr := { disk.evr with nonce := nonce } }

/-- Hypotheses of EventRecords: records to make durable, a command that waits for it, a window that dropped some, a fetch, a token. -/
theorem witness_EventRecords :
    (live.awake = true ∧ live.evr.clearWait = [] ∧ (mode fun m => { m with mode := .off }).awake = false) ∧
    (let s := { sent forget with evr := { live.evr with clearWait := [(1, 5, 4)] } }
     s.evr.clearWait = [(1, 5, 4)] ∧ s.cmd? 1 = some forget ∧ Live s forget) ∧
    (let s := { live with evr := { live.evr with windows := [⟨0x0105, 3, 4, 2⟩, ⟨0x0106, 3, 4, 0⟩] } }
     s.evr.window 0x0105 3 = some ⟨0x0105, 3, 4, 2⟩ ∧ s.evr.window 0x0106 3 = some ⟨0x0106, 3, 4, 0⟩ ∧ s.evr.window 0x0107 3 = none) ∧
    (live.mmio .a = true ∧ (live.latch .a 0 .bar0).write = none ∧ live.evr.fetch = none ∧
      { live with evr := { live.evr with fetch := some (1, true) } }.evr.fetch = some (1, true)) ∧
    (Turn (remembers 5) 1 0xFA forget ∧ (remembers 5).clearCheck forget = some 2) ∧
    (Turn (remembers 0) 1 0xFA forget ∧ (remembers 0).clearCheck forget = none) := by
  have d : forget.pkt.body.drop 8 = tagOf (clearMessage (zeros 8)) ++ zeros 16 := List.drop_left' (l₁ := zeros 8) rfl
  have e8 : sliceB forget.pkt.body 8 16 = tagOf (clearMessage (zeros 8)) := by
    unfold sliceB
    rw [d, List.take_left' (tagOf_length _)]
    simp only [tagOf_length]
    exact List.append_nil _
  refine ⟨by decide +kernel, ⟨rfl, by rfl, rfl, by decide +kernel⟩, by decide +kernel, by decide +kernel, ⟨turn_of' rfl rfl, by decide +kernel⟩,
    turn_of' rfl rfl, ?_⟩
  unfold State.clearCheck
  show (if leNat (zeros 8) ≠ 0 then some 2 else if tagOf (clearMessage (zeros 8)) ≠ sliceB forget.pkt.body 8 16 then some 3 else none) = none
  rw [e8, if_neg (by decide +kernel), if_neg (fun h => h rfl)]

/-- The address of a register of the management space. -/
def at' (n : RegName) (i : Nat := 0) : Nat := (regDef n).offset i

/-- Hypotheses of RegisterAccess: addresses that exist and that do not, and one register for each clause. -/
theorem witness_RegisterAccess :
    (inBar 0 .bar0 (2 ^ 26) = false ∧ inBar 4097 .bar0 0 = false ∧ inBar 1 .bar2 0 = false ∧ inBar 0 .bar0 (2 ^ 26 - 4) = true ∧
      inBar 4096 .bar0 (2 ^ 24 - 4) = true ∧ live.reaches .a 0 .bar0 = true ∧ live.reaches .b 0 .bar0 = false ∧
      live.reaches .a 1 .bar0 = true ∧ live.haltReach .a 0 .bar0 = false ∧ live.latch .a 0 .bar0 = ⟨none, none⟩ ∧
      (mode fun m => { m with mode := .starter, halt := true }).haltReach .a 0 .bar0 = true ∧ inBar 0 .bar0 (at' .flCfg) = true ∧
      0x100000 ≤ at' .flCfg ∧ widthOk true (at' .flCfg) 4 = true) ∧
    (widthOk true (at' .devStatus) 2 = false ∧ widthOk true (at' .devStatus) 4 = true ∧ inBar 0 .bar0 (at' .devStatus) = true ∧
      rcAt 0 .bar0 (at' .devStatus) = false ∧ rcAt 0 .bar0 (at' .fnLateA) = true ∧
      placeAt true (at' .devStatus) = some (.mgmt (regDef .devStatus) 0, at' .devStatus, 4) ∧
      placeAt true (at' .evrNonce + 4) = some (.mgmt (regDef .evrNonce) 0, at' .evrNonce, 8) ∧ widthOk true (at' .evrNonce) 8 = true ∧
      widthOk true (at' .evrNonce) 4 = true ∧ widthOk true (at' .evrNonce + 4) 4 = true ∧ inBar 0 .bar0 (at' .evrNonce) = true) ∧
    (placeAt true (at' .fnShCtx) = some (.mgmt (regDef .fnShCtx) 0, at' .fnShCtx, (regDef .fnShCtx).width) ∧
      widthOk true (at' .fnShCtx) (regDef .fnShCtx).width = true) ∧
    (let s := { mode fun m => { m with mode := .quiesce } with pending := [] }
     s.modes.mode = .quiesce ∧ s.modes.overlay = [] ∧ RegName.flCfg.deviceWide = true ∧ RegName.flCfg ≠ .svBankCfg ∧
       RegName.flCfg.byField = false ∧ (regDef .flCfg).valueOk 0 (s.reg .flCfg 0) = true ∧ live.modes.mode ≠ .quiesce ∧
       widthOk true (at' .flCfg) (regDef .flCfg).width = true ∧
       placeAt true (at' .flCfg) = some (.mgmt (regDef .flCfg) 0, at' .flCfg, (regDef .flCfg).width)) := by
  repeat' with_reducible apply And.intro
  all_goals decide +kernel

/-- Hypotheses of Sideband: the endpoint up and down, and a sensor that has been read. -/
theorem witness_Sideband :
    live.modes.auxOn = true ∧ { live with mgmtSel := false }.mgmtSel = false ∧ { live with mgmtSel := true, dynAddr := none }.dynAddr = none ∧
    There ({ live with hk := { live.hk with stackRead := [(0, true)] } }.sensorReading 2) ∧ live.sensorReading 2 = none := by
  repeat' with_reducible apply And.intro
  all_goals with_reducible first | apply there_of | skip
  all_goals decide +kernel

/-- Hypotheses of StepsKeepInvariant, at reset and in a running device with a command in front. -/
theorem witness_StepsKeepInvariant :
    Sound State.reset ∧ step State.reset = .next State.reset ∧
    (let s := { live with pending := [.functionLevelReset .a 1] }
     Sound s ∧ ∃ t, step s = .next t) := by
  refine ⟨⟨?_, ?_, ?_, ?_, ?_, ?_, ?_, ?_, ?_, ?_, ?_⟩, rfl, ⟨?_, ?_, ?_, ?_, ?_, ?_, ?_, ?_, ?_, ?_, ?_⟩, ?_⟩
  all_goals first | decide +kernel | (unfold step; exact ⟨_, rfl⟩)

/-- Hypotheses of RunsAreSafe and of EveryCommandRuns. -/
theorem witness_RunsAreSafe :
    (∀ i ∈ { live with pending := [.registerRead .a 0 .bar0 0 8, .hotReset .a] }.pending, AddressExists i) ∧
    ¬AddressExists (.registerRead .a 4097 .bar0 0 8) := by
  refine ⟨fun i h => ?_, fun h => absurd h (by decide +kernel : ¬inBar 4097 .bar0 0 = true)⟩
  simp only [List.mem_cons, List.not_mem_nil, or_false] at h
  rcases h with rfl | rfl
  · exact (by decide +kernel : inBar 0 .bar0 0 = true)
  · trivial

end Sys2Proof.Tests
end

section
/-! PROOFS. Lanes of a lane register: the lanes of a number built digit by digit or byte by byte, and the operations of 06 R216
and R217 on them. -/
namespace Sys2Proof.Machine

open Claims

/-- Lane `i` of a lane register is the number that `laneAt` reads. -/
@[simp] theorem toNat_lane (w : Nat) (v : Lane) (i : Nat) : (lane w v i).toNat = laneAt w v i := by
  simp [lane, laneAt, BitVec.extractLsb'_toNat, Nat.shiftRight_eq_div_pow]

/-- Lane `i` as a word of its width. -/
theorem ofNat_laneAt (w : Nat) (v : Lane) (i : Nat) : BitVec.ofNat w (laneAt w v i) = lane w v i := by
  rw [← toNat_lane, BitVec.ofNat_toNat, BitVec.setWidth_eq]

/-- A lane inside the 128 bits of a number is the digit of the number at its place. -/
theorem lane_ofNat {w j : Nat} (N : Nat) (h : w * (j + 1) ≤ 128) :
    lane w (BitVec.ofNat 128 N) j = BitVec.ofNat w (N / 2 ^ (w * j)) := by
  rw [Nat.mul_succ] at h
  refine BitVec.eq_of_getLsbD_eq fun i hi => ?_
  simp only [lane, BitVec.getLsbD_extractLsb', BitVec.getLsbD_ofNat, Nat.testBit_div_two_pow]
  rw [decide_eq_true (by omega : w * j + i < 128), Bool.true_and, Nat.add_comm]

/-! ## Numbers built from digits -/

/-- The number whose digit `i` to the base 2^w is `d i`, from its first `n` digits. -/
def packed (w : Nat) (d : Nat → Nat) (n : Nat) : Nat := (List.range n).foldl (fun r i => r + d i * 2 ^ (w * i)) 0

/-- One more digit. -/
theorem packed_succ (w : Nat) (d : Nat → Nat) (n : Nat) : packed w d (n + 1) = packed w d n + d n * 2 ^ (w * n) := by
  simp [packed, List.range_succ]

/-- A number of `n` digits is below the weight of the next one. -/
theorem packed_lt {w : Nat} {d : Nat → Nat} (hd : ∀ i, d i < 2 ^ w) (n : Nat) : packed w d n < 2 ^ (w * n) := by
  induction n with
  | zero => simp [packed]
  | succ n ih =>
    calc packed w d (n + 1) = packed w d n + d n * 2 ^ (w * n) := packed_succ w d n
      _ < (d n + 1) * 2 ^ (w * n) := by rw [Nat.succ_mul]; omega
      _ ≤ 2 ^ w * 2 ^ (w * n) := Nat.mul_le_mul_right _ (hd n)
      _ = 2 ^ (w * (n + 1)) := by rw [← Nat.pow_add, Nat.mul_succ, Nat.add_comm]

/-- The digits of a packed number are those it was packed from, and zero above them. -/
theorem packed_digit {w : Nat} {d : Nat → Nat} (hd : ∀ i, d i < 2 ^ w) (n j : Nat) :
    packed w d n / 2 ^ (w * j) % 2 ^ w = if j < n then d j else 0 := by
  induction n with
  | zero => simp [packed]
  | succ n ih =>
    rw [packed_succ]
    rcases Nat.lt_trichotomy j n with hj | rfl | hj
    · have e : 2 ^ (w * n) = 2 ^ (w * j) * (2 ^ w * 2 ^ (w * (n - j - 1))) := by
        obtain ⟨m, rfl⟩ := Nat.exists_eq_add_of_lt hj
        rw [← Nat.pow_add, ← Nat.pow_add, Nat.add_comm w, ← Nat.mul_succ, ← Nat.mul_add]
        congr 2; omega
      rw [e, ← Nat.mul_assoc, Nat.mul_comm (d n), Nat.mul_assoc, Nat.add_mul_div_left _ _ (Nat.two_pow_pos _),
        Nat.mul_left_comm, Nat.add_mul_mod_self_left, ih, if_pos hj, if_pos (Nat.lt_succ_of_lt hj)]
    · rw [Nat.add_mul_div_right _ _ (Nat.two_pow_pos _), Nat.div_eq_of_lt (packed_lt hd j), Nat.zero_add,
        Nat.mod_eq_of_lt (hd j), if_pos (Nat.lt_succ_self j)]
    · rw [← packed_succ, if_neg (by omega), Nat.div_eq_of_lt, Nat.zero_mod]
      exact Nat.lt_of_lt_of_le (packed_lt hd _) (Nat.pow_le_pow_right (by omega) (Nat.mul_le_mul_left _ hj))

/-- An operation of the model on numbers computes an operation on the lanes. -/
def Computes (w : Nat) (f : Nat → Nat → Nat → Nat) (g : BitVec w → BitVec w → BitVec w) : Prop :=
  ∀ p q : BitVec w, f w p.toNat q.toNat = (g p q).toNat

/-- A lane operation computes lane by lane (R216). -/
theorem lane_lanes2 {w : Nat} {f : Nat → Nat → Nat → Nat} {g : BitVec w → BitVec w → BitVec w} (h : Computes w f g)
    (a b : Lane) {j : Nat} (hj : j < 128 / w) :
    lane w (BitVec.ofNat 128 (lanes2 w f a b)) j = g (lane w a j) (lane w b j) := by
  have hd : ∀ i, f w (laneAt w a i) (laneAt w b i) = (g (lane w a i) (lane w b i)).toNat := fun i => by
    rw [← h, toNat_lane, toNat_lane]
  have hlt : ∀ i, f w (laneAt w a i) (laneAt w b i) < 2 ^ w := fun i => by rw [hd]; exact BitVec.isLt _
  rw [lane_ofNat _ (Nat.le_trans (Nat.mul_le_mul_left w hj) (Nat.mul_div_le 128 w))]
  apply BitVec.eq_of_toNat_eq
  rw [BitVec.toNat_ofNat, ← hd]
  exact (packed_digit hlt _ _).trans (if_pos hj)

/-! ## The operations of R216 -/

/-- VADD. -/
theorem computes_add (w : Nat) : Computes w (fun w x y => (x + y) % 2 ^ w) (· + ·) := fun p q =>
  (BitVec.toNat_add p q).symm

/-- VSUB. -/
theorem computes_sub (w : Nat) : Computes w (fun w x y => (x + 2 ^ w - y) % 2 ^ w) (· - ·) := fun p q => by
  simp only [BitVec.toNat_sub, Nat.add_sub_assoc (Nat.le_of_lt q.isLt), Nat.add_comm]

/-- A comparison that holds of the lanes as it holds of their numbers gives all ones or zero. -/
theorem computes_mask {w : Nat} (c : Nat → Nat → Nat → Prop) [∀ w x y, Decidable (c w x y)] (r : BitVec w → BitVec w → Prop)
    [∀ p q, Decidable (r p q)] (h : ∀ p q, c w p.toNat q.toNat ↔ r p q) :
    Computes w (fun w x y => if c w x y then 2 ^ w - 1 else 0) fun p q => if r p q then BitVec.allOnes w else 0 := by
  intro p q
  simp only [h]
  split
  · rw [BitVec.toNat_allOnes]
  · rfl

/-- A lane as a signed number. -/
theorem laneInt_toNat {w : Nat} (hw : 0 < w) (p : BitVec w) : laneInt w p.toNat = p.toInt := by
  have e : 2 ^ w = 2 * 2 ^ (w - 1) := by rw [← Nat.pow_add_one', Nat.sub_add_cancel hw]
  unfold laneInt
  rw [BitVec.toInt_eq_toNat_cond, e]
  simp only [Nat.mul_lt_mul_left (Nat.zero_lt_two)]
  split
  · rfl
  · rw [← e]; norm_cast

/-- VCMPEQ. -/
theorem computes_cmpeq (w : Nat) : Computes w (fun w x y => if x = y then 2 ^ w - 1 else 0)
    fun p q => if p = q then BitVec.allOnes w else 0 :=
  computes_mask (fun _ x y => x = y) (· = ·) fun _ _ => BitVec.toNat_inj

/-- VCMPGTU. -/
theorem computes_cmpgtu (w : Nat) : Computes w (fun w x y => if y < x then 2 ^ w - 1 else 0)
    fun p q => if q < p then BitVec.allOnes w else 0 :=
  computes_mask (fun _ x y => y < x) (fun p q => q < p) fun _ _ => Iff.rfl

/-- VCMPGTS. -/
theorem computes_cmpgts {w : Nat} (hw : 0 < w) : Computes w (fun w x y => if laneInt w y < laneInt w x then 2 ^ w - 1 else 0)
    fun p q => if q.slt p then BitVec.allOnes w else 0 :=
  computes_mask (fun w x y => laneInt w y < laneInt w x) (fun p q => q.slt p = true) fun p q => by
    rw [laneInt_toNat hw, laneInt_toNat hw, BitVec.slt_iff_toInt_lt]

/-- VMINU. -/
theorem computes_minu (w : Nat) : Computes w (fun _ x y => min x y) fun p q => if q < p then q else p := fun p q => by
  simp only [BitVec.lt_def]
  split <;> omega

/-- VMAXU. -/
theorem computes_maxu (w : Nat) : Computes w (fun _ x y => max x y) fun p q => if p < q then q else p := fun p q => by
  simp only [BitVec.lt_def]
  split <;> omega

/-- VSHL. -/
theorem computes_shl (w : Nat) : Computes w (fun w x y => x * 2 ^ (y % w) % 2 ^ w) fun p q => p <<< (q.toNat % w) := fun p q => by
  rw [BitVec.toNat_shiftLeft, Nat.shiftLeft_eq]

/-- VSHR. -/
theorem computes_shr (w : Nat) : Computes w (fun w x y => x / 2 ^ (y % w)) fun p q => p >>> (q.toNat % w) := fun p q => by
  rw [BitVec.toNat_ushiftRight, Nat.shiftRight_eq_div_pow]

/-- VSAR. -/
theorem computes_sar {w : Nat} (hw : 0 < w) : Computes w (fun w x y => laneSar w x (y % w))
    fun p q => p.sshiftRight (q.toNat % w) := fun p q => by
  simp only [laneSar, laneInt_toNat hw, BitVec.sshiftRight, BitVec.toNat_ofInt, Int.shiftRight_eq_div_pow]
  norm_cast

/-! ## Bytes -/

/-- Byte `j` of a little-endian number (00 R4). -/
theorem leNat_digit (l : List Byte) (j : Nat) : leNat l / 2 ^ (8 * j) % 2 ^ 8 = (l.getD j 0).toNat := by
  induction l generalizing j with
  | nil => simp [leNat]
  | cons b l ih =>
    have hb := b.isLt
    cases j with
    | zero => simp only [leNat, List.getD_cons_zero]; omega
    | succ j =>
      have e : leNat (b :: l) / 2 ^ 8 = leNat l := by simp only [leNat]; omega
      rw [Nat.mul_succ, Nat.add_comm, Nat.pow_add, ← Nat.div_div_eq_div_mul, e, ih, List.getD_cons_succ]

/-- Byte `j` of a lane register made of bytes. -/
theorem lane_leNat (l : List Byte) {j : Nat} (hj : j < 16) : lane 8 (BitVec.ofNat 128 (leNat l)) j = l.getD j 0 := by
  rw [lane_ofNat _ (by omega)]
  apply BitVec.eq_of_toNat_eq
  rw [BitVec.toNat_ofNat, leNat_digit]

/-- Byte `j` of a number's little-endian bytes (00 R4). -/
theorem leBytes_getD {n j : Nat} (v : Nat) (hj : j < n) : (leBytes n v).getD j 0 = BitVec.ofNat 8 (v / 2 ^ (8 * j)) := by
  induction n generalizing v j with
  | zero => omega
  | succ n ih =>
    cases j with
    | zero => simp [leBytes]
    | succ j =>
      rw [leBytes, List.getD_cons_succ, ih _ (by omega), Nat.div_div_eq_div_mul, Nat.mul_succ, Nat.add_comm (8 * j), Nat.pow_add]

/-- A number has as many little-endian bytes as were asked for. -/
theorem length_leBytes (n v : Nat) : (leBytes n v).length = n := by
  induction n generalizing v with
  | zero => rfl
  | succ n ih => rw [leBytes, List.length_cons, ih]

/-- A byte of a string that another string was written into. -/
theorem overlay_getD {b d : List Byte} {off : Nat} (h : off ≤ b.length) (m : Nat) :
    (overlay b off d).getD m 0 = if off ≤ m ∧ m < off + d.length then d.getD (m - off) 0 else b.getD m 0 := by
  have hl : (b.take off).length = off := by simp [h]
  have hp : padTo (b.take off) off = b.take off := by simp [padTo, zeros, hl]
  simp only [overlay, hp, List.getD_eq_getElem?_getD, List.getElem?_append, List.length_append, hl, List.getElem?_take,
    List.getElem?_drop]
  split
  · split
    · rw [if_neg (by omega)]
    · rw [if_pos (by omega)]
  · rw [if_neg (by omega)]; congr 2; omega

/-! ## The lane moves and VPERM (R216, R217) -/

/-- Every lane of VSPLAT is the low bits of the word, with zeros above (R217). -/
theorem lane_splat (li : Nat) (x : Word) {j : Nat} (hj : j < 128 / (8 * 2 ^ li)) :
    lane (8 * 2 ^ li) (splat li x) j = x.setWidth (8 * 2 ^ li) :=
  lane_lanes2 (g := fun _ _ => x.setWidth _) (fun _ _ => (BitVec.toNat_setWidth _ x).symm) 0 0 hj

/-- Byte `m` of 32-bit lane `j`. -/
theorem lane_eight_of_word (v : Lane) (j : Nat) {m : Nat} (hm : m < 4) : (lane 32 v j).extractLsb' (8 * m) 8 = lane 8 v (4 * j + m) := by
  ext i hi
  simp only [lane, BitVec.getElem_extractLsb', BitVec.getLsbD_extractLsb']
  rw [decide_eq_true (by omega : 8 * m + i < 32), Bool.true_and]
  congr 1; omega

/-- A word with the four bytes of another is that word. -/
theorem word_ext {x y : Word} (h : ∀ m < 4, x.extractLsb' (8 * m) 8 = y.extractLsb' (8 * m) 8) : x = y := by
  apply BitVec.eq_of_getLsbD_eq
  intro i hi
  have e := congrArg (fun z => z.getLsbD (i % 8)) (h (i / 8) (by omega))
  simp only [BitVec.getLsbD_extractLsb', Nat.div_add_mod] at e
  rwa [decide_eq_true (by omega : i % 8 < 8), Bool.true_and, Bool.true_and] at e

/-- VINS changes one 32-bit lane (R217). -/
theorem lane_insert (v : Lane) (x : Word) (li : Fin 4) {j : Nat} (hj : j < 4) :
    lane 32 (laneOf (overlay (laneBytes v) (4 * li.val) (leBytes 4 x.toNat))) j = if j = li.val then x else lane 32 v j := by
  have hli := li.isLt
  apply word_ext
  intro m hm
  have hb : (laneBytes v).getD (4 * j + m) 0 = lane 8 v (4 * j + m) := by
    rw [laneBytes, leBytes_getD _ (by omega), ← lane_ofNat _ (by omega), BitVec.ofNat_toNat, BitVec.setWidth_eq]
  rw [lane_eight_of_word _ _ hm, laneOf, lane_leNat _ (by omega),
    overlay_getD (by rw [laneBytes, length_leBytes]; omega), length_leBytes, hb]
  split
  · next h =>
    obtain rfl : j = li.val := by omega
    rw [if_pos rfl, Nat.add_sub_cancel_left, leBytes_getD _ hm, ← Nat.shiftRight_eq_div_pow]
    rfl
  · rw [if_neg (by omega), lane_eight_of_word _ _ hm]

/-- Byte `j` of VPERM (R216). -/
theorem lane_vperm (a old sel : Lane) {j : Nat} (hj : j < 16) : lane 8 (vperm a old sel) j =
    (let n := (lane 8 sel j).toNat
     if 128 ≤ n then 0 else if n % 32 < 16 then lane 8 a (n % 32) else lane 8 old (n % 32 - 16)) := by
  simp only [vperm, lane_leNat _ hj, toNat_lane, List.getD_eq_getElem?_getD, List.getElem?_map, List.getElem?_range hj,
    Option.map_some, Option.getD_some, ge_iff_le]
  simp only [← ofNat_laneAt, apply_ite (BitVec.ofNat 8)]

/-- The number behind VMASK, bit by bit. -/
theorem vmask_eq (v : Lane) : vmask v = BitVec.ofNat 32 (packed 1 (fun i => laneAt 8 v i / 128) 16) := by
  simp only [vmask, packed, Nat.one_mul]

/-- Bit `j` of VMASK is bit 7 of byte `j` (R217). -/
theorem vmask_bit (v : Lane) {j : Nat} (hj : j < 32) :
    (vmask v).getLsbD j = (decide (j < 16) && (lane 8 v j).getLsbD 7) := by
  have hlt : ∀ i, laneAt 8 v i < 256 := fun i => Nat.mod_lt _ (by decide)
  have hd : ∀ i, laneAt 8 v i / 128 < 2 ^ 1 := fun i => by have := hlt i; omega
  have hj7 : (lane 8 v j).getLsbD 7 = decide (laneAt 8 v j / 128 = 1) := by
    rw [BitVec.getLsbD, toNat_lane, Nat.testBit_eq_decide_div_mod_eq]
    exact decide_eq_decide.2 (by have := hlt j; omega)
  have hb := packed_digit hd 16 j
  rw [vmask_eq, BitVec.getLsbD_ofNat, decide_eq_true hj, Bool.true_and, Nat.testBit_eq_decide_div_mod_eq, hj7]
  rw [Nat.one_mul, Nat.pow_one] at hb
  rw [hb]
  by_cases h : j < 16 <;> simp [h]

end Sys2Proof.Machine
end

section
/-! PROOFS. What the package memory changes when it is read or written: itself, and what its errors count and record. The cores
are as they were after every load and store (06 R237). -/
namespace Sys2Proof.Machine

open Claims

/-- From `s` to `t` only the package memory may differ, and what its errors count and record: registers, event records, the
boot flash's operations and the free values. -/
def OnlyMemory (s t : State) : Prop :=
  ∃ mem regs evr boot fresh, t = { s with mem := mem, regs := regs, evr := evr, boot := boot, fresh := fresh }

theorem OnlyMemory.refl (s : State) : OnlyMemory s s := ⟨s.mem, s.regs, s.evr, s.boot, s.fresh, rfl⟩

theorem OnlyMemory.trans {s t u : State} (h : OnlyMemory s t) (k : OnlyMemory t u) : OnlyMemory s u := by
  obtain ⟨_, _, _, _, _, rfl⟩ := h
  obtain ⟨m, r, e, b, f, rfl⟩ := k
  exact ⟨m, r, e, b, f, rfl⟩

/-- The cores are as they were. -/
theorem OnlyMemory.core {s t : State} (h : OnlyMemory s t) (k : CoreSel) : t.core k = s.core k := by
  obtain ⟨_, _, _, _, _, rfl⟩ := h
  cases k <;> rfl

section
variable {s0 s : State} (h : OnlyMemory s0 s)
include h

theorem OnlyMemory.modMem (f : PkgMem → PkgMem) : OnlyMemory s0 (s.modMem f) :=
  h.trans ⟨f s.mem, s.regs, s.evr, s.boot, s.fresh, rfl⟩

theorem OnlyMemory.modCtrl (c : Nat) (f : MemCtrl → MemCtrl) : OnlyMemory s0 (s.modCtrl c f) := h.modMem _

theorem OnlyMemory.bump (n : RegName) (i : Nat) : OnlyMemory s0 (s.bump n i) :=
  h.trans ⟨s.mem, (s.bump n i).regs, s.evr, s.boot, s.fresh, rfl⟩

theorem OnlyMemory.setEvr (e : EvRecorder) : OnlyMemory s0 { s with evr := e } :=
  h.trans ⟨s.mem, s.regs, e, s.boot, s.fresh, rfl⟩

theorem OnlyMemory.pushRecord (code source : Nat) (d : List Byte) : OnlyMemory s0 (s.pushRecord code source d) :=
  h.trans ⟨s.mem, (s.pushRecord code source d).regs, (s.pushRecord code source d).evr, (s.pushRecord code source d).boot,
    s.fresh + 1, rfl⟩

theorem OnlyMemory.record (code source : Nat) (d : List Byte) : OnlyMemory s0 (s.record code source d) := by
  unfold State.record
  split
  · exact h.pushRecord _ _ _
  · split
    · exact (h.pushRecord _ _ _).setEvr _
    · split
      · exact (h.setEvr _).pushRecord _ _ _
      · exact (h.setEvr _).bump _ _

/-- Reading a block (R395, R398, R405). -/
theorem OnlyMemory.readBlock (stack sa : Nat) (consumed : Bool) : OnlyMemory s0 (s.readBlock stack sa consumed).2.2 := by
  unfold State.readBlock
  extract_lets blk region d
  split
  · split
    · exact h.bump _ _
    · split
      · exact h
      · cases consumed
        · exact h
        · exact h.bump _ _
  · split
    · exact h
    · exact (h.modMem _).bump _ _
    · exact (h.modMem _).bump _ _
    · next cls =>
      extract_lets s1 s2 x
      have h1 : OnlyMemory s0 s1 := by
        simp only [s1]; split
        · exact (h.bump _ _).record _ _ _
        · exact h
      have h2 : OnlyMemory s0 s2 := by
        simp only [s2]; split
        · exact h1.bump _ _
        · exact h1
      split
      · exact (h2.modMem _).bump _ _
      · split
        · exact h2.modMem fun m => m.store blk _ 0
        · exact h2

theorem OnlyMemory.retireMerge (c : Nat) (e : MergeEntry) : OnlyMemory s0 (s.retireMerge c e) := by
  have hr := fun stack => (((h.modCtrl c fun k => { k with merge := k.merge.filter fun x => x.block != e.block }).readBlock
    stack (32 * e.block) false).bump .memCnt 6)
  simp only [State.retireMerge]
  split
  · exact (h.modCtrl _ _).modMem _
  · split
    · exact ((hr _).modMem _).bump _ _
    · exact (hr _).modMem _

theorem OnlyMemory.flushMerge (stack sa : Nat) : OnlyMemory s0 (s.flushMerge stack sa) := by
  simp only [State.flushMerge]
  split
  · exact h.retireMerge _ _
  · exact h

theorem OnlyMemory.drainMerge (c limit : Nat) : OnlyMemory s0 (s.drainMerge c limit) := by
  simp only [State.drainMerge]
  split
  · split
    · exact h.retireMerge _ _
    · exact h
  · exact h

theorem OnlyMemory.writeLine (stack sa : Nat) (mask : BitVec 32) (d : BitVec 256) :
    OnlyMemory s0 (s.writeLine stack sa mask d) := by
  simp only [State.writeLine]
  split
  · exact (h.modCtrl _ _).modMem _
  · split
    · split
      · exact (h.modCtrl _ _).retireMerge _ _
      · exact h.modCtrl _ _
    · exact ((h.drainMerge _ _).modCtrl _ _).drainMerge _ _

/-- Writing a block (R400, R403, R405). -/
theorem OnlyMemory.writeBlock (stack sa : Nat) (mask : BitVec 32) (d : BitVec 256) :
    OnlyMemory s0 (s.writeBlock stack sa mask d) := by
  have hr := (h.flushMerge stack sa).readBlock stack sa false
  unfold State.writeBlock
  extract_lets region lost par r s1 new delta pblk s2 s3
  have h1 : OnlyMemory s0 s1 := hr
  split
  · split
    · exact h1.modMem _
    · have h2 : OnlyMemory s0 s2 := by
        simp only [s2]
        clear_value s1
        split
        · exact h1
        · exact h1.modMem _
      clear_value s2
      split
      · exact h2
      · split
        · exact h2.modMem _
        · exact h2.modMem _
  · split
    · have h3 : OnlyMemory s0 s3 := by
        simp only [s3]; split
        · exact h
        · exact h.writeLine _ _ _ _
      split
      · exact h3
      · exact h3.writeLine _ _ _ _
    · split
      · exact h
      · exact h.writeLine _ _ _ _

theorem OnlyMemory.memRead (addr len : Nat) (consumed : Bool) : OnlyMemory s0 (s.memRead addr len consumed).st := by
  simp only [State.memRead]
  refine foldl_keeps (fun a : MemRead => OnlyMemory s0 a.st) _ _ h fun a b ha => ?_
  split
  · exact ha
  · exact (OnlyMemory.flushMerge ha _ _).readBlock _ _ _

theorem OnlyMemory.memWrite (addr : Nat) (b : List Byte) : OnlyMemory s0 (s.memWrite addr b) := by
  simp only [State.memWrite]
  refine foldl_keeps (OnlyMemory s0) _ _ h fun a blk ha => ?_
  split
  · exact ha
  · exact ha.writeBlock _ _ _ _

end

/-! ## Loads and stores leave the cores as they are (R237) -/

/-- A change of a Crumb beside its core. -/
theorem State.core_modCrumb (s : State) (c : Nat) (f : Crumb → Crumb) (hf : (f (s.crumb c)).core = (s.crumb c).core)
    (k : CoreSel) : (s.modCrumb c f).core k = s.core k := by
  cases k with
  | ctrl d => rfl
  | crumb d =>
    by_cases hd : d.val = c
    · subst hd; simpa [State.core, State.modCrumb, State.crumb] using hf
    · simp [State.core, State.modCrumb, State.crumb, AMap.lookD_upd_of_ne _ _ _ hd]

theorem State.core_bufRead (s : State) (k : CoreSel) (buf : Bool) (a n : Nat) (l : CoreSel) :
    (s.bufRead k buf a n).st.core l = s.core l := by
  have hm := ((OnlyMemory.refl s).memRead a n true).core l
  unfold State.bufRead
  split
  · split
    · rfl
    · dsimp only
      split
      · exact hm
      · exact (State.core_modCrumb _ _ _ rfl l).trans hm
  · exact hm

theorem State.core_winRead {s t : State} {k : CoreSel} {x : Win} {w off n : Nat} {b : List Byte}
    (h : s.winRead k x w off n = .ok (b, t)) (l : CoreSel) : t.core l = s.core l := by
  simp only [State.winRead] at h
  split at h
  · split at h <;> cases h <;> rfl
  · split at h
    · cases h
    · split at h
      · cases h
      · cases h; exact s.core_bufRead _ _ _ _ l

theorem State.core_winWrite {s t : State} {k : CoreSel} {x : Win} {w off : Nat} {b : List Byte}
    (h : s.winWrite k x w off b = .ok t) (l : CoreSel) : t.core l = s.core l := by
  simp only [State.winWrite] at h
  split at h
  · split at h <;> cases h
    · exact State.core_modCrumb _ _ _ rfl l
    · rfl
  · split at h <;> cases h
    exact ((OnlyMemory.refl s).memWrite _ _).core l

/-- An answer of a computation that may raise an exception comes from an answer of its first part. -/
theorem bind_ok {α β : Type} {x : Except Exn α} {f : α → Except Exn β} {b : β} (h : (x >>= f) = .ok b) :
    ∃ a, x = .ok a ∧ f a = .ok b := by
  cases x with
  | error e => cases h
  | ok a => exact ⟨a, rfl, h⟩

/-- A load that ends leaves every core as it is. -/
theorem State.core_load {s t : State} {k : CoreSel} {w off n align : Nat} {b : List Byte}
    (h : s.load k w off n align = .ok (b, t)) (l : CoreSel) : t.core l = s.core l := by
  obtain ⟨_, -, hr⟩ := bind_ok h
  exact State.core_winRead hr l

/-- A store that ends leaves every core as it is. -/
theorem State.core_storeAt {s t : State} {k : CoreSel} {w off align : Nat} {b : List Byte} {limit : Option Word}
    (h : s.storeAt k w off b align limit = .ok t) (l : CoreSel) : t.core l = s.core l := by
  obtain ⟨_, -, hr⟩ := bind_ok h
  exact State.core_winWrite hr l

end Sys2Proof.Machine
end

section
/-! PROOFS. How an instruction ends that changes its core's registers and goes on behind itself (06 R210, R237). -/
namespace Sys2Proof.Machine

open Claims

/-! ## How an instruction ends (R210, R237) -/

/-- The retirement of an instruction that changed its core and not the PC. -/
theorem State.retired_eq_coreNext (t : State) (k : CoreSel) (f : Core → Core) (len : Nat) {pc : Word}
    (hpc : (f (t.core k)).pc = pc) :
    (t.modCore k f).retired k 1 (pc + BitVec.ofNat 32 len) = coreNext t k (stepped (f (t.core k)) len) := by
  subst hpc
  rw [State.retired_modCore]
  cases k <;> rfl

/-- An instruction that may run and leaves a state `t` with its core's registers changed, the PC not among them. -/
theorem State.retire_modCore {s t : State} {k : CoreSel} {len : Nat} {g : State → Except Exn State} {f : Core → Core}
    (h : CanRun s k len) (hg : g s = .ok (t.modCore k f)) (ht : t.core k = s.core k)
    (hpc : (f (s.core k)).pc = (s.core k).pc) :
    s.retire k len g = .next (coreNext t k (stepped (f (s.core k)) len)) := by
  rw [State.retire_ok h.1 h.2 hg, ← ht, State.retired_eq_coreNext t k f len (by rw [ht, hpc])]

/-- On core `k`, the instruction of four bytes needs `ok` of its fields and then changes the core's registers by `f`. -/
def ChangesCore (i : Instr) (k : CoreSel) (ok : Bool) (f : Core → Core) : Prop :=
  ∀ s, exec i s = s.retire k 4 fun s => do
    need ok
    s.pureOp k f

section
variable {s : State} {k : CoreSel} {i : Instr} {ok : Bool} {f : Core → Core}

theorem ChangesCore.invalid (hi : ChangesCore i k ok f) (h : CanRun s k 4) (hok : ok = false) :
    exec i s = .next (s.raise k exnInvalid) := by
  subst hok
  exact (hi s).trans (State.retire_error h.1 h.2 rfl)

theorem ChangesCore.runs (hi : ChangesCore i k ok f) (h : CanRun s k 4) (hok : ok = true)
    (hpc : (f (s.core k)).pc = (s.core k).pc) : exec i s = .next (coreNext s k (stepped (f (s.core k)) 4)) := by
  subst hok
  exact (hi s).trans (State.retire_modCore h rfl rfl hpc)

end

end Sys2Proof.Machine
end

section
/-! PROOFS. The lane instructions and the lane loads and stores (06 R209, R215 to R217). -/
namespace Sys2Proof.Machine

open Claims

/-! ## The lane instructions (R216, R217) -/

/-- The instruction writes to vD, lane by lane of width 8 × 2^LZ, what `g` gives of the lanes of vA and vB. -/
def Lanewise (i : Instr) (k : CoreSel) (d a b : Fin 16) (lz : Fin 4)
    (g : BitVec (8 * 2 ^ lz.val) → BitVec (8 * 2 ^ lz.val) → BitVec (8 * 2 ^ lz.val)) : Prop :=
  ∃ f, Computes (8 * 2 ^ lz.val) f g ∧ ChangesCore i k (vOk d && vOk a && vOk b) fun c =>
    c.setV d (BitVec.ofNat 128 (lanes2 (8 * 2 ^ lz.val) f (c.rv a) (c.rv b)))

/-- The instruction takes LZ = 0 only and writes `g` of the core's lane registers to vD. -/
def WholeLane (i : Instr) (k : CoreSel) (d a b : Fin 16) (lz : Fin 4) (g : Core → Lane) : Prop :=
  ChangesCore i k (vOk d && vOk a && vOk b && lz.val == 0) fun c => c.setV d (g c)

section
variable {k : CoreSel} {d a b : Fin 16} {lz li : Fin 4}

/-- No lane is empty. -/
theorem laneWidth_pos : 0 < 8 * 2 ^ lz.val := Nat.mul_pos (by decide) (Nat.two_pow_pos _)

theorem lanewise_vadd : Lanewise (.vadd k d a b lz) k d a b lz fun p q => p + q := ⟨_, computes_add _, fun _ => rfl⟩
theorem lanewise_vsub : Lanewise (.vsub k d a b lz) k d a b lz fun p q => p - q := ⟨_, computes_sub _, fun _ => rfl⟩
theorem lanewise_vcmpeq : Lanewise (.vcmpeq k d a b lz) k d a b lz fun p q => if p = q then BitVec.allOnes _ else 0 :=
  ⟨_, computes_cmpeq _, fun _ => rfl⟩
theorem lanewise_vcmpgtu : Lanewise (.vcmpgtu k d a b lz) k d a b lz fun p q => if q < p then BitVec.allOnes _ else 0 :=
  ⟨_, computes_cmpgtu _, fun _ => rfl⟩
theorem lanewise_vcmpgts : Lanewise (.vcmpgts k d a b lz) k d a b lz fun p q => if q.slt p then BitVec.allOnes _ else 0 :=
  ⟨_, computes_cmpgts laneWidth_pos, fun _ => rfl⟩
theorem lanewise_vminu : Lanewise (.vminu k d a b lz) k d a b lz fun p q => if q < p then q else p :=
  ⟨_, computes_minu _, fun _ => rfl⟩
theorem lanewise_vmaxu : Lanewise (.vmaxu k d a b lz) k d a b lz fun p q => if p < q then q else p :=
  ⟨_, computes_maxu _, fun _ => rfl⟩
theorem lanewise_vshl : Lanewise (.vshl k d a b lz) k d a b lz fun p q => p <<< (q.toNat % (8 * 2 ^ lz.val)) :=
  ⟨_, computes_shl _, fun _ => rfl⟩
theorem lanewise_vshr : Lanewise (.vshr k d a b lz) k d a b lz fun p q => p >>> (q.toNat % (8 * 2 ^ lz.val)) :=
  ⟨_, computes_shr _, fun _ => rfl⟩
theorem lanewise_vsar : Lanewise (.vsar k d a b lz) k d a b lz fun p q => p.sshiftRight (q.toNat % (8 * 2 ^ lz.val)) :=
  ⟨_, computes_sar laneWidth_pos, fun _ => rfl⟩

theorem wholeLane_vand : WholeLane (.vand k d a b lz) k d a b lz fun c => c.rv a &&& c.rv b := fun _ => rfl
theorem wholeLane_vor : WholeLane (.vor k d a b lz) k d a b lz fun c => c.rv a ||| c.rv b := fun _ => rfl
theorem wholeLane_vxor : WholeLane (.vxor k d a b lz) k d a b lz fun c => c.rv a ^^^ c.rv b := fun _ => rfl
theorem wholeLane_vandn : WholeLane (.vandn k d a b lz) k d a b lz fun c => c.rv a &&& ~~~c.rv b := fun _ => rfl
theorem wholeLane_vperm : WholeLane (.vperm k d a b lz) k d a b lz fun c => vperm (c.rv a) (c.rv d) (c.rv b) := fun _ => rfl

theorem changesCore_vmov : ChangesCore (.vmov k d a lz) k (vOk d && vOk a && lz.val == 0) fun c => c.setV d (c.rv a) :=
  fun _ => rfl
theorem changesCore_vsplat : ChangesCore (.vsplat k d a li) k (vOk d) fun c => c.setV d (splat li.val (c.r a)) := fun _ => rfl
theorem changesCore_vext :
    ChangesCore (.vext k d a li) k (vOk a) fun c => c.setR d (BitVec.ofNat 32 (laneAt 32 (c.rv a) li.val)) := fun _ => rfl
theorem changesCore_vins : ChangesCore (.vins k d a li) k (vOk d) fun c =>
    c.setV d (laneOf (overlay (laneBytes (c.rv d)) (4 * li.val) (leBytes 4 (c.r a).toNat))) := fun _ => rfl
theorem changesCore_vmask : ChangesCore (.vmask k d a li) k (vOk a && li.val == 0) fun c =>
    (c.flagZ (vmask (c.rv a) == 0)).setR d (vmask (c.rv a)) := fun _ => rfl

/-! ## Valid fields (R209) -/

/-- A v field below 8 is valid. -/
theorem vOk_of_lt (h : d.val < 8) : vOk d = true := decide_eq_true h

/-- A v field above 7 is not. -/
theorem vOk_of_le (h : 8 ≤ d.val) : vOk d = false := decide_eq_false (Nat.not_lt.2 h)

theorem vOk_and (hd : d.val < 8) (ha : a.val < 8) (hb : b.val < 8) : (vOk d && vOk a && vOk b) = true := by
  rw [vOk_of_lt hd, vOk_of_lt ha, vOk_of_lt hb]; rfl

theorem vOk_and_false (h : 8 ≤ d.val ∨ 8 ≤ a.val ∨ 8 ≤ b.val) : (vOk d && vOk a && vOk b) = false := by
  rcases h with h | h | h <;> simp [vOk_of_le h]

/-! ## How the lane operations end -/

variable {s : State} {i : Instr} (h : CanRun s k 4)
include h

theorem Lanewise.invalid {g : BitVec (8 * 2 ^ lz.val) → BitVec (8 * 2 ^ lz.val) → BitVec (8 * 2 ^ lz.val)}
    (hi : Lanewise i k d a b lz g) (hv : (vOk d && vOk a && vOk b) = false) : exec i s = .next (s.raise k exnInvalid) := by
  obtain ⟨f, -, hc⟩ := hi
  exact hc.invalid h hv

theorem Lanewise.runs {g : BitVec (8 * 2 ^ lz.val) → BitVec (8 * 2 ^ lz.val) → BitVec (8 * 2 ^ lz.val)}
    (hi : Lanewise i k d a b lz g) (hv : (vOk d && vOk a && vOk b) = true) :
    ∃ r, exec i s = .next (coreNext s k (stepped (wrV (s.core k) d r) 4)) ∧ ∀ j < 128 / (8 * 2 ^ lz.val),
      lane (8 * 2 ^ lz.val) r j = g (lane _ ((s.core k).rv a) j) (lane _ ((s.core k).rv b) j) := by
  obtain ⟨f, hf, hc⟩ := hi
  exact ⟨_, hc.runs h hv rfl, fun j hj => lane_lanes2 hf _ _ hj⟩

theorem WholeLane.invalid {g : Core → Lane} (hi : WholeLane i k d a b lz g) (hv : (vOk d && vOk a && vOk b) = false ∨ lz ≠ 0) :
    exec i s = .next (s.raise k exnInvalid) := by
  refine ChangesCore.invalid hi h ?_
  rcases hv with hv | hz
  · rw [hv]; rfl
  · simp [Fin.val_eq_zero_iff, hz]

theorem WholeLane.runs {g : Core → Lane} (hi : WholeLane i k d a b 0 g) (hv : (vOk d && vOk a && vOk b) = true) :
    exec i s = .next (coreNext s k (stepped (wrV (s.core k) d (g (s.core k))) 4)) :=
  ChangesCore.runs hi h (by rw [hv]; rfl) rfl

end

/-! ## The lane loads and stores (R215) -/

theorem bankedOff_eq_banked (base : Word) (disp : BitVec 16) : bankedOff base disp = banked base disp := by
  rw [bankedOff, banked, BitVec.toNat_add, BitVec.toNat_setWidth, Nat.mod_add_mod]

section
variable {s t : State} {k : CoreSel} {d a : Fin 16} {bk : Fin 4} {f : Bool} {disp : BitVec 12}

/-- The fields of VLD and VST are valid unless vD is above 7 or the flat form has a bank or a displacement. -/
theorem vldOk_iff : vldOk d bk f disp = true ↔ ¬(8 ≤ d.val ∨ (f = true ∧ (bk ≠ 0 ∨ disp ≠ 0))) := by
  cases f <;> simp [vldOk, vOk, Fin.val_eq_zero_iff]

theorem vldPlace_eq (c : Core) : vldPlace c a bk f disp =
    (if f then c.g[a].toNat / 65536 else c.b[bk].toNat,
      if f then c.g[a].toNat % 65536 else banked c.g[a] (disp.signExtend 16 * 16)) := by
  cases f
  · simp only [vldPlace, bankedOff_eq_banked]; rfl
  · rfl

variable (h : CanRun s k 4)
include h

theorem exec_vld_vst_invalid (hok : vldOk d bk f disp = false) :
    exec (.vld k d a bk f disp) s = .next (s.raise k exnInvalid) ∧ exec (.vst k d a bk f disp) s = .next (s.raise k exnInvalid) := by
  constructor
  · exact State.retire_error h.1 h.2 (by rw [vldOp, hok]; rfl)
  · exact State.retire_error h.1 h.2 (by rw [vstOp, hok]; rfl)

variable (hok : vldOk d bk f disp = true) {w off : Nat} (hp : vldPlace (s.core k) a bk f disp = (w, off))
include hok hp

theorem exec_vld_error {e : Exn} (hl : s.load k w off 16 = .error e) :
    exec (.vld k d a bk f disp) s = .next (s.raise k e) :=
  State.retire_error h.1 h.2 (by simp only [vldOp, hok, hp, hl]; rfl)

theorem exec_vld_ok {x : List Byte} (hl : s.load k w off 16 = .ok (x, t)) :
    exec (.vld k d a bk f disp) s = .next (coreNext t k
      (stepped (wr (wrV (s.core k) d (BitVec.ofNat 128 (leNat x))) a (vldBase (s.core k) a f)) 4)) := by
  refine State.retire_modCore (f := fun c => (c.setV d (laneOf x)).setR a (vldBase (s.core k) a f)) h ?_
    (State.core_load hl k) rfl
  simp only [vldOp, hok, hp, hl]
  exact congrArg Except.ok (State.modCore_modCore t k _ _)

theorem exec_vst_error {e : Exn} (hl : s.storeAt k w off (laneBytes ((s.core k).rv d)) = .error e) :
    exec (.vst k d a bk f disp) s = .next (s.raise k e) :=
  State.retire_error h.1 h.2 (by simp only [vstOp, hok, hp, hl]; rfl)

theorem exec_vst_ok (hl : s.storeAt k w off (laneBytes ((s.core k).rv d)) = .ok t) :
    exec (.vst k d a bk f disp) s = .next (coreNext t k (stepped (wr (s.core k) a (vldBase (s.core k) a f)) 4)) := by
  refine State.retire_modCore (f := fun c => c.setR a (vldBase (s.core k) a f)) h ?_ (State.core_storeAt hl k) rfl
  simp only [vstOp, hok, hp, hl]; rfl

end

/-- Settles O7: each instruction's effect on its core is one of the lemmas above, and its lanes are those of the model's digit
sums (`lane_lanes2`); VLD and VST leave the cores as they are until they write back (`State.core_load`, `State.core_storeAt`). -/
theorem laneRegisters : Obligations.LaneRegisters := by
  unfold Obligations.LaneRegisters
  refine ⟨fun s k d a b lz h => ?_, fun s k d a li h => ?_, fun s k d a bk f disp h => ?_⟩
  · intro c x y w nxt each invalid
    refine ⟨fun hv => ?_, fun hz => ?_, fun hv => ?_, fun hd ha => ?_, fun hd ha hb => ?_⟩
    · have hf := vOk_and_false hv
      simp only [List.forall_mem_cons]
      exact ⟨lanewise_vadd.invalid h hf, lanewise_vsub.invalid h hf, lanewise_vcmpeq.invalid h hf,
        lanewise_vcmpgtu.invalid h hf, lanewise_vcmpgts.invalid h hf, lanewise_vminu.invalid h hf,
        lanewise_vmaxu.invalid h hf, lanewise_vshl.invalid h hf, lanewise_vshr.invalid h hf, lanewise_vsar.invalid h hf,
        wholeLane_vand.invalid h (.inl hf), wholeLane_vor.invalid h (.inl hf), wholeLane_vxor.invalid h (.inl hf),
        wholeLane_vandn.invalid h (.inl hf), wholeLane_vperm.invalid h (.inl hf), List.forall_mem_nil _⟩
    · simp only [List.forall_mem_cons]
      exact ⟨wholeLane_vand.invalid h (.inr hz), wholeLane_vor.invalid h (.inr hz), wholeLane_vxor.invalid h (.inr hz),
        wholeLane_vandn.invalid h (.inr hz), wholeLane_vperm.invalid h (.inr hz),
        changesCore_vmov.invalid h (by simp [Fin.val_eq_zero_iff, hz]), List.forall_mem_nil _⟩
    · exact changesCore_vmov.invalid h (by rcases hv with hv | hv <;> simp [vOk_of_le hv])
    · exact changesCore_vmov.runs h (by rw [vOk_of_lt hd, vOk_of_lt ha]; rfl) rfl
    · have ht := vOk_and hd ha hb
      exact ⟨lanewise_vadd.runs h ht, lanewise_vsub.runs h ht, lanewise_vcmpeq.runs h ht, lanewise_vcmpgtu.runs h ht,
        lanewise_vcmpgts.runs h ht, lanewise_vminu.runs h ht, lanewise_vmaxu.runs h ht, lanewise_vshl.runs h ht,
        lanewise_vshr.runs h ht, lanewise_vsar.runs h ht, wholeLane_vand.runs h ht, wholeLane_vor.runs h ht,
        wholeLane_vxor.runs h ht, wholeLane_vandn.runs h ht,
        ⟨_, wholeLane_vperm.runs h ht, fun j hj => lane_vperm _ _ _ hj⟩⟩
  · intro c nxt
    refine ⟨fun hd => ⟨?_, ?_⟩, fun ha => ⟨?_, ?_⟩, fun hd => ⟨?_, ?_⟩, fun ha => ⟨?_, ?_⟩⟩
    · exact ⟨_, changesCore_vsplat.runs h (vOk_of_lt hd) rfl, fun j hj => lane_splat _ _ (by rwa [← Nat.div_div_eq_div_mul])⟩
    · exact ⟨_, changesCore_vins.runs h (vOk_of_lt hd) rfl, fun j hj => lane_insert _ _ _ hj⟩
    · refine (changesCore_vext.runs h (vOk_of_lt ha) rfl).trans ?_
      rw [ofNat_laneAt]; rfl
    · exact ⟨_, changesCore_vmask.runs h (by rw [vOk_of_lt ha]; rfl) rfl, fun j hj => vmask_bit _ hj⟩
    · exact changesCore_vsplat.invalid h (vOk_of_le hd)
    · exact changesCore_vins.invalid h (vOk_of_le hd)
    · exact changesCore_vext.invalid h (vOk_of_le ha)
    · exact changesCore_vmask.invalid h (by rw [vOk_of_le ha]; rfl)
  · intro c bad w off base bytes
    have hp : vldPlace c a bk f disp = (w, off) := vldPlace_eq c
    refine ⟨fun hb => exec_vld_vst_invalid h (Bool.eq_false_iff.2 fun hok => vldOk_iff.1 hok hb), fun hb => ?_⟩
    have hok := vldOk_iff.2 hb
    exact ⟨fun e => exec_vld_error h hok hp, fun x t => exec_vld_ok h hok hp, fun e => exec_vst_error h hok hp,
      fun t => exec_vst_ok h hok hp⟩

end Sys2Proof.Machine
end

section
/-! PROOFS. A stack's temperature reading, and the return of its controllers to the normal interval (11 R386, R387, R392,
R393). -/
namespace Sys2Proof.Machine

/-! ## What recording an event and writing delays leave of the memory (R386, R387) -/

/-- An element of a register reads as before after another place of the registers is set. -/
theorem State.reg_setReg_of_ne (s : State) {n m : RegName} {i j : Nat} (v : Reg)
    (h : (regDef m).offset j ≠ (regDef n).offset i) : (s.setReg n i v).reg m j = s.reg m j :=
  AMap.lookD_put_of_ne s.regs v _ h

/-- A stack reads as it was changed to. -/
@[simp] theorem State.stack_modStack (s : State) (n : Nat) (f : MemStack → MemStack) :
    (s.modStack n f).stack n = f (s.stack n) := AMap.lookD_upd_self _ _ _ _

@[simp] theorem State.modStack_reg (s : State) (n : Nat) (f : MemStack → MemStack) (m : RegName) (i : Nat) :
    (s.modStack n f).reg m i = s.reg m i := rfl
@[simp] theorem State.modStack_bytes (s : State) (n : Nat) (f : MemStack → MemStack) :
    (s.modStack n f).mem.bytes = s.mem.bytes := rfl
@[simp] theorem State.modStack_ctrl (s : State) (n : Nat) (f : MemStack → MemStack) (c : Nat) :
    (s.modStack n f).ctrl c = s.ctrl c := rfl
@[simp] theorem State.modStack_cmds (s : State) (n : Nat) (f : MemStack → MemStack) : (s.modStack n f).cmds = s.cmds := rfl

/-- From `s` to `t` the memory keeps its bytes, its controllers and each stack's interval and reading, the commands stay, and
so do the refresh settings (MEM_REF) and the count of conversion bursts (MEM_CNT 8). -/
structure KeepsRefresh (s t : State) : Prop where
  bytes : t.mem.bytes = s.mem.bytes
  ctrl : ∀ c, t.ctrl c = s.ctrl c
  double : ∀ n, (t.stack n).double = (s.stack n).double
  temp : ∀ n, (t.stack n).temp = (s.stack n).temp
  cmds : t.cmds = s.cmds
  settings : t.reg .memRef 0 = s.reg .memRef 0
  bursts : t.reg .memCnt 8 = s.reg .memCnt 8

theorem KeepsRefresh.refl (s : State) : KeepsRefresh s s := ⟨rfl, fun _ => rfl, fun _ => rfl, fun _ => rfl, rfl, rfl, rfl⟩

theorem KeepsRefresh.trans {s t u : State} (h : KeepsRefresh s t) (k : KeepsRefresh t u) : KeepsRefresh s u where
  bytes := k.bytes.trans h.bytes
  ctrl c := (k.ctrl c).trans (h.ctrl c)
  double n := (k.double n).trans (h.double n)
  temp n := (k.temp n).trans (h.temp n)
  cmds := k.cmds.trans h.cmds
  settings := k.settings.trans h.settings
  bursts := k.bursts.trans h.bursts

section
variable {s0 s : State} (h : KeepsRefresh s0 s)
include h

/-- A change of neither memory, commands nor registers. -/
theorem KeepsRefresh.frame {t : State} (hm : t.mem = s.mem) (hc : t.cmds = s.cmds) (hr : t.regs = s.regs) :
    KeepsRefresh s0 t :=
  h.trans ⟨by rw [hm], fun c => by rw [State.ctrl, hm, State.ctrl], fun n => by rw [State.stack, hm, State.stack],
    fun n => by rw [State.stack, hm, State.stack], hc, by rw [State.reg, hr, State.reg], by rw [State.reg, hr, State.reg]⟩

theorem KeepsRefresh.setEvr (e : EvRecorder) : KeepsRefresh s0 { s with evr := e } := h.frame rfl rfl rfl

theorem KeepsRefresh.setReg {n : RegName} {i : Nat} (v : Reg) (hr : (regDef .memRef).offset 0 ≠ (regDef n).offset i)
    (hc : (regDef .memCnt).offset 8 ≠ (regDef n).offset i) : KeepsRefresh s0 (s.setReg n i v) :=
  h.trans ⟨rfl, fun _ => rfl, fun _ => rfl, fun _ => rfl, rfl, s.reg_setReg_of_ne v hr, s.reg_setReg_of_ne v hc⟩

theorem KeepsRefresh.bump {n : RegName} {i : Nat} (hr : (regDef .memRef).offset 0 ≠ (regDef n).offset i)
    (hc : (regDef .memCnt).offset 8 ≠ (regDef n).offset i) : KeepsRefresh s0 (s.bump n i) := h.setReg _ hr hc

theorem KeepsRefresh.modStack (n : Nat) {f : MemStack → MemStack} (hd : ∀ x, (f x).double = x.double)
    (ht : ∀ x, (f x).temp = x.temp) : KeepsRefresh s0 (s.modStack n f) := by
  have hx : ∀ i, ((s.modStack n f).stack i).double = (s.stack i).double ∧
      ((s.modStack n f).stack i).temp = (s.stack i).temp := fun i => by
    by_cases hi : i = n
    · subst hi; rw [State.stack_modStack]; exact ⟨hd _, ht _⟩
    · have e : (s.modStack n f).stack i = s.stack i := AMap.lookD_upd_of_ne _ _ _ hi
      rw [e]; exact ⟨rfl, rfl⟩
  exact h.trans ⟨rfl, fun _ => rfl, fun i => (hx i).1, fun i => (hx i).2, rfl, rfl, rfl⟩

theorem KeepsRefresh.pushRecord (code source : Nat) (d : List Byte) : KeepsRefresh s0 (s.pushRecord code source d) := by
  unfold State.pushRecord
  extract_lets
  refine KeepsRefresh.bump (h.frame ?_ ?_ ?_) (by decide) (by decide) <;> rfl

theorem KeepsRefresh.record (code source : Nat) (d : List Byte) : KeepsRefresh s0 (s.record code source d) := by
  unfold State.record
  split
  · exact h.pushRecord _ _ _
  · split
    · exact (h.pushRecord _ _ _).setEvr _
    · split
      · exact (h.setEvr _).pushRecord _ _ _
      · exact (h.setEvr _).bump (by decide) (by decide)

/-- The delay registers lie above MEM_REF and MEM_CNT. -/
theorem KeepsRefresh.setDelay {n : RegName} (hn : n = .memDly ∨ n = .memDlyAct) (i : Nat) (v : Reg) :
    KeepsRefresh s0 (s.setReg n i v) := by
  have hr : (regDef .memRef).offset 0 < (regDef n).base := by rcases hn with rfl | rfl <;> decide
  have hc : (regDef .memCnt).offset 8 < (regDef n).base := by rcases hn with rfl | rfl <;> decide
  have hb : (regDef n).base ≤ (regDef n).offset i := Nat.le_add_right _ _
  exact h.setReg v (by omega) (by omega)

theorem KeepsRefresh.writeDelays (stack t b : Nat) : KeepsRefresh s0 (s.writeDelays stack t b) := by
  unfold State.writeDelays
  extract_lets s1 s2
  have h1 : KeepsRefresh s0 s1 :=
    List.foldlRecOn (motive := KeepsRefresh s0) _ _ h fun _ hs _ _ => (hs.setDelay (.inl rfl) _ _).setDelay (.inr rfl) _ _
  have h2 : KeepsRefresh s0 s2 := h1.modStack stack (fun _ => rfl) (fun _ => rfl)
  split
  · exact h2
  · exact h2.record _ _ _

theorem KeepsRefresh.alertPin (s' : State) : KeepsRefresh s0 (s'.alertPin s) := by
  unfold State.alertPin
  split
  · exact h
  · exact h.frame rfl rfl rfl

end

/-! ## The return to the normal interval (R393) -/

/-- A controller back at the normal interval: its debt is halved, rounded up. -/
def MemCtrl.slowed (k : MemCtrl) : MemCtrl := { k with double := false, debt := (k.debt + 1) / 2 }

/-- A controller in service goes back to the normal interval. -/
def State.slowCtrl (s : State) (c : Nat) : State := if (s.ctrl c).st ≠ 1 then s else s.modCtrl c MemCtrl.slowed

/-- Controllers go back one after another. -/
def State.slowCtrls (s : State) (l : List Nat) : State := l.foldl State.slowCtrl s

/-- A stack whose refresh is doubled goes back with all its controllers. -/
theorem State.normalRefresh_of_double {s : State} {n : Nat} (h : (s.stack n).double = true) :
    s.normalRefresh n = (s.modStack n fun x => { x with double := false }).slowCtrls (stackCtrls n) := by
  rw [State.normalRefresh, h]; rfl

/-- The controllers after one of them has gone back. -/
theorem State.ctrl_slowCtrl (s : State) (c i : Nat) :
    (s.slowCtrl c).ctrl i = if i = c ∧ (s.ctrl i).st = 1 then (s.ctrl i).slowed else s.ctrl i := by
  unfold State.slowCtrl
  split
  · next hs =>
    rw [if_neg]
    rintro ⟨rfl, h⟩
    exact hs h
  · next hs =>
    by_cases hi : i = c
    · subst hi
      rw [if_pos ⟨rfl, Decidable.not_not.1 hs⟩]
      exact AMap.lookD_upd_self _ _ _ _
    · rw [if_neg (mt And.left hi)]
      exact AMap.lookD_upd_of_ne _ _ _ hi

/-- Of the controllers of a list without repetition, those in service go back, once each; no other one changes. -/
theorem State.ctrl_slowCtrls {l : List Nat} (hl : l.Nodup) (s : State) (i : Nat) :
    (s.slowCtrls l).ctrl i = if i ∈ l ∧ (s.ctrl i).st = 1 then (s.ctrl i).slowed else s.ctrl i := by
  induction l generalizing s with
  | nil => simp [State.slowCtrls]
  | cons c l ih =>
    obtain ⟨hc, hl⟩ := List.nodup_cons.1 hl
    refine (ih hl (s.slowCtrl c)).trans ?_
    rw [State.ctrl_slowCtrl]
    by_cases hi : i = c
    · subst hi; simp [hc]
    · simp [hi]

/-- Beside the controllers, nothing changes. -/
theorem State.slowCtrls_eq (s : State) (l : List Nat) :
    ∃ cs, s.slowCtrls l = { s with mem := { s.mem with ctrls := cs } } := by
  refine List.foldlRecOn (motive := fun t : State => ∃ cs, t = { s with mem := { s.mem with ctrls := cs } }) l _ ⟨_, rfl⟩ ?_
  rintro _ ⟨cs, rfl⟩ c _
  unfold State.slowCtrl
  split
  · exact ⟨cs, rfl⟩
  · exact ⟨_, rfl⟩

section
variable (s : State) (l : List Nat)

@[simp] theorem State.slowCtrls_reg (n : RegName) (i : Nat) : (s.slowCtrls l).reg n i = s.reg n i := by
  obtain ⟨cs, e⟩ := s.slowCtrls_eq l
  rw [e]; rfl

@[simp] theorem State.slowCtrls_bytes : (s.slowCtrls l).mem.bytes = s.mem.bytes := by
  obtain ⟨cs, e⟩ := s.slowCtrls_eq l
  rw [e]

@[simp] theorem State.slowCtrls_cmds : (s.slowCtrls l).cmds = s.cmds := by
  obtain ⟨cs, e⟩ := s.slowCtrls_eq l
  rw [e]

@[simp] theorem State.slowCtrls_stack (n : Nat) : (s.slowCtrls l).stack n = s.stack n := by
  obtain ⟨cs, e⟩ := s.slowCtrls_eq l
  rw [e]; rfl

end

theorem nodup_stackCtrls (n : Nat) : (stackCtrls n).Nodup :=
  List.Pairwise.map _ (fun _ _ h e => h (Nat.add_left_cancel e)) List.nodup_range

/-! ## The reading (R392, R393) -/

/-- A stack's reading is taken down. -/
def State.tookTemp (s : State) (n : Nat) (v : Int) : State :=
  (s.modStack n fun x => { x with temp := v }).modHk fun h => { h with stackRead := h.stackRead.put n true }

@[simp] theorem State.tookTemp_reg (s : State) (n : Nat) (v : Int) (m : RegName) (i : Nat) :
    (s.tookTemp n v).reg m i = s.reg m i := rfl
@[simp] theorem State.tookTemp_bytes (s : State) (n : Nat) (v : Int) : (s.tookTemp n v).mem.bytes = s.mem.bytes := rfl
@[simp] theorem State.tookTemp_ctrl (s : State) (n : Nat) (v : Int) (c : Nat) : (s.tookTemp n v).ctrl c = s.ctrl c := rfl
@[simp] theorem State.tookTemp_cmds (s : State) (n : Nat) (v : Int) : (s.tookTemp n v).cmds = s.cmds := rfl
@[simp] theorem State.tookTemp_stack (s : State) (n : Nat) (v : Int) :
    (s.tookTemp n v).stack n = { s.stack n with temp := v } := s.stack_modStack n _

/-- A reading below DOUBLE_C − HYST_C of a stack in service is taken down and brings the normal refresh back; what follows, the
delays of another band, leaves the refresh alone. -/
theorem State.readStack_below {s : State} {n : Nat} {v : Int} (hs : (s.stack n).st = 1)
    (hv : v < (s.regBits .memRef 0 23 16 : Int) - (s.regBits .memRef 0 27 24 : Int)) :
    KeepsRefresh ((s.tookTemp n v).normalRefresh n) (s.readStack n (some v)) := by
  have hdbl : ¬ (s.regBits .memRef 0 23 16 : Int) ≤ v := by omega
  unfold State.readStack
  simp -zeta only []
  rw [if_neg (Decidable.not_not.2 hs)]
  extract_lets s1 s2 dbl hyst s3 old b
  have h3 : s3 = (s.tookTemp n v).normalRefresh n := (if_neg hdbl).trans (if_pos hv)
  rw [← h3]
  split
  · exact .refl _
  · split
    · exact (KeepsRefresh.refl _).writeDelays _ _ _
    · exact .refl _

/-- Channels 72 to 79 of the round are the stacks. -/
theorem State.visit_stack {s : State} {k : Nat} (lo : 72 ≤ k) (hi : k < 80) (r : Option Int) :
    s.visit k r = s.readStack (k - 72) r := by
  rw [State.visit, if_neg (by omega), if_neg (by omega), if_pos hi]

/-- The visit of a stack's channel in its turn leaves of the refresh what the reading leaves. -/
theorem exec_housekeepingVisit_stack {s : State} {k : Fin 128} (lo : 72 ≤ k.val) (hi : k.val < 80)
    (hh : s.housekeeps = true) (hk : s.hk.next = k.val) (r : Option Int) :
    ∃ t, exec (.housekeepingVisit k r) s = .next t ∧ KeepsRefresh (s.readStack (k.val - 72) r) t := by
  refine ⟨_, congrArg Host.Outcome.next (if_pos ⟨hh, hk⟩), KeepsRefresh.alertPin ?_ s⟩
  rw [State.visit_stack lo hi]
  exact (KeepsRefresh.refl _).frame rfl rfl rfl

/-- The limit of a controller at the normal interval is POSTPONE_MAX. -/
theorem State.postponeLimit_normal (s : State) {c : MemCtrl} (h : c.double = false) :
    s.postponeLimit c = s.regBits .memRef 0 15 12 := by
  simp [State.postponeLimit, h]

/-- Settles O39: the visit keeps what the reading leaves of the refresh, the reading what `normalRefresh` does to it, and that
slows each controller in service of the stack once (`State.ctrl_slowCtrls`) and changes nothing else. -/
theorem refreshReturns : Obligations.RefreshReturns := by
  unfold Obligations.RefreshReturns
  intro s k v lo hi hh hk n hst hd hv
  obtain ⟨t, ht, hvisit⟩ := exec_housekeepingVisit_stack lo hi hh hk (some v)
  have keeps : KeepsRefresh ((s.tookTemp n v).normalRefresh n) t := (State.readStack_below hst hv).trans hvisit
  rw [State.normalRefresh_of_double (by simpa using hd)] at keeps
  have hctrl : ∀ c, t.ctrl c = if c ∈ stackCtrls n ∧ (s.ctrl c).st = 1 then (s.ctrl c).slowed else s.ctrl c := fun c =>
    (keeps.ctrl c).trans (State.ctrl_slowCtrls (nodup_stackCtrls n) _ c)
  have hsettings : t.reg .memRef 0 = s.reg .memRef 0 := by simpa using keeps.settings
  refine ⟨t, ht, by simpa using keeps.double n, by simpa using keeps.temp n, by simpa using keeps.bursts,
    by simpa using keeps.bytes, by simpa using keeps.cmds, fun c hc h1 => ?_, fun c hc => ?_⟩
  · have hslow : t.ctrl c = (s.ctrl c).slowed := (hctrl c).trans (if_pos ⟨hc, h1⟩)
    refine ⟨hslow, ?_⟩
    rw [State.postponeLimit_normal t (by rw [hslow]; rfl), State.regBits, hsettings, State.regBits]
  · exact (hctrl c).trans (if_neg (mt And.left hc))

end Sys2Proof.Machine
end
